-- ==== Sys2Proof/Word.lean ====
section
/-!
DEFINITION. Sys2Proof/Word.lean: the word types and index types every other file uses.
-/
namespace Sys2Proof

/-- One byte. -/
abbrev Byte := BitVec 8

/-- A run of bytes, lowest address first. -/
abbrev Bytes := List (BitVec 8)

/-- A function number, which is also a tenant number (R339): 0 is the PF, 1 to 15 are VF 1 to VF 15. -/
abbrev Fn := Fin 16

/-- A compute tile T0 to T3 (R9). -/
abbrev TileIx := Fin 4

/-- A model slot (R269). -/
abbrev SlotIx := Fin 64

/-- A Malny port M0 to M11 (R311). -/
abbrev PortIx := Fin 12

/-- A ring set (R341). -/
abbrev SetIx := Fin 4

/-- A ring number within a set (R341): 0 admin, 1 request, 2 completion, 3 emission, 4 event. -/
abbrev RingIx := Fin 5

/-- A cohort index (R27). -/
abbrev CohIx := Fin 8

/-- A vector length, 0 to 1,024 (R134). -/
abbrev VLen := Fin 1025

end Sys2Proof
end

