-- ==== Sys2Proof/Syntax.lean ====
section
/-!
DEFINITION. Sys2Proof/Syntax.lean: the commands of the BX8, one constructor per row of spec/opcode_table.json, and the
operands they carry. What reaches the block from outside (host memory that a command names, the outcome of a read, a
frame on a link, a sensor reading) is an operand; whatever the block itself holds is State.
-/
namespace Sys2Proof

/-- Where a request or admin command came from (R345, R348): the function, the ring set and the entry's TAG. -/
structure Sub where
  fn : Fn
  set : SetIx
  tag : BitVec 32
deriving DecidableEq, Repr, Inhabited

/-- The tile, model slot and cohort whose step a descriptor belongs to (R27, R29). -/
structure DCtx where
  tile : TileIx
  model : SlotIx
  cohort : CohIx
deriving DecidableEq, Repr, Inhabited

/-- What the host read of a ring entry and of the buffers it names returned (R345, R346). -/
structure Fetch where
  /-- false: the read of the entry itself failed. -/
  ok : Bool
  /-- the 64 bytes of the entry. -/
  entry : Bytes
  /-- the 64 bytes of the seal entry in the next slot. -/
  sealEntry : Bytes
  /-- false: a read of a buffer that the entry names failed (R355). -/
  copiesOk : Bool
  /-- the buffers of R373, in the order of the entry's fields, concatenated. -/
  bufs : Bytes
deriving DecidableEq, Repr, Inhabited

/-! ## Model images (R268, R446) -/

/-- The shape of the model in an image, for the limits of R2. R268's header and R446's sections have no field for it: that it is
an operand beside the sections, and where its values agree with them (page geometry, HPG, the head slice), is the model's own
choice (DESIGN CHOICE, log entry 9). -/
structure Shape where
  decoderOnly : Bool
  preNorm : Bool
  rotary : Bool
  layers : Nat
  hidden : Nat
  kvGroups : Nat
  queryHeads : Nat
  headDim : Nat
  routedExperts : Nat
  topK : Nat
  sharedExperts : Nat
  vocab : Nat
  /-- every number format the image names is one R2 lists. -/
  formatsListed : Bool
  /-- the image names K8, and K4, among its KV formats. -/
  kvK8 : Bool
  kvK4 : Bool
deriving DecidableEq, Repr, Inhabited

/-- The step programs and the spans they declare (R29, R95, R138, R142, R272, R278, R287). -/
structure Programs where
  /-- descriptor list of each tile, T0 to T3 (R29). -/
  lists : Vector (List (BitVec 512)) 4
  /-- element programs of each tile (R142). -/
  elem : Vector (List (List (BitVec 64))) 4
  rsSpan : Vector Nat 4
  rsResident : Vector Nat 4
  opcSpan : Vector Nat 4
  progSpan : Vector Nat 4
  spSpan : Vector Nat 4
  /-- hub, T0 to T3 (R287). -/
  syncSpan : Vector Nat 5
  windowSlots : Nat
deriving DecidableEq, Repr

/-- Page geometry (R158). -/
structure Geometry where
  layersP : Nat
  groupsP : Nat
  headDim : Nat
  kvFmt : Nat
deriving DecidableEq, Repr, Inhabited

/-- A rotary table (R202). -/
structure RotTable where
  rotDim : Nat
  pairing : Bool
  base : BitVec 32
  factor : BitVec 32
  reservedZero : Bool
  freq : List (BitVec 32)
deriving DecidableEq, Repr, Inhabited

/-- The speculation section (R236). -/
structure SpecDecl where
  heads : Nat
  width : List Nat
  ngramEn : Nat
  maxNodes : Nat
  draftAddr : Nat
deriving DecidableEq, Repr, Inhabited

/-- The content of one section, by its KIND (R268). -/
inductive SecBody where
  /-- KIND 0 and 9: bytes from the section's start; an unlisted byte is zero. -/
  | bytes (cells : List Host.Cell)
  | programs (p : Programs)
  /-- KIND 2: the multipliers of the resident rescale registers of each tile (R97). -/
  | scales (m : Vector (List (BitVec 32)) 4)
  /-- KIND 3: the operand-cache contents of each tile (R138). -/
  | opcache (c : Vector (List Host.Cell) 4)
  | geometry (g : Geometry)
  | rotary (t : List RotTable)
  | lens (e : List (BitVec 32))
  | speculation (d : SpecDecl)
  /-- KIND 8: DRIFT_ABS and DRIFT_FACTOR of each monitor (R103, R104). -/
  | monitors (m : List (BitVec 32 × BitVec 32))
deriving DecidableEq, Repr

/-- One entry of the section table (R446) with the section's content. -/
structure Section where
  imageOff : BitVec 64
  length : BitVec 64
  kind : BitVec 8
  tier : BitVec 2
  mirror : Bool
  ploryn : Bool
  layer : BitVec 8
  part : BitVec 8
  /-- bits [31:28] of offset 0x10 and the bytes 0x14 to 0x1F. -/
  reserved : BitVec 100
  body : SecBody
deriving DecidableEq, Repr

/-- One weight tensor operation's tiles within a KIND 0 section, for the checks of R52. -/
structure TensorDecl where
  sec : Nat
  offset : Nat
  fmt : Nat
  group : Nat
  zp : Bool
  cells : Nat
  beats : Nat
deriving DecidableEq, Repr, Inhabited

/-- A model image as MODEL_INSTALL reads it (R268, R446). -/
structure Image where
  magic : BitVec 32
  format : BitVec 16
  sectionCount : BitVec 16
  parts : BitVec 8
  /-- byte offset of the first non-zero reserved byte of the header; none when all are zero. -/
  reservedAt : Option Nat
  length : BitVec 64
  shape : Shape
  sections : List Section
  tensors : List TensorDecl
deriving DecidableEq, Repr

/-! ## Link traffic (R322 to R324) -/

/-- A packet: its 32-byte header and its data (R324). -/
structure Packet where
  hdr : BitVec 256
  data : Bytes
deriving DecidableEq, Repr, Inhabited

/-- A frame as a port's receiver sees it (R322, R323, R325). -/
structure Frame where
  hdr : BitVec 64
  /-- symbols in error of each FEC codeword. -/
  symErrs : List Nat
  crcOk : Bool
  tagOk : Bool
  packet : Option Packet
deriving DecidableEq, Repr, Inhabited

/-- What training one direction's receiver found (R316, R317). -/
structure LaneReport where
  /-- the receiver saw an idle pattern, or a load on its lanes. -/
  signal : Bool
  /-- the far end drives instead of terminating (R318). -/
  facingTx : Bool
  /-- lanes that are open, shorted, stuck or above the error ratio. -/
  badLanes : BitVec 32
  polFixed : Bool
  orderFixed : Bool
deriving DecidableEq, Repr, Inhabited

/-- A discovery record (R319). -/
structure Discovery where
  address : BitVec 16
  port : BitVec 4
  device : BitVec 32
deriving DecidableEq, Repr, Inhabited

/-- What training a port found: both directions, the authentication and the secrets of step 5 (R316, R372). -/
structure PortReport where
  rx : LaneReport
  tx : LaneReport
  authOk : Bool
  ownSecret : Bytes
  peerSecret : Bytes
  peer : Option Discovery
deriving DecidableEq, Repr, Inhabited

/-! ## Sequences as the packages of a slice name them (R21, R26, R28, R340) -/

/-- What names a sequence on a package: its handle, which means something only on its home package (R340), and for a sequence
homed elsewhere the model and the HOME member of R28 that qualify it. -/
structure Key where
  handle : BitVec 32 := 0
  /-- none: this package is the home package. -/
  home : Option (SlotIx × BitVec 8) := none
deriving DecidableEq, Repr, Inhabited

/-- The key of a sequence that this package is the home of. -/
def Key.own (h : BitVec 32) : Key := { handle := h }

/-- The key of a sequence of a model whose home package is another member of the slice. -/
def Key.far (m : SlotIx) (home : BitVec 8) (h : BitVec 32) : Key := { handle := h, home := some (m, home) }

/-- A node of the prefix tree (R181). -/
structure Node where
  id : Nat
  hash : BitVec 64
  parent : Option Nat
  frame : Nat
  tenant : Fn
  cross : Bool
  lastUse : BitVec 64
  tokens : List (BitVec 18)
deriving DecidableEq, Repr, Inhabited

/-- One decision of the cohort leader on the prefix tree, as the other packages apply it (R181, R183, R185). -/
inductive TreeOp where
  /-- a node is inserted: its own record, but for FRAME, which is the frame of a page of a sequence on each package. -/
  | insert (home : BitVec 8) (handle : BitVec 32) (page : Nat) (node : Node)
  /-- a matched node's frame is linked as a sequence's next page. -/
  | link (home : BitVec 8) (handle : BitVec 32) (node : Nat) (lastUse : BitVec 64)
  /-- an eviction; its frame is taken at once, or waits for the boundary (R170, R182). -/
  | evict (node : Nat) (taken : Bool)
deriving DecidableEq, Repr, Inhabited

/-- A node of a draft tree in preorder (R241): its token, its parent (0 the root, i the i-th node) and its depth. -/
structure Draft where
  token : BitVec 18
  parent : Nat
  depth : Nat
deriving DecidableEq, Repr, Inhabited

/-- What a sequence's home package has done since the last boundary, as it reaches another package of the slice (R22, R23, R26,
R34, R173 to R175, R183, R188, R192, R205, R230, R234). -/
inductive Notice where
  | admitted (full relay : Bool) (policy : Bytes) (bias : List (BitVec 64)) (abias : List (BitVec 128))
  | policy (policy : Bytes) (bias : List (BitVec 64)) (abias : List (BitVec 128))
  | imported (positions : Nat)
  | chunk (fin : Bool) (tokens : List (BitVec 18))
  /-- an EXTEND: its tokens with the carried one first, and this package's buffer when pages are to be read back. -/
  | extended (tokens : List (BitVec 18)) (buf : BitVec 64)
  | parked
  | unparked
  /-- PREEMPTING, with this package's buffer. -/
  | preempting (buf : BitVec 64)
  | swapped
  /-- RESUMING, with this package's buffer. -/
  | resuming (buf : BitVec 64)
  /-- every package has read its records. -/
  | resumed
  /-- a package's read-back failed: every package gives its frames back. -/
  | backFailed
  | ended
  | released
  /-- a spill begins, to a member of the ring. -/
  | spill (target : Nat)
deriving DecidableEq, Repr, Inhabited

/-- What a package of the slice reports of its own part of a swap (R188, R191 to R194). -/
inductive SwapReport where
  | busy
  | done
  | failed (status : BitVec 8)
deriving DecidableEq, Repr, Inhabited

/-- A sequence's accepted tokens, as its home package's token message carries them to the other packages (R32, R241, R247): the
root's position, the draft slots of the accepted path, the tokens in position order, and the tree of the next pass. -/
structure Accepted where
  home : BitVec 8
  handle : BitVec 32
  root : Nat
  path : List Nat
  tokens : List (BitVec 18)
  tree : List Draft
deriving DecidableEq, Repr, Inhabited

/-! ## Other operands -/

/-- The candidates and log-sum-exp another package of the slice sent for one row (R36 step 3). -/
structure PeerCand where
  row : Fin 32
  cands : List (Nat × BitVec 32)
  lse : BitVec 32
  /-- a logit of the peer's slice was NaN: none, ordinary or poison. -/
  nan : Nat
deriving DecidableEq, Repr, Inhabited

/-- Where the image keeps the embedding rows that LOOP EMBED reads. -/
structure EmbedLoc where
  sec : Nat
  offset : Nat
  rowBytes : Nat
deriving DecidableEq, Repr, Inhabited

/-- A sequence's share of what the other packages of the slice report at a step boundary: whether each of their
allocators could do what this package's allocator does, and whether a guard frame was used there (R174, R175). -/
structure PeerReport where
  /-- false: some other package of the slice has no frame from sources 1 to 3 for the page or copy it needs. -/
  framesOk : Bool
  /-- members of the slice whose guard was used since the last boundary. -/
  guardUsed : List Nat
  /-- false: an entitlement consumed on another package is not yet restored. -/
  restored : Bool
  /-- the ring members whose board's packages can each take a span, when a spill is due (R230). -/
  spillRoom : List Nat
  /-- pairs of members between which every package reports a path. -/
  routesOk : Bool
  /-- the home package, of another board, whose sequence went to FREE: this member frees the spans it holds for it (R234). -/
  freedBy : Option (BitVec 16) := none
  /-- an error that another package met in its share of the sequence's pages: status and DETAIL (R163, R218). -/
  fault : Option (BitVec 8 × BitVec 64) := none
  /-- the other packages' parts of the sequence's swap. -/
  swap : SwapReport := .done
  /-- emission slots that the home package can reserve for a sequence homed elsewhere (R43). -/
  slots : Nat := 0
deriving DecidableEq, Repr, Inhabited

/-- What SPILL_DONE stands for on a package (R230). -/
inductive SpillEvent where
  /-- at the home: the carried signal has returned. -/
  | returned
  /-- at the target: the last of the span's 256 frames, whose bytes these are, arrives from the home package. -/
  | written (model : SlotIx) (home : BitVec 16) (frames : List Bytes)
deriving DecidableEq, Repr, Inhabited

/-- The requester of an SPDM message (R370). -/
inductive Transport where
  | mctp
  | doe
deriving DecidableEq, Repr, Inhabited

/-- A vector instruction's fields (R142). -/
structure VF where
  dst : BitVec 8
  sa : BitVec 8
  sb : BitVec 8
  sc : BitVec 8
  pred : BitVec 3
  pneg : Bool
  mod : BitVec 4
  imm : BitVec 16
deriving DecidableEq, Repr, Inhabited

/-- The error a read found in a DRAM codeword, and what the codeword holds (R254, R256). -/
inductive DramData where
  | weightTile (model : SlotIx) (sec : Nat) (layer : Nat)
  | windowSlot (model : SlotIx) (sec : Nat) (layer : Nat)
  | otherSection (model : SlotIx) (sec : Nat)
  | pageFrame (model : SlotIx) (frame : Nat)
  | pageList (handle : Key)
  | summary (model : SlotIx) (frame : Nat) (layer group : Nat)
  | freeSpace
deriving DecidableEq, Repr, Inhabited

/-- Where an uncorrectable on-die SRAM word lies (R408). -/
inductive SramWhere where
  /-- scratchpad, accumulator memory, vector registers, temporaries, Collimator queue, Prism or ranker buffers. -/
  | tileData (rowMask : BitVec 32)
  /-- operand cache span or resident rescale registers. -/
  | tileModelData (rowMask : BitVec 32)
  | tileSync (word : BitVec 16)
  | hub
deriving DecidableEq, Repr, Inhabited

/-- Where one element of an SRAM error is read from: the word that is given back as NaN (R408). -/
structure SramRead where
  tile : TileIx
  model : SlotIx
  cohort : CohIx
  layer : BitVec 8
  place : SramWhere
deriving DecidableEq, Repr, Inhabited

/-- A row of a token message (R28, R241). -/
structure TokenRow where
  row : Fin 32
  token : BitVec 18
  position : BitVec 28
  kind : BitVec 2
  parent : BitVec 5
deriving DecidableEq, Repr, Inhabited

/-- A cohort record as it reaches a member: its 576 bytes and the leader's decisions on the prefix tree (R28, R181). -/
structure CohortMessage where
  words : BitVec 4608
  ops : List TreeOp := []
deriving DecidableEq, Repr, Inhabited

/-- What the token messages of home packages bring: rows of the next step, and accepted tokens (R28, R32, R241, R247). -/
structure TokenRows where
  filled : List TokenRow := []
  accepted : List Accepted := []
deriving DecidableEq, Repr, Inhabited

/-- What the other packages of the slice tell by a step boundary: their reports on sequences homed here, and what home packages have
done with theirs (R174, R175, R191, R192). -/
structure BoundaryNews where
  reports : List (Key × PeerReport) := []
  news : List (Key × Notice) := []
deriving DecidableEq, Repr, Inhabited

/-- The commands: one constructor per row of spec/opcode_table.json. -/
inductive Instr where
  -- requests (R23, R349, R350)
  | admitSeq (e : Sub) (model : BitVec 16) (traffic : BitVec 2) (emitSet : SetIx) (policy : Bytes)
      (bias : List (BitVec 64)) (abias : List (BitVec 128)) (peersOk : Bool)
  | ingest (e : Sub) (handle : BitVec 32) (fin : Bool) (tokens : List (BitVec 32))
  | importKv (e : Sub) (handle : BitVec 32) (positions : BitVec 25) (bufs : List (BitVec 128)) (peersOk : Bool)
  | importComplete (handle : Key) (readOk : Bool) (data : List Bytes)
  | extend (e : Sub) (handle : BitVec 32) (tokens : List (BitVec 32)) (swap : List (BitVec 128)) (peersOk : Bool)
  | setPolicy (e : Sub) (handle : BitVec 32) (keep : Bool) (policy : Bytes) (bias : List (BitVec 64))
      (abias : List (BitVec 128))
  | preempt (e : Sub) (handle : BitVec 32) (swap : List (BitVec 128))
  | resume (e : Sub) (handle : BitVec 32) (swap : List (BitVec 128)) (peersOk : Bool)
  | cancel (e : Sub) (handle : BitVec 32)
  | release (e : Sub) (handle : BitVec 32)
  -- admin commands (R349)
  | modelInstall (e : Sub) (model : BitVec 16) (imageLen : BitVec 64) (readOk : Bool) (img : Image) (key : BitVec 512)
  | installCommit (model : SlotIx)
  | modelLoad (e : Sub) (model : BitVec 16) (sliceId : BitVec 16) (key : BitVec 256)
  | loadComplete (model : SlotIx) (lost : Option Nat)
  | modelUnload (e : Sub) (model : BitVec 16)
  | modelErase (e : Sub) (model : BitVec 16)
  | tenantCreate (e : Sub) (fn : Fn) (pfx : BitVec 2) (classMap : BitVec 4) (relayEn loupeAllow : Bool)
      (swapKey prefixKey : BitVec 256)
  | tenantDestroy (e : Sub) (fn : Fn)
  | keyInstall (e : Sub) (fn : Fn) (kind : Bool) (wrapped : Bytes)
  | pagePoolSet (e : Sub) (model : BitVec 16) (fn : Fn) (setPool : Bool) (frames lowWater limit : BitVec 24)
      (maxSeq : BitVec 20)
  | configStage (e : Sub) (loupeMode : BitVec 2)
  | configCommit (e : Sub) (digest : BitVec 64)
  | configConfirm (e : Sub)
  | configRevert (e : Sub)
  | fwStage (e : Sub) (readOk : Bool) (img : Bytes)
  | fwActivate (e : Sub) (accepted : Bool)
  | sliceDefine (e : Sub) (sliceId : BitVec 16) (fn : Fn) (members : BitVec 8) (ringLen : BitVec 5)
      (relaySpan : BitVec 16) (listAddr : BitVec 64) (list : Bytes)
  | sliceRemove (e : Sub) (sliceId : BitVec 16) (fn : Fn)
  | sliceAgreementTimeout (sliceId : BitVec 16)
  | routeLoad (e : Sub) (rackId slotMask : BitVec 8) (boardMask : BitVec 16) (uplink : Bool) (reserved : BitVec 31)
      (table : Bytes)
  | funcReset (e : Sub) (fn : Fn)
  | loupeRead (e : Sub) (body : BitVec 384)
  | loupeSetFill (e : Sub) (word : BitVec 16) (value : BitVec 48)
  | loupeSetClear (e : Sub) (word : BitVec 16)
  | loupeSetPoison (e : Sub) (word : BitVec 16)
  | loupeSetScratch (e : Sub) (tile : TileIx) (offset : BitVec 28) (data : Bytes)
  -- rings, doorbells, registers
  | doorbellWrite (fn : Fn) (offset : BitVec 12) (bytes : Nat) (value : BitVec 32)
  | takeEntry (fn : Fn) (set : SetIx) (admin : Bool) (f : Fetch)
  | sealLockExpiry (fn : Fn)
  | irqCoalesceTimer (fn : Fn) (set : SetIx) (ring : RingIx)
  | ringEnable (fn : Fn) (set : SetIx) (ring : RingIx) (value : BitVec 64)
  | ringDisable (fn : Fn) (set : SetIx) (ring : RingIx) (value : BitVec 64)
  | registerWrite (viewer : Fn) (offset : BitVec 26) (bytes : Nat) (value : BitVec 64)
  | clearingRead (viewer : Fn) (offset : BitVec 26) (bytes : Nat)
  | kvLayerSelect (tile : TileIx) (value : BitVec 32)
  | localTimeRead (viewer : Fn) (bytes : Nat) (high : Bool)
  | errLogRead (n : Fin 64) (high : Bool)
  | pldmCapSet (watts : BitVec 12)
  -- PCIe events
  | bmeClear (fn : Fn)
  | bmeSet (fn : Fn)
  | flr (fn : Fn)
  | vfEnableClear
  | disableTimeout (fn : Fn)
  | dlDown
  | dlUp
  | perstN
  | resetN
  | aon (slotId : BitVec 3) (boardId : BitVec 4)
  | secureBoot (secretBlank : Bool) (keys : List (BitVec 256))
  | dramTrain (failPc : Option (BitVec 11)) (uncorrectable : Bool) (chans : Vector (BitVec 2) 32)
      (targets : Vector (BitVec 4) 32) (catalogueOk : Bool)
  | linkTrain (reports : Vector PortReport 12)
  | linkTrainTimeout
  | ready
  -- Malny
  | portTrain (p : PortIx) (r : PortReport)
  | discoveryRecord (p : PortIx) (d : Discovery)
  | portRetryTimer (reports : Vector PortReport 12)
  | portRetrain (p : PortIx) (r : PortReport)
  | portDown (p : PortIx)
  | malnyFrame (p : PortIx) (f : Frame)
  | linkIdleTimer (p : PortIx)
  | transitSend (p : PortIx) (elapsed : BitVec 32)
  | narrowMessage (k : Packet)
  | wideMessage (k : Packet)
  | rawMessage (k : Packet)
  | carriedFill (p : PortIx) (k : Packet)
  | heldFillApply (idx : Nat)
  | cohortRecord (rec : CohortMessage)
  | tokenMessage (model : SlotIx) (cohort : CohIx) (rows : TokenRows)
  | cut (sliceId : BitVec 16) (fromMember : BitVec 8)
  | leaving (p : PortIx) (address : BitVec 16) (msg : BitVec 32)
  | slicePacket (sliceId : BitVec 16) (member : BitVec 8) (digest : BitVec 512) (checksOk : Bool)
  | relayPull (model : SlotIx) (layer : BitVec 8)
  | relayBlock (tile : TileIx) (header : BitVec 512) (data : Bytes)
  | spillDone (handle : Key) (span : Nat) (ev : SpillEvent)
  -- step scheduling and pages
  | stepBoundary (model : SlotIx) (cohort : CohIx) (peers : BoundaryNews)
  | cowCopy (handle : Key) (page : Nat)
  | lensSummary (handle : Key) (page : Nat)
  -- descriptors (R30)
  | arrayMatmul (c : DCtx) (d : BitVec 512)
  | rescaleBlockWrite (tile : TileIx) (stream : Fin 8192)
  | vectorRun (c : DCtx) (d : BitVec 512)
  | prismAttend (c : DCtx) (d : BitVec 512)
  | prismPartial (c : DCtx) (d : BitVec 512)
  | prismMerge (c : DCtx) (d : BitVec 512)
  | fetchStream (c : DCtx) (d : BitVec 512)
  | fetchStage (c : DCtx) (d : BitVec 512)
  | exchangeNarrow (c : DCtx) (d : BitVec 512)
  | exchangeWide (c : DCtx) (d : BitVec 512)
  | exchangeRaw (c : DCtx) (d : BitVec 512)
  | appendKv (c : DCtx) (d : BitVec 512)
  | loopEmbed (c : DCtx) (d : BitVec 512) (loc : EmbedLoc)
  | loopCandidates (c : DCtx) (d : BitVec 512)
  | loopSample (c : DCtx) (d : BitVec 512) (peers : List PeerCand)
  | loopAccept (c : DCtx) (d : BitVec 512)
  | loopStopEmit (c : DCtx) (d : BitVec 512)
  | loopStepEnd (c : DCtx) (d : BitVec 512)
  -- sync words
  | syncFill (word : BitVec 16) (v : BitVec 48)
  | syncTake (word : BitVec 16) (unit : BitVec 3) (engine : BitVec 3)
  | syncPeek (word : BitVec 16) (unit : BitVec 3) (engine : BitVec 3)
  | syncClear (word : BitVec 16)
  | syncPoison (word : BitVec 16)
  | doneFillRetry (idx : Nat)
  | watchRetry (idx : Nat)
  | hangWatch (idx : Nat) (kind : BitVec 3) (waited : BitVec 64)
  -- tiers, flash, DRAM
  | windowFill (model : SlotIx)
  | windowTimeout (model : SlotIx) (cohort : CohIx)
  | flashUnitRead (model : SlotIx) (sec unit : Nat) (fast slow : Bool) (mirrorOk : Bool)
  | readRetry (model : SlotIx) (sec unit : Nat) (ok : Bool)
  | readDisturbScan (block : Nat) (worst : Nat) (threshold : Nat)
  | blockRefresh (block target : Nat) (ok : Bool)
  | staticWearMove (target : Nat) (src dst : Nat)
  | blockErase (block : Nat) (ok : Bool)
  | scrubRead (stack : Fin 8) (errs : Nat) (data : DramData) (passDone : Bool)
  | tileReread (model : SlotIx) (sec unit : Nat) (found : Option (CohIx × BitVec 32 × Fin 8)) (ok : Bool)
  | swapFlushDone (handle : Key) (ok : Bool)
  | swapRecordRead (handle : Key) (readOk : Bool) (record : Bytes)
  -- faults, power, clocks
  | sramUncorrectable (r : SramRead)
  | packageFatal (cls : BitVec 8)
  | watchdogExpiry
  | powerInterval (estimate : BitVec 12) (throttleInN : Bool)
  | thermalInterval (temps : Vector (BitVec 16) 13)
  | thermalTrip (temps : Vector (BitVec 16) 13)
  | tripRestart (temps : Vector (BitVec 16) 13)
  | pllOffTimer
  | engineGate (tile : TileIx) (engine : BitVec 3)
  | powerLoss
  | railFault (rail : Fin 10)
  | aonRefclkLoss
  | mrefclkLoss
  | refclkLoss
  -- sideband, attestation, test port
  | i3cAddressAssign (addr : BitVec 7)
  | getVersion (t : Transport)
  | getCapabilities (t : Transport)
  | negotiateAlgorithms (t : Transport) (supported : Bool)
  | getDigests (t : Transport)
  | getCertificate (t : Transport) (slot : BitVec 3) (offset length : BitVec 16)
  | challenge (t : Transport) (slot : BitVec 3) (nonce : BitVec 256)
  | getMeasurements (t : Transport) (index : BitVec 8)
  | keyExchange (t : Transport) (reqId : BitVec 16)
  | finish (session : BitVec 32) (macOk : Bool)
  | heartbeat (session : BitVec 32)
  | keyUpdate (session : BitVec 32)
  | endSession (session : BitVec 32)
  | ideKm (session : BitVec 32) (stream : BitVec 8) (key : BitVec 256)
  | jtagBypass (tdi : BitVec 1)
  | jtagIdcode
  | jtagSamplePreload (pins update : BitVec 1024)
  | jtagExtest (pins update : BitVec 1024)
  -- vector instructions (R144)
  | vEnd (t : TileIx) (f : VF)
  | vLd (t : TileIx) (f : VF)
  | vSt (t : TileIx) (f : VF)
  | vAdd (t : TileIx) (f : VF)
  | vSub (t : TileIx) (f : VF)
  | vMul (t : TileIx) (f : VF)
  | vFma (t : TileIx) (f : VF)
  | vMin (t : TileIx) (f : VF)
  | vMax (t : TileIx) (f : VF)
  | vAbs (t : TileIx) (f : VF)
  | vNeg (t : TileIx) (f : VF)
  | vDiv (t : TileIx) (f : VF)
  | vSqrt (t : TileIx) (f : VF)
  | vRsq (t : TileIx) (f : VF)
  | vExp (t : TileIx) (f : VF)
  | vLog (t : TileIx) (f : VF)
  | vSig (t : TileIx) (f : VF)
  | vCmplt (t : TileIx) (f : VF)
  | vCmple (t : TileIx) (f : VF)
  | vCmpeq (t : TileIx) (f : VF)
  | vSel (t : TileIx) (f : VF)
  | vAnd (t : TileIx) (f : VF)
  | vOr (t : TileIx) (f : VF)
  | vXor (t : TileIx) (f : VF)
  | vShl (t : TileIx) (f : VF)
  | vShr (t : TileIx) (f : VF)
  | vShra (t : TileIx) (f : VF)
  | vCvti (t : TileIx) (f : VF)
  | vCvtf (t : TileIx) (f : VF)
  | vRbf (t : TileIx) (f : VF)
  | vQparam (t : TileIx) (f : VF)
  | vQcode (t : TileIx) (f : VF)
  | vQdeq (t : TileIx) (f : VF)
  | vLaneid (t : TileIx) (f : VF)
  | vShfx (t : TileIx) (f : VF)
  | vShup (t : TileIx) (f : VF)
  | vPerm (t : TileIx) (f : VF)
  | vBcast (t : TileIx) (f : VF)
  | vPad (t : TileIx) (f : VF)
  | vMovc (t : TileIx) (f : VF)
  | vCpush (t : TileIx) (f : VF)
  | vCmpr (t : TileIx) (f : VF)
  | vExpd (t : TileIx) (f : VF)
  | vCpop (t : TileIx) (f : VF)
  | vSetvl (t : TileIx) (f : VF)
  | vPcnt (t : TileIx) (f : VF)
  | vPand (t : TileIx) (f : VF)
  | vPor (t : TileIx) (f : VF)
  | vPandn (t : TileIx) (f : VF)
  | vPflag (t : TileIx) (f : VF)
  -- pins and clocks that return
  | perstNHigh
  | vfEnableSet (numVfs : Fn)
  | programPageDone (block : Nat) (ok : Bool) (spare : Nat)
  | mrefclkReturn (reports : Vector PortReport 12)
  | trstN
deriving DecidableEq, Repr

end Sys2Proof
end

