-- ==== Sys2Proof/Machine/State.lean ====
section
/-!
DEFINITION. Sys2Proof/Machine/State.lean: the state of one BX8 package as plain data, its value after reset, and the
reasons a command can stop. Every field's docstring names the rule of spec/ and the file that gives it; the bracket at
its end says where its reset value comes from: [spec] the spec states it, [DC n] a design choice of log entry n,
[P n] presumed by log entry n, [model] a field of the model's own that log entry n of the bracket explains.
Large stores are sparse lists of (index, value), strictly rising, with no entry equal to the value an unlisted index has.
-/
namespace Sys2Proof.Machine

/-- Why a command stops with a fault. No command of the BX8 faults: every error the spec names is an effect on State. -/
inductive Fault where
  /-- Raised by no meaning; safe, because a machine that never stops here allows nothing more than the spec. -/
  | none
deriving DecidableEq, Repr, Inhabited

/-- Why a command is refused. -/
inductive Refusal where
  /-- A row of the opcode table that has no meaning yet; safe: nothing is claimed of it. -/
  | notModelled (mnemonic : String)
  /-- Raised by a vector instruction whose fields hold an encoding that R141 to R144 call reserved or undefined, which
  MODEL_INSTALL refuses, so that it never reaches the engine; safe. -/
  | illFormed
deriving DecidableEq, Repr, Inhabited

/-- A sparse store: (index, value) pairs, strictly rising. -/
abbrev Sparse (α : Type) := List (Nat × α)

/-! ## Rings and functions (15_host_rings.md) -/

/-- One ring: RING_BASE, RING_CTL and the doorbell. -/
structure Ring where
  /-- R430, 19: ADDR of RING_BASE, bits [63:12] of entry 0's host address, 52 bits. [spec] -/
  base : BitVec 52 := 0
  /-- R342, 15: INDEX, next entry to take or write, 16 bits. [spec] -/
  index : BitVec 16 := 0
  /-- R342, 15: COAL_US, 8 bits. [spec] -/
  coalUs : BitVec 8 := 0
  /-- R342, 15: COAL_COUNT, 8 bits. [spec] -/
  coalCount : BitVec 8 := 1
  /-- R342, 15: VECTOR, 6 bits. [spec] -/
  vector : BitVec 6 := 0
  /-- R342, 15: IRQ_EN, 1 bit. [spec] -/
  irqEn : Bool := false
  /-- R342, 15: LOG2_SIZE, 5 bits. [spec] -/
  log2 : BitVec 5 := 0
  /-- R342, R346, 15: FAULT, 1 bit. [spec] -/
  fault : Bool := false
  /-- R342, 15: ENABLE, 1 bit. [spec] -/
  enable : Bool := false
  /-- R346, 15: the ring takes nothing more until ENABLE is cleared and set again. [spec] -/
  halted : Bool := false
  /-- R343, R344, 15: the doorbell value (tail of a host-to-device ring, head of a device-to-host ring), 16 bits. [spec] -/
  doorbell : BitVec 16 := 0
  /-- R344, 15: PHASE the next record carries, 1 bit. [spec] -/
  phase : Bool := true
  /-- R345, R43, 15 and 02: slots reserved for records that are owed, a count. [spec] -/
  reserved : Nat := 0
  /-- R357, 15: records written and not yet signalled, a count. [spec] -/
  unsignalled : Nat := 0
  /-- R360, 15: events dropped on this ring since its last record, a count. [spec] -/
  lost : Nat := 0
deriving DecidableEq, Repr, Inhabited

/-- An entry that was taken and whose completion is not yet written (R345, R354). -/
structure OpenReq where
  sub : Sub
  admin : Bool
  opcode : BitVec 8
  handle : BitVec 32
deriving DecidableEq, Repr, Inhabited

/-- One function's registers and requests. -/
structure Func where
  /-- R341, R430, 15: the rings of the four sets, 4 × 5. [spec] -/
  rings : Vector (Vector Ring 5) 4 := Vector.replicate 4 (Vector.replicate 5 {})
  /-- R361, 15: ENABLED of FN_STATE, 1 bit. [spec] -/
  enabled : Bool := false
  /-- R361, R362, 15: DISABLING of FN_STATE, 1 bit. [spec] -/
  disabling : Bool := false
  /-- R361, 15: FN_STAT (DB_ERR, EVENTS_LOST, EMIT_STALLS), 64 bits. [spec] -/
  stat : BitVec 64 := 0
  /-- R377, 16: FAILS of FN_SEAL_STAT, 32 bits. [spec] -/
  sealFails : BitVec 32 := 0
  /-- R374, 16: failed seals of the running second, their times in the local time counter. [spec] -/
  failTimes : List (BitVec 64) := []
  /-- R374, R377, 16: LOCKED, 1 bit. [spec] -/
  locked : Bool := false
  /-- R347, 15: Bus Master Enable of configuration space, 1 bit. [P 1] -/
  bme : Bool := false
  /-- R362, 15: Memory Space Enable of configuration space, 1 bit. [P 1] -/
  mse : Bool := false
  /-- R338, R362, 15: the function exists (function 0 always; a VF while VF Enable is set), 1 bit. [P 1] -/
  present : Bool := false
  /-- R345, R354, 15: entries taken and not yet completed, oldest first. [spec] -/
  openReqs : List OpenReq := []
  /-- R362, R379, 15: the FUNC_RESET and TENANT_DESTROY commands that wait for the disabling to end. [spec] -/
  destroying : List OpenReq := []
  /-- R362, 15: the disable was an FLR (ENABLED is set when it ends) and not FUNC_RESET. [spec] -/
  flrActive : Bool := false
deriving DecidableEq, Repr, Inhabited

/-- A record or access the package issues towards the host, in posted order (R42, R354, R357, R358, R189, R391, R410). -/
inductive HostOut where
  | completion (fn : Fn) (set : SetIx) (slot : BitVec 16) (rec : BitVec 512)
  | emission (fn : Fn) (set : SetIx) (slot : BitVec 16) (rec : BitVec 128)
  | event (fn : Fn) (set : SetIx) (slot : BitVec 16) (rec : BitVec 512)
  | msix (fn : Fn) (vector : BitVec 6)
  | bytes (fn : Fn) (addr : BitVec 64) (data : Bytes)
  | flushRead (fn : Fn) (addr : BitVec 64)
  | aerInternal
deriving DecidableEq, Repr

/-- A record held while Bus Master Enable is clear, or while its ring has no room (R347). -/
inductive Held where
  | completion (fn : Fn) (set : SetIx) (rec : BitVec 512)
  | emission (fn : Fn) (set : SetIx) (rec : BitVec 128)
deriving DecidableEq, Repr

/-! ## Tiles (chapters 4 to 9) -/

/-- The context of the VECTOR or LOOP descriptor a tile's vector engine runs (R136, R139, R140). -/
structure VecCtx where
  model : Option SlotIx := none
  cohort : CohIx := 0
  step : BitVec 64 := 0
  layer : BitVec 8 := 0
  /-- c5: effective ROW_MASK. -/
  rowMask : BitVec 32 := 0
  prog : BitVec 10 := 0
  /-- c9: VL of the descriptor. -/
  vl : VLen := 0
  ipr : Nat := 0
  iter : Nat := 0
  /-- c3: current iteration. -/
  cur : Nat := 0
  rowStride : Nat := 0
  base : Vector Nat 4 := Vector.replicate 4 0
  stride : Vector Nat 4 := Vector.replicate 4 0
  isLoop : Bool := false
  /-- slot of the instruction being run, for R152. -/
  slot : Nat := 0
  /-- a malformed block of the descriptor has written its event (R123). -/
  malformed : Bool := false
deriving DecidableEq, Repr, Inhabited

/-- The vector engine of a tile (R134). -/
structure Vec where
  /-- R134, 07: v0 to v55, lane L of register r at index 1024 r + L, 32 bits each; unlisted 0. [DC 2] -/
  v : Sparse (BitVec 32) := []
  /-- R134, R156, 07: v56 to v63 (r = 56 to 63; [DC 2]) and t0 to t15 (r = 64 to 79; [spec]), the same; unlisted 0, or
  after a LOOP descriptor, which leaves them open, the free value of its draw. -/
  hi : Sparse (Option (BitVec 32)) := []
  /-- R156, 07: the draw of the LOOP descriptor whose values v56 to v63 hold. [model 35] -/
  hiMark : Option Nat := none
  /-- R156, 07: the same for t0 to t15. [model 35] -/
  tMark : Option Nat := none
  /-- R134, 07: p1 to p7 (p0 is computed), 1,024 bits each. [spec] -/
  p : Vector (BitVec 1024) 8 := Vector.replicate 8 0
  /-- R134, 07: VL, 0 to 1,024. [DC 2] -/
  vl : VLen := 0
  /-- R134, R154, 07: the compress stack, top first: a 1,024-bit mask and a saved VL. [spec] -/
  stack : List (BitVec 1024 × VLen) := []
  /-- R134, R150, 07: lane flags, 5 bits per lane; unlisted 0. [spec] -/
  flags : Sparse (BitVec 5) := []
  /-- R134, R137, 07: c16 to c63 at index 16 to 63, 64 bits each; unlisted 0. [DC 2] -/
  c : Sparse (BitVec 64) := []
  /-- R134, R138, 07: the operand cache, 2 MiB; unlisted 0. [DC 2] -/
  opc : List Host.Cell := []
  /-- R152, 07: first flagged place of the running descriptor: iteration, instruction slot, lane. [spec] -/
  first : Option (Nat × Nat × Nat) := none
  /-- R136, R139, 07: the running descriptor's context. [model 3] -/
  ctx : VecCtx := {}
deriving DecidableEq, Repr, Inhabited

/-- A bound fetch stream context (R275, R276). -/
structure Stream where
  id : Nat
  model : SlotIx
  sec : Nat
  /-- first byte of the range in the section. -/
  start : Nat
  /-- length in bytes. -/
  len : Nat
  staged : Nat
  spAddr : Nat
  rsLoad : Bool
  /-- 0 a range, 1 an empty range, 2 a range outside its section. -/
  kind : Nat
  layer : BitVec 8
  /-- the rescale block is still to be written (R98): its first entry and its length. -/
  rsPending : Bool
  rsIndex : Nat
  rsCount : Nat
  /-- the cohort that bound it, and the place of its consumer among the list's ARRAY descriptors (R98). -/
  cohort : CohIx := 0
  place : Nat := 0
deriving DecidableEq, Repr, Inhabited

/-- One compute tile. -/
structure Tile where
  /-- R9, 01: scratchpad, 192 MiB of bytes; unlisted 0. [DC 2] -/
  scratch : List Host.Cell := []
  /-- R75, R82, 04: accumulator memory; word of ACC a, column c, row r at (4096 a + c) 32 + r, 128 bits; unlisted empty. [DC 2] -/
  acc : Sparse (BitVec 128) := []
  /-- R94, 05: rescale registers, 65,536 of 32 bits; unlisted 0. [DC 2] -/
  rs : Sparse (BitVec 32) := []
  /-- R134, 07: the vector engine. [spec] -/
  vec : Vec := {}
  /-- R9, R276, 01 and 12: bound fetch stream contexts, of 8,192. [spec] -/
  streams : List Stream := []
  /-- R72, R84, 04: the open chunks an EPI NONE operation leaves for its CHAIN, at the index of their total: H and c. [spec] -/
  chunks : Sparse (Option (Int × Int)) := []
  /-- R84, 04: beats of the open chunk already taken by the chained operations. [spec] -/
  chunkBeats : Nat := 0
  /-- R80, R84, 04: the operation that left the open chunks: its model, layer and ACC tile, and whether it has renormalised. [spec] -/
  chunkOp : Option (SlotIx × Nat × Nat × Bool) := none
  /-- R298, R85, 13: engines clock-gated on the tile (R398), one bit each. [DC 2] -/
  gated : BitVec 8 := 0
  /-- R31, 02: the descriptor at the front of each engine that has reached it and has not completed: the model, cohort and step
  it runs in, and the descriptor. [spec] -/
  front : Vector (Option (SlotIx × CohIx × BitVec 64 × BitVec 512)) 8 := Vector.replicate 8 none
  /-- R232, R233, 10: Relay blocks received and not yet accumulated: header and data. [spec] -/
  relay : List (BitVec 512 × Bytes) := []
  /-- R151, 07: TILE_STICKY, 64 bits. [spec] -/
  sticky : BitVec 64 := 0
  /-- R152, 07: TILE_VEC_FIRST, 64 bits. [spec] -/
  vecFirst : BitVec 64 := 0
  /-- R408, 18: TILE_SRAM_ECC, 64 bits. [spec] -/
  sramEcc : BitVec 64 := 0
  /-- R429, 19: ARRAY_LONGSUM, 64 bits. [DC 2] -/
  longsum : BitVec 64 := 0
  /-- R112, 05: TILE_EXCH_ERR, 64 bits. [spec] -/
  exchErr : BitVec 64 := 0
  /-- R112, 05: TILE_EXCH_GROUPS, 64 bits. [spec] -/
  exchGroups : BitVec 64 := 0
  /-- R112, 05: TILE_EXCH_VERDICTS, 64 bits. [spec] -/
  exchVerdicts : BitVec 64 := 0
  /-- R112, 05: TILE_KV_ERR, 64 bits. [spec] -/
  kvErr : BitVec 64 := 0
  /-- R112, 05: TILE_KV_GROUPS, 64 bits. [spec] -/
  kvGroups : BitVec 64 := 0
  /-- R112, 05: TILE_KV_LAYER_SEL, 32 bits. [spec] -/
  kvLayerSel : BitVec 32 := 0x100
  /-- R113, 05: a selection written and not yet in effect, and the cohorts whose step boundary it still waits for. [spec] -/
  kvLayerNext : Option (BitVec 32 × List (SlotIx × CohIx)) := none
  /-- R155, 07: TILE_VQ_ERR, 64 bits. [spec] -/
  vqErr : BitVec 64 := 0
  /-- R131, 06: TILE_PLORYN_DEC, 64 bits. [spec] -/
  plorynDec : BitVec 64 := 0
  /-- R131, 06: TILE_COLL_STALL, 64 bits. [spec] -/
  collStall : BitVec 64 := 0
  /-- R131, 06: TILE_PLORYN_ENC, 64 bits. [spec] -/
  plorynEnc : BitVec 64 := 0
  /-- R131, 06: TILE_PLORYN_BAD, 64 bits. [spec] -/
  plorynBad : BitVec 64 := 0
  /-- R219, 09: TILE_PRISM_PAGES, 64 bits. [spec] -/
  prismPages : BitVec 64 := 0
  /-- R219, 09: TILE_PRISM_CYCLES, 64 bits. [spec] -/
  prismCycles : BitVec 64 := 0
  /-- R219, 09: TILE_PRISM_ROWS, 64 bits. [spec] -/
  prismRows : BitVec 64 := 0
  /-- R227, 10: TILE_LENS_STAT, 64 bits. [spec] -/
  lensStat : BitVec 64 := 0
  /-- R257, 12: DRAM_ECC_STAT of the tile's two stacks, 64 bits each. [spec] -/
  eccStat : Vector (BitVec 64) 2 := Vector.replicate 2 0
  /-- R257, 12: corrections of each stack in the running clock hour, and whether ECC_RATE was written in it. [spec] -/
  eccHour : Vector (BitVec 64 × Nat × Bool) 2 := Vector.replicate 2 (0, 0, false)
deriving DecidableEq, Repr, Inhabited

/-! ## Pools, the Lens and the prefix tree (chapters 8 and 10) -/

/-- A Lens summary (R220). -/
structure Summary where
  frame : Nat
  layer : Nat
  group : Nat
  centroid : List (BitVec 16)
  radius : BitVec 32
  special : Bool
deriving DecidableEq, Repr, Inhabited

/-- A loaded model's page pool on this package (R168). -/
structure Pool where
  /-- R168, 08: frames in the pool, 24 bits. [spec] -/
  frames : Nat := 0
  /-- R168, R177, 08: LOW_WATER, 24 bits. [spec] -/
  lowWater : Nat := 0
  /-- R168, 08: MAX_SEQ, 20 bits. [spec] -/
  maxSeq : Nat := 0
  /-- R168, R169, 08: LIMIT of each function, 24 bits each. [spec] -/
  limit : Vector Nat 16 := Vector.replicate 16 0
  /-- R160, R168, 08: the first index of each tile that has named no frame of the pool yet. [model] -/
  top : Nat := 0
  /-- R160, R168, 08: frame numbers that a shrink gave back, ascending; a growth takes them first. [model] -/
  gone : List Nat := []
  /-- R170, 08: the free pool's frame numbers, ascending. [spec] -/
  free : List Nat := []
  /-- R173, 08: the guard's frame numbers. [spec] -/
  guard : List Nat := []
  /-- R175, R182, 08: frames freed from a reference since the last boundary. [spec] -/
  freed : List Nat := []
  /-- R181, 08: nodes of the prefix tree. [spec] -/
  nodes : List Node := []
  /-- R181, 08: next node slot, a count. [spec] -/
  nextNode : Nat := 0
  /-- R159, 08: frame contents; byte b of frame f at 2^40 f + b; unlisted 0. [spec] -/
  data : List Host.Cell := []
  /-- R220, 10: written summary slots. [spec] -/
  summaries : List Summary := []
  /-- R256, 12: frames marked by the scrubber as uncorrectable. [spec] -/
  marked : List Nat := []
  /-- R177, 08: a PAGE_LOW was written and FREE + CACHED has not yet risen to LOW_WATER + 64. [spec] -/
  lowSent : Bool := false
  /-- R178, 08: PAGE_POOL_EVENTS, 64 bits. [spec] -/
  events : BitVec 64 := 0
deriving DecidableEq, Repr, Inhabited

/-! ## Models (chapter 12) -/

/-- A drift monitor's state (R104, R105, R109). -/
structure Monitor where
  w : Nat := 0
  base : BitVec 32 := 0
  warm : Bool := false
  /-- running sum of the passing steps' means while the monitor warms up, and their number. -/
  sum : BitVec 32 := 0
  passes : Nat := 0
  reruns : BitVec 32 := 0
  /-- R106: for each cohort, the step of it that was judged last, and the verdict. -/
  last : List (CohIx × BitVec 64 × Bool) := []
  /-- R109: steps this monitor has judged since its last DRIFT_WIDE_RERUN event; none before the first. -/
  quiet : Option Nat := none
deriving DecidableEq, Repr, Inhabited

/-- What MODEL_LOAD carves and keeps (R272). -/
structure Load where
  sliceId : BitVec 16
  /-- the function that owns the slice: the tenant of the model's words (R286). -/
  owner : Fn
  /-- LOADED: every RESIDENT section and the first window slots are in place. -/
  done : Bool
  sub : Sub
  spBase : Vector Nat 4
  rsBase : Vector Nat 4
  opcBase : Vector Nat 4
  progBase : Vector Nat 4
  syncBase : Vector Nat 5
  prefixKey : BitVec 256
  monitors : List Monitor
  /-- window slots: the layer each holds once filled (R278). -/
  window : List (Option Nat)
  /-- position in the list of windowed layers of the layer the filler fills next. -/
  nextFill : Nat
  /-- stalls since the last WINDOW_LATE event, and the time of that event. -/
  lateCount : Nat
  lateTime : Option (BitVec 64)
  /-- LOCAL_COST and REMOTE_COST in quarter cycles at index 4 cohort + tile (R216). -/
  costs : Sparse (Nat × Nat)
  /-- the MODEL owner is lost (R307). -/
  lost : Bool
deriving DecidableEq, Repr

/-- STATE of MODEL_STATE (R252). -/
inductive MState where
  | empty
  | incomplete
  | installed
  | loading
  | loaded
  | erasing
deriving DecidableEq, Repr, Inhabited

/-- One model slot. -/
structure Model where
  /-- R252, R269, 12: STATE. [spec] -/
  state : MState := .empty
  /-- R252, R281, 12: DEGRADED, 1 bit. [spec] -/
  degraded : Bool := false
  /-- R269, 12: the MODEL_INSTALL that claims the slot. [spec] -/
  claim : Option Sub := none
  /-- R268, 12: the image in flash. [spec] -/
  image : Option Image := none
  /-- R268, 12: this package's part of the image. [DC 10] -/
  part : Nat := 0
  /-- R270, R364, 16: the slot's AES-256-XTS key, 512 bits, destroyed by MODEL_ERASE. [spec] -/
  flashKey : Option (BitVec 512) := none
  /-- R266, R274, 12: the slot has a catalogue entry. [spec] -/
  catalogued : Bool := false
  /-- R272, 12: what the load carved. [spec] -/
  load : Option Load := none
  /-- R168, 08: the model's pool. [spec] -/
  pool : Pool := {}
  /-- R282, 12: WINDOW_TIMEOUT of APERTURE_CTL, 14 bits. [spec] -/
  windowTimeout : BitVec 14 := 250
  /-- R282, 12: APERTURE_STAT, 64 bits. [spec] -/
  apertureStat : BitVec 64 := 0
  /-- R281, 12: quarantined units: section and unit. [spec] -/
  quarantine : List (Nat × Nat) := []
  /-- R281, 12: units lost for good. [spec] -/
  lostUnits : List (Nat × Nat) := []
deriving DecidableEq, Repr, Inhabited

/-! ## Sequences and cohorts (chapters 2, 8, 10, 11) -/

/-- A sequence's state (R22); FREE is the absence of a record. -/
inductive SeqState where
  | admitted
  | ingesting
  | running
  | parkedPages
  | preempting
  | swapped
  | resuming
  | ending
  | ended
deriving DecidableEq, Repr, Inhabited

/-- A guard entitlement on this package (R173 to R176). -/
inductive Ent where
  | none
  | intact
  | consumed
deriving DecidableEq, Repr, Inhabited

/-- An accepted INGEST or EXTEND chunk: its tokens not yet given rows, and the positions still unwritten (R26, R350). -/
structure Chunk where
  sub : Sub
  opcode : BitVec 8
  fin : Bool
  tokens : List (BitVec 18)
  /-- the chunk's last position. -/
  last : Nat
deriving DecidableEq, Repr, Inhabited

/-- The generating request (R24). -/
structure Gen where
  sub : Sub
  opcode : BitVec 8
deriving DecidableEq, Repr, Inhabited

/-- A policy with its bias list and attention bias list (R35, R205, R445). -/
structure Policy where
  block : Bytes := []
  bias : List (BitVec 64) := []
  abias : List (BitVec 128) := []
deriving DecidableEq, Repr, Inhabited

/-- A swap in progress (R188 to R195): the command, the buffers, the next page and the counter of record 0. -/
structure Swap where
  sub : Sub
  opcode : BitVec 8
  buf : BitVec 64
  next : Nat
  /-- pages to be read back, each with the frame taken for it. -/
  frames : List (Nat × Nat)
  /-- CANCELs that stop the swap at the next record boundary (R194). -/
  stop : List Sub
  /-- R193: the page list as it stood before the read-back. -/
  old : List (BitVec 32)
  /-- R191, R192: this package has done its part, and waits for the others. -/
  mine : Bool
  /-- R193, R194: this package's part of a sequence homed elsewhere failed with this status. -/
  failed : Option (BitVec 8)
deriving DecidableEq, Repr, Inhabited

/-- An import in progress (R350). -/
structure Import where
  sub : Sub
  first : Nat
  positions : Nat
  frames : List Nat
deriving DecidableEq, Repr, Inhabited

/-- The outcome of a pass for one sequence, between ACCEPT and the step boundary (R243 to R247). -/
structure Pass where
  /-- the root's position P. -/
  root : Nat
  /-- draft slots (1 to m) of the accepted nodes, by ascending depth. -/
  path : List Nat
  /-- tokens in position order with the row whose distribution produced each. -/
  tokens : List (BitVec 18 × Fin 32)
  /-- nodes that ran. -/
  nodes : Nat
deriving DecidableEq, Repr, Inhabited

/-- A sequence (R21, R22). -/
structure Seq where
  /-- R21, 02: the handle, 32 bits, and for a sequence homed on another package the member that qualifies it. -/
  handle : Key
  model : SlotIx
  /-- R22, 02: the state. -/
  state : SeqState
  /-- R175, 08: the state PARKED_PAGES was entered from. -/
  parkedFrom : SeqState := .running
  /-- R228, 10: FULL class. -/
  full : Bool
  /-- R229, 10: the sequence is Relayed. -/
  relay : Bool
  /-- R350, 15: EMIT_SET. -/
  emitSet : SetIx
  /-- R35, 02: the policy in force and those that wait for the next boundary, with their SET_POLICY. -/
  policy : Policy
  newPolicy : List (Sub × Policy) := []
  /-- R161, R162, 08: the page list, 32 bits per entry, from page 256 × spans spilled. -/
  pages : List (BitVec 32) := []
  /-- R231, 10: the Relay map, the member holding each span that left member 0. -/
  relayMap : List Nat := []
  /-- R230, 10: a spill under way: its target. -/
  spill : Option Nat := .none
  /-- R230, 10: the spill's frames are written at the target and leave at the next boundary. -/
  spillDone : Bool := false
  /-- R230, 10: the last spill went to the nearest member against ring order. -/
  spillBack : Bool := true
  /-- R231, 10: some member could take a span at the last boundary. -/
  spillRoom : Bool := false
  /-- R239, R183, 11 and 08: committed token ids by position; none for an imported position. -/
  tokens : List (Option (BitVec 18)) := []
  /-- R164, R171, 08: positions written in cache with accepted tokens. -/
  written : Nat := 0
  /-- R183, 08: every position so far came from matching. -/
  matching : Bool := true
  /-- R185, 08: the chain of nodes up to the last full page is whole. -/
  chain : List Nat := []
  /-- R185, 08: full pages already offered to the prefix tree, a count. -/
  offered : Nat := 0
  /-- R26, 02: chunks waiting for rows, oldest first. -/
  chunks : List Chunk := []
  /-- R24, 02: the open generating request. -/
  gen : Option Gen := .none
  /-- R40, 02: tokens generated under the generating request, pre-emptions spanned. -/
  genToks : List (BitVec 18) := []
  /-- R173, 08: the guard entitlement. -/
  ent : Ent := .intact
  /-- R175, 08: order of parking. -/
  parkedAt : Nat := 0
  /-- R171, 08: the reserve frame. -/
  reserve : Option Nat := .none
  /-- R26, 02: when the sequence last stepped, in the scheduler's count of steps. -/
  lastStep : Nat := 0
  /-- R21, 02: order of admission. -/
  order : Nat := 0
  /-- R34, 02: a CANCEL and a PREEMPT waiting for the boundary. -/
  pendCancel : List Sub := []
  pendPreempt : Option (Sub × List (BitVec 128)) := .none
  /-- R409, 18: causes that end the request at the next boundary: status and DETAIL. -/
  causes : List (BitVec 8 × BitVec 64) := []
  /-- R23, R417, 02: the status the sequence ended with. -/
  endStatus : BitVec 8 := 0
  /-- R188, 08: the swap in progress. -/
  swap : Option Swap := .none
  /-- R190, 08: COUNTER of record 0. -/
  counter0 : BitVec 64 := 0
  /-- R350, 15: the imports in progress, oldest first. -/
  imps : List Import := []
  /-- R240, R241, 11: the draft tree for the next pass. -/
  tree : List Draft := []
  /-- R238, 11: the n-gram table, 1,024 entries of 128 bits; unlisted 0. -/
  ngram : Sparse (BitVec 128) := []
  /-- R243, 11: the pass just accepted. -/
  pass : Option Pass := .none
  /-- R247, 11: STOP_EMIT ended the generating request with this status. -/
  stopped : Option (BitVec 8) := .none
  /-- R42, 02: the record of the token that ended the generating request is written, with LAST set. -/
  lastOut : Bool := false
  /-- R43, 02: emission slots that the home package of a sequence homed elsewhere said it can reserve. [spec] -/
  offer : Nat := 0
  /-- R43, 02: emission slots reserved for the running step. -/
  slots : Nat := 0
  /-- R184, 08: copies of shared pages under way: page and the frame taken for it. -/
  cow : List (Nat × Nat) := []
  /-- R163, R256, 12: the page list is uncorrectable. -/
  listBad : Bool := false
deriving DecidableEq, Repr

/-- A row of a cohort record (R28). -/
structure Row where
  handle : Key := {}
  position : BitVec 28 := 0
  token : BitVec 18 := 0
  /-- 0 empty, 1 DECODE, 2 INGEST, 3 DRAFT. -/
  kind : BitVec 2 := 0
  sample : Bool := false
  parent : BitVec 5 := 0
  home : BitVec 8 := 0
deriving DecidableEq, Repr, Inhabited

/-- An open cohort (R25 to R28). -/
structure Cohort where
  model : SlotIx
  index : CohIx
  step : BitVec 64
  mask : BitVec 32
  rows : Vector Row 32
  /-- R44: rows freed in the last step, which run empty for one step. -/
  blocked : BitVec 32
  /-- R280: the layer whose slot the cohort waits for, and the local time the stall began. -/
  stall : Option (Nat × BitVec 64)
  /-- R279: descriptors completed in this pass, by 256 × tile + layer. -/
  doneCount : Sparse Nat
  /-- R31, R98: descriptors completed in this pass, by tile and engine. -/
  opsDone : Vector (Vector Nat 8) 4
  /-- R297: engines that abandoned the cohort's descriptors in this step, bit 8 × tile + engine. -/
  abandoned : BitVec 32
  /-- R198: the running PRISM set: tiles whose WAIT has completed, with their descriptors. -/
  prismIn : List (TileIx × BitVec 512)
  /-- R216: pages read in this step, local and remote, by tile. -/
  prismPages : Vector (Nat × Nat) 4
  /-- R32: STEP_END was reached on this package. -/
  stepEnd : Bool
  /-- a CUT, a fault or a timeout abandoned the step. -/
  cutNow : Bool
deriving DecidableEq, Repr

/-- A row's candidates and log-sum-exp on this package (R36 step 3). -/
structure Cand where
  model : SlotIx
  cohort : CohIx
  row : Fin 32
  cands : List (Nat × BitVec 32)
  lse : BitVec 32
  /-- 0 no NaN, 1 ordinary, 2 poison (R37). -/
  nan : Nat
deriving DecidableEq, Repr, Inhabited

/-- A row after SAMPLE (R36, R37, R39): the kept candidates with their weights, the sum S', and the token it drew. -/
structure Sampled where
  model : SlotIx
  cohort : CohIx
  row : Fin 32
  kept : List (Nat × BitVec 32)
  sum : BitVec 32
  token : Option Nat
  /-- logits of the merged candidates, for R39. -/
  logits : List (Nat × BitVec 32)
  lse : BitVec 32
  /-- 0 none, otherwise the fault status of R37. -/
  fault : BitVec 8
deriving DecidableEq, Repr, Inhabited

/-! ## Synchronisation (chapter 13) -/

/-- A registered watch (R296); the list order is the registration order. -/
structure Watch where
  id : Nat
  observe : Bool
  word : BitVec 16
  tenant : Fn
  unitHome : BitVec 3
  engine : BitVec 3
  registered : BitVec 36
  /-- R301: HANG_LIMIT when the wait began. -/
  limit : BitVec 20
  /-- R302: its HANG_WATCH is written. -/
  hung : Bool
deriving DecidableEq, Repr, Inhabited

/-- A carried FILL that waits (R299): its word, value, model and cohort, and the port that brought it. -/
structure HeldFill where
  word : BitVec 16
  v : BitVec 48
  model : SlotIx
  cohort : CohIx
  port : PortIx
  tenant : Fn
  /-- R301: HANG_LIMIT when the wait began. -/
  limit : BitVec 20
  hung : Bool
deriving DecidableEq, Repr, Inhabited

/-- A FILL, TAKE or PEEK its issuer repeats (R295, R298). -/
structure Retry where
  /-- 0 FILL, 1 TAKE, 2 PEEK. -/
  op : Nat
  word : BitVec 16
  v : BitVec 48
  unitHome : BitVec 3
  engine : BitVec 3
  /-- R301: HANG_LIMIT when the wait began. -/
  limit : BitVec 20
  hung : Bool
deriving DecidableEq, Repr, Inhabited

/-- The synchronisation units. -/
structure Sync where
  /-- R283, R284, 13: the 65,536 sync words, 64 bits each; unlisted 0. [DC 2] -/
  words : Sparse (BitVec 64) := []
  /-- R286, 13: the owner table, 1,024 entries of 64 bits; unlisted FREE. [spec] -/
  owners : Sparse (BitVec 64) := []
  /-- R295, R296, 13: registered watches, of 16,384 entries. [spec] -/
  watches : List Watch := []
  /-- R298, R295, 13: operations that are repeated. [spec] -/
  retries : List Retry := []
  /-- R299, 13: held carried FILLs. [spec] -/
  held : List HeldFill := []
  /-- R289, 13: current STEP of cohort c of model m at index 8 m + c, 64 bits. [spec] -/
  steps : Sparse (BitVec 64) := []
  /-- R291, R294, 13: status and value of the last operation, as its issuer receives them. [model 3] -/
  result : BitVec 3 × BitVec 48 := (0, 0)
  /-- R293, R297, 13: completions delivered to waiting units: watch, status, value. [model 3] -/
  completions : List (Watch × BitVec 3 × BitVec 48) := []
  /-- R301, 13: HANG_LIMIT of SYNC_CTL, 20 bits. [spec] -/
  hangLimit : BitVec 20 := 2000
  /-- R310, 13: SYNC_STAT, 64 bits. [spec] -/
  stat : BitVec 64 := 0
  /-- R310, 13: PEAK of SYNC_WATCH, 16 bits. [spec] -/
  peak : BitVec 16 := 0
  /-- R305, 13: SYNC_BLOCK_LOG, 64 bits. [spec] -/
  blockLog : BitVec 64 := 0
deriving DecidableEq, Repr, Inhabited

/-! ## Malny (chapter 14) -/

/-- A packet that waits on a port, with its virtual channel and its buffer class (R327). -/
structure Queued where
  vc : BitVec 2
  cls : Bool
  packet : Packet
deriving DecidableEq, Repr, Inhabited

/-- A frame kept for replay (R326): its SEQ with the wraps before it, and what it carries. -/
structure TxFrame where
  seq : BitVec 24
  wraps : Nat
  item : Queued
deriving DecidableEq, Repr, Inhabited

/-- A frame as it leaves a port, before its FEC (R322, R325): the link header in clear, the packet under AES-256-GCM (none in
a LINK frame), the tag and the CRC-64. The zero padding before the tag follows from the body's length. -/
structure Wire where
  hdr : BitVec 64
  body : Bytes
  tag : Bytes
  crc : BitVec 64
deriving DecidableEq, Repr, Inhabited

/-- One Malny port. -/
structure Port where
  /-- R321, 14: MALNY_PORT, 64 bits. [spec] -/
  reg : BitVec 64 := 0
  /-- R329, 14: MALNY_PORT_STAT, 64 bits. [spec] -/
  stat : BitVec 64 := 0
  /-- R316, R372, 16: transmit and receive direction keys with their salts, 36 bytes each. [spec] -/
  txKey : Bytes := []
  rxKey : Bytes := []
  /-- R372, 16: the two secrets of the agreement and the retrain count, kept for fresh keys. [spec] -/
  secrets : Bytes := []
  retrainCount : Nat := 0
  /-- R319, R372, 16: device number of the peer. [spec] -/
  peerDevice : BitVec 32 := 0
  /-- R323, 14: SEQ of the next frame sent, 24 bits, and its wraps (R325). [DC 2] -/
  seq : BitVec 24 := 0
  wraps : Nat := 0
  /-- R326, 14: SEQ of the next frame expected, 24 bits. [DC 2] -/
  expect : BitVec 24 := 0
  /-- R326, 14: a NAK is owed, and frames are discarded until the expected one arrives. [spec] -/
  nakSent : Bool := false
  /-- R326, 14: the replay buffer, oldest first, at most 512. [spec] -/
  replay : List TxFrame := []
  /-- R325, R326, 14: frames sent. [model 3] -/
  sent : List Wire := []
  /-- R326, 14: failures of the frame expected. [spec] -/
  failures : Nat := 0
  /-- R326, 14: times of the retrains of the last second. [spec] -/
  retrainTimes : List (BitVec 64) := []
  /-- R327, 14: receive buffers granted by the peer on each virtual channel. [DC 2] -/
  credits : Vector Nat 4 := Vector.replicate 4 0
  /-- R323, R327, 14: receive buffers emptied and not yet returned to the peer on each virtual channel. [DC 2] -/
  owed : Vector Nat 4 := Vector.replicate 4 0
  /-- R320, 14: the port's NEIGHBOUR_MISSING is written since it was last UP. [spec] -/
  missingSent : Bool := false
  /-- R327, R299, 14: DATA credits are withheld from the peer. [spec] -/
  stopData : Bool := false
  /-- R335, 14: the transit allowance in bytes, at most 3,584. [DC 2] -/
  allowance : Nat := 0
  /-- R335, 14: packets waiting for the transit allowance, oldest first. [spec] -/
  transit : List Queued := []
  /-- R326, R327, 14: packets waiting for a credit or for room in the replay buffer, oldest first. [spec] -/
  waiting : List Queued := []
deriving DecidableEq, Repr, Inhabited

/-- A message being received (R13, R108). -/
structure Inbound where
  src : BitVec 16
  msg : BitVec 32
  /-- packets written, of the wide copy once the mark has arrived. -/
  written : Nat
  /-- the narrow copy's DISCARD mark has arrived. -/
  mark : Bool
  /-- the message is narrow so far. -/
  narrow : Bool
  /-- every packet is written, and the signal of the last waits to be applied. -/
  whole : Bool
  /-- the last packet carried a signal. -/
  signal : Bool
  /-- a malformed block of the message has written its event (R123). -/
  bad : Bool
deriving DecidableEq, Repr, Inhabited

/-- A Relay span this package holds for another package's sequence (R230, R231). -/
structure Span where
  model : SlotIx
  handle : BitVec 32
  /-- address of the package that is the sequence's member 0. -/
  home : BitVec 16
  /-- its 256 frames, by page index. -/
  pages : List (Nat × Nat)
deriving DecidableEq, Repr, Inhabited

/-- STATE of a job slice (R332). -/
inductive SliceState where
  | pending
  | active
  | down
deriving DecidableEq, Repr, Inhabited

/-- A job slice (R330). -/
structure Slice where
  id : BitVec 16
  fn : Fn
  members : List (BitVec 16)
  ring : List (BitVec 8)
  relaySpan : Nat
  state : SliceState
  /-- the SHA-512 digest of body and list (R331 step 7). -/
  digest : BitVec 512
  /-- members whose matching packet has arrived. -/
  agreed : List Nat
  /-- the SLICE_DEFINE that waits for the agreement, and the slice held before it. -/
  sub : Option Sub
  /-- DOWN because a member left READY, which no route mends (R336). -/
  memberLost : Bool
deriving DecidableEq, Repr, Inhabited

/-- The wiring plan (R314, R315). -/
structure Plan where
  rackId : BitVec 8
  slotMask : BitVec 8
  boardMask : BitVec 16
  uplink : Option Bytes
deriving DecidableEq, Repr, Inhabited

/-! ## Umathal (chapter 16) -/

/-- A tenant record (R378). -/
structure Tenant where
  pfx : BitVec 2
  classMap : BitVec 4
  relayEn : Bool
  loupeAllow : Bool
deriving DecidableEq, Repr, Inhabited

/-- The configuration of R381. -/
structure Cfg where
  /-- R381, 16: the wiring plan; none: the default plan of R315. [spec] -/
  plan : Option Plan := none
  /-- R381, 16: job slice definitions and lists. [spec] -/
  slices : List Slice := []
  /-- R381, 16: tenant records. [spec] -/
  tenants : Vector (Option Tenant) 16 := Vector.replicate 16 none
  /-- R381, 16: FW_BANK, 1 bit. [spec] -/
  fwBank : Bool := false
  /-- R381, 16: SHA-512 digest of the named bank, 512 bits. [DC 4] -/
  bankDigest : BitVec 512 := 0
  /-- R381, 16: LOUPE_MODE, 2 bits. [spec] -/
  loupeMode : BitVec 2 := 1
  /-- R381, R257, 16: SCRUB_HOURS, 8 bits. [spec] -/
  scrubHours : BitVec 8 := 24
  /-- R381, R257, 16: RATE_LIMIT, 16 bits. [spec] -/
  rateLimit : BitVec 16 := 1000
  /-- R381, R301, 16: HANG_LIMIT, 20 bits. [spec] -/
  hangLimit : BitVec 20 := 2000
deriving DecidableEq, Repr, Inhabited

/-- A Mirror slot's header and contents (R382). -/
structure Mirror where
  version : BitVec 32 := 0
  /-- 0 CONFIRMED, 1 UNCONFIRMED, 2 REVERTED. -/
  state : BitVec 2 := 0
  boots : BitVec 2 := 0
  /-- MAGIC matches and the MAC verifies. -/
  authentic : Bool := true
  cfg : Cfg := {}
deriving DecidableEq, Repr, Inhabited

/-- A firmware bank (R366, R367). -/
structure Bank where
  /-- R367, 16: VERSION of the header, 32 bits. [DC 4] -/
  version : BitVec 32 := 0
  /-- R367, 16: SVN, 6 bits. [DC 4] -/
  svn : BitVec 6 := 0
  /-- R367, 16: MALNY_PROTO, 16 bits. [DC 4] -/
  proto : BitVec 16 := 0
  /-- R366, 16: the embedded key's hash and the signature verify, 1 bit. [DC 4] -/
  verifies : Bool := true
  /-- R371, R381, 16: SHA-512 digest of header and body, 512 bits. [DC 4] -/
  digest : BitVec 512 := 0
deriving DecidableEq, Repr, Inhabited

/-- What Umathal keeps: its persistent store, its fuses and its volatile working state. -/
structure Umathal where
  /-- R382, 16: Mirror slot A. [spec] -/
  slotA : Option Mirror := some {}
  /-- R382, 16: Mirror slot B. [DC 4] -/
  slotB : Option Mirror := none
  /-- R387, 16: BOOTED, false slot A, true slot B. [spec] -/
  booted : Bool := false
  /-- R387, 16: FACTORY, 1 bit. [spec] -/
  factory : Bool := false
  /-- R387, 16: AUTO_REVERTED, 1 bit. [spec] -/
  autoReverted : Bool := false
  /-- R381, 16: the live configuration. [spec] -/
  live : Cfg := {}
  /-- R384, 16: the staged copy. [spec] -/
  staged : Option Cfg := none
  /-- R384, 16: the first 8 bytes of the staged contents' digest, 64 bits. [DC 2] -/
  stagedDigest : BitVec 64 := 0
  /-- R366, R388, 16: firmware banks 0 and 1. [DC 4] -/
  banks : Vector (Option Bank) 2 := #v[some {}, none]
  /-- R390, 16: ACTIVE_BANK, 1 bit. [spec] -/
  activeBank : Bool := false
  /-- R368, 16: SVN fuses blown, 0 to 63. [DC 4] -/
  fusedSvn : Nat := 0
  /-- R366, 16: the fused hash of the firmware public key, 512 bits. [DC 4] -/
  keyHash : BitVec 512 := 0
  /-- R364, 16: the device wrapping key, RSA-4096: modulus and private exponent, 4,096 bits each. [DC 4] -/
  wrapN : Nat := 0
  wrapD : Nat := 0
  /-- R364, 16: command key of each function, 256 bits. [spec] -/
  cmdKey : Vector (Option (BitVec 256)) 16 := Vector.replicate 16 none
  /-- R364, R378, 16: swap key of each tenant, 256 bits. [spec] -/
  swapKey : Vector (Option (BitVec 256)) 16 := Vector.replicate 16 none
  /-- R364, R179, 16: prefix key of each tenant, 256 bits. [spec] -/
  prefixKey : Vector (Option (BitVec 256)) 16 := Vector.replicate 16 none
  /-- R374, R377, 16: NEXT of each function, 64 bits. [DC 4] -/
  next : Vector (BitVec 64) 16 := Vector.replicate 16 0
  /-- R375, 16: the stored ceiling of each function's NEXT, 64 bits. [DC 4] -/
  ceiling : Vector (BitVec 64) 16 := Vector.replicate 16 0
  /-- R190, 08: swap counter of each tenant, 64 bits. [DC 4] -/
  swapCounter : Vector (BitVec 64) 16 := Vector.replicate 16 0
  /-- R190, 08: swap counters reserved in the store, 64 bits each. [DC 4] -/
  swapReserved : Vector (BitVec 64) 16 := Vector.replicate 16 0
  /-- R371, 16: LOUPE_SET commands accepted since reset, 64 bits. [spec] -/
  loupeSets : BitVec 64 := 0
  /-- R410, R414, 18: the fatal entry saved for the log. [spec] -/
  savedFatal : Option (BitVec 128) := none
  /-- R395, R403, 17: LAST_TRIP in the store, 1 bit. [DC 4] -/
  lastTrip : Bool := false
deriving DecidableEq, Repr, Inhabited

/-- An SPDM session (R370). -/
structure Session where
  id : BitVec 32
  transport : Transport
  established : Bool
  keyUpdates : Nat
deriving DecidableEq, Repr, Inhabited

/-- An SPDM response, by its message (R369 to R371). -/
inductive SpdmOut where
  | version
  | capabilities
  | algorithms
  | digests (slots : BitVec 8)
  | certificate (slot : BitVec 3) (offset length : BitVec 16)
  | challengeAuth (slot : BitVec 3) (nonce : BitVec 256)
  | measurements (index : BitVec 8) (content : Bytes)
  | keyExchangeRsp (session : BitVec 32)
  | finishRsp (session : BitVec 32)
  | heartbeatAck (session : BitVec 32)
  | keyUpdateAck (session : BitVec 32)
  | endSessionAck (session : BitVec 32)
  | vendorDefined (session : BitVec 32)
  | error
deriving DecidableEq, Repr

/-- Umathal as SPDM responder (R370). -/
structure Spdm where
  /-- R370, 16: GET_VERSION, GET_CAPABILITIES and NEGOTIATE_ALGORITHMS done, per transport (MCTP, DOE). [model 3] -/
  phase : Vector Nat 2 := Vector.replicate 2 0
  /-- R370, 16: open sessions, at most 4. [spec] -/
  sessions : List Session := []
  /-- R370, 16: session identifiers given out, a count. [model 3] -/
  nextId : Nat := 0
  /-- R370, 16: responses sent. [model 3] -/
  out : List (Transport × SpdmOut) := []
  /-- R364, R337, 16: PCIe IDE keys by stream, 256 bits. [spec] -/
  ideKeys : Sparse (BitVec 256) := []
deriving DecidableEq, Repr, Inhabited

/-! ## Flash (chapter 12) -/

/-- A stripe unit held in a block (R261, R262). -/
structure FlashUnit where
  model : SlotIx
  sec : Nat
  idx : Nat
  mirror : Bool
deriving DecidableEq, Repr, Inhabited

/-- A flash block in use or once used (R264 to R266); a block not listed is erased with count 0. -/
structure Block where
  id : Nat
  /-- the channel's target: 8 channel + target. -/
  target : Nat
  erase : Nat
  reads : Nat
  bad : Bool
  erased : Bool
  erasing : Option SlotIx
  units : List FlashUnit
deriving DecidableEq, Repr, Inhabited

/-- The flash tier. -/
structure Flash where
  /-- R260, 12: FLASH_CHAN_STATE, 2 bits per channel. [spec] -/
  chan : Vector (BitVec 2) 32 := Vector.replicate 32 0
  /-- R258, 12: targets of each channel, 0 to 8. [DC 4] -/
  targets : Vector (BitVec 4) 32 := Vector.replicate 32 0
  /-- R264, R265, 12: blocks. [spec] -/
  blocks : List Block := []
  /-- R264, 12: blocks scheduled for refresh. [spec] -/
  refreshQueue : List Nat := []
  /-- R261, 12: base channel of the next section installed, modulo 32. [DC 2] -/
  baseChan : Nat := 0
  /-- R266, 12: sequence number of the catalogue. [DC 2] -/
  catalogueSeq : Nat := 0
  /-- R266, 12: journal entries programmed, a count. [DC 2] -/
  journal : Nat := 0
  /-- R267, 12: FLASH_READ_STAT, 64 bits. [spec] -/
  readStat : BitVec 64 := 0
deriving DecidableEq, Repr, Inhabited

/-! ## The package -/

/-- STAGE of BRINGUP_STATUS (R395). -/
inductive Stage where
  | aon
  | secureBoot
  | dramTrain
  | linkTrain
  | ready
deriving DecidableEq, Repr, Inhabited

/-- Bring-up, identity and the fault registers (R393 to R396, R412, R414, R424). -/
structure Boot where
  /-- R393, R395, 17: STAGE. [spec] -/
  stage : Stage := .aon
  /-- R395, 17: FAILED, 1 bit. [spec] -/
  failed : Bool := false
  /-- R395, 17: FAIL_CODE, 8 bits. [spec] -/
  failCode : BitVec 8 := 0
  /-- R395, 17: FAIL_ARG, 12 bits. [spec] -/
  failArg : BitVec 12 := 0
  /-- R394, R395, 17: DROPPED, 32 bits. [spec] -/
  dropped : BitVec 32 := 0
  /-- R396, 17: the local time counter, 64 bits. [spec] -/
  localTime : BitVec 64 := 0
  /-- R396, 17: bits [63:32] latched by a 32-bit read of the low half. [DC 2] -/
  timeLatch : BitVec 32 := 0
  /-- R412, 18: PKG_FAULT, 64 bits. [spec] -/
  pkgFault : BitVec 64 := 0
  /-- R424, 19: PART, false OQ-BX8-H, true OQ-BX8-E. [DC 4] -/
  partE : Bool := false
  /-- R424, 19: the device number, 32 bits. [DC 4] -/
  device : BitVec 32 := 0
  /-- R312, R438, 14: SLOT_ID latched at AON, 3 bits. [DC 4] -/
  slotId : BitVec 3 := 0
  /-- R312, R438, 14: BOARD_ID latched at AON, 4 bits. [DC 4] -/
  boardId : BitVec 4 := 0
  /-- R320, R393, 17: LINK_TRAIN has ended, 1 bit. [spec] -/
  trained : Bool := false
  /-- R414, 18: ERR_LOG_n, 64 entries of 128 bits. [spec] -/
  errLog : Vector (BitVec 128) 64 := Vector.replicate 64 0
  /-- R414, 18: ERR_LOG_CTL, 64 bits. [spec] -/
  errCtl : BitVec 64 := 0
  /-- R427, 19: the latched TIME half. [DC 2] -/
  errLatch : Option (BitVec 64) := none
  /-- R408, 18: HUB_SRAM_ECC, 64 bits. [spec] -/
  hubEcc : BitVec 64 := 0
  /-- R420, 19: the value the last register read returned, 64 bits. [model 3] -/
  readData : BitVec 64 := 0
deriving DecidableEq, Repr, Inhabited

/-- The pins the package samples or drives, and its clocks and rails (R403, R404, R436 to R442). -/
structure Pins where
  /-- R436, R438, 20: RESET_N, level. [DC 5] -/
  resetN : Bool := true
  /-- R437, R438, 20: PERST_N, level. [DC 5] -/
  perstN : Bool := true
  /-- R400, R438, 20: THROTTLE_IN_N as last sampled, level. [spec] -/
  throttleInN : Bool := true
  /-- R403, R404, R438, 20: THERM_ALERT_N, level driven. [DC 5] -/
  thermAlertN : Bool := true
  /-- R438, R440, 20: TRST_N, level. [DC 5] -/
  trstN : Bool := false
  /-- R436, 20: rails in range, 10 bits. [DC 5] -/
  rails : BitVec 10 := 0x3FF
  /-- R393, R442, 20: AON_REFCLK runs. [DC 5] -/
  aonRefclk : Bool := true
  /-- R442, 20: MREFCLK runs. [DC 5] -/
  mrefclk : Bool := true
  /-- R442, 20: REFCLK runs. [DC 5] -/
  refclk : Bool := true
  /-- R393, R413, 17: the PCIe link is up. [DC 5] -/
  pcieUp : Bool := false
deriving DecidableEq, Repr, Inhabited

/-- Clocks, power and temperature (R397 to R404). -/
structure Power where
  /-- R399, 17: TILE_CLK, 2 bits per tile. [spec] -/
  tileClk : BitVec 8 := 0
  /-- R399, 17: PLL_OFF_DELAY, 20 bits. [spec] -/
  pllOffDelay : BitVec 20 := 10000
  /-- R404, 17: CAP of POWER_CTL, 12 bits. [spec] -/
  cap : BitVec 12 := 1500
  /-- R401, 17: P_k, 5 bits. [spec] -/
  pk : Nat := 16
  /-- R401, 17: consecutive intervals below CAP − 50 W. [spec] -/
  below : Nat := 0
  /-- R402, 17: T_k, 5 bits. [DC 2] -/
  tk : Nat := 16
  /-- R402, 17: consecutive milliseconds with every sensor 3 °C below its threshold. [spec] -/
  cool : Nat := 0
  /-- R400, R404, 17: k in force, 5 bits. [spec] -/
  k : Nat := 16
  /-- R404, 17: THROTTLED, POWER of POWER_STAT. [spec] -/
  throttled : BitVec 16 := 0
  watts : BitVec 12 := 0
  /-- R404, 17: time and k of the last THERMAL_THROTTLE event. [spec] -/
  lastEvent : Option (BitVec 64 × Nat) := none
  /-- R404, 17: LOGIC_THROTTLE, 8 bits. [spec] -/
  logicThrottle : BitVec 8 := 100
  /-- R404, 17: DRAM_THROTTLE, 8 bits. [spec] -/
  dramThrottle : BitVec 8 := 95
  /-- R404, 17: THERMAL_STAT_n, 13 of 32 bits. [spec] -/
  thermal : Vector (BitVec 32) 13 := Vector.replicate 13 0
  /-- R403, 17: a trip's stop holds. [spec] -/
  tripped : Bool := false
  /-- R403, 17: consecutive milliseconds below the restart temperatures. [spec] -/
  tripCool : Nat := 0
deriving DecidableEq, Repr, Inhabited

/-- The sideband port and the test port (R439, R440). -/
structure Ports4 where
  /-- R439, 20: the dynamic I3C address; none: SMBus at the static address. [spec] -/
  i3c : Option (BitVec 7) := none
  /-- R440, 20: the test port's instruction: 0 BYPASS, 1 IDCODE, 2 SAMPLE/PRELOAD, 3 EXTEST. [P 1] -/
  jtagIr : BitVec 2 := 1
  /-- R440, 20: the data register the instruction connects, 1,024 bits. [P 1] -/
  jtagDr : BitVec 1024 := 0xBB80861F
  /-- R440, 20: the boundary register's update values, 1,024 bits. [P 1] -/
  jtagUpdate : BitVec 1024 := 0
  /-- R440, 20: EXTEST controls the pins. [spec] -/
  jtagPins : Bool := false
deriving DecidableEq, Repr, Inhabited

/-- The whole state of the package, and the commands that wait. -/
structure State where
  /-- The queue of waiting commands, first in, first out. [spec] -/
  pending : List Instr := []
  /-- R339, R341, 15: functions 0 to 15. [spec] -/
  fns : Vector Func 16 := (Vector.replicate 16 {}).set 0 { present := true }
  /-- R9, 01: tiles T0 to T3. [spec] -/
  tiles : Vector Tile 4 := Vector.replicate 4 {}
  /-- R269, R428, 12: model slots 0 to 63. [spec] -/
  models : Vector Model 64 := Vector.replicate 64 {}
  /-- R21, R22, 02: the sequences that are not FREE. [spec] -/
  seqs : List Seq := []
  /-- R21, 02: reuse count of slot s of function f at 16,384 f + s, 14 bits; unlisted 0. [DC 2] -/
  reuse : Sparse (BitVec 14) := []
  /-- R27, 02: open cohorts. [spec] -/
  cohorts : List Cohort := []
  /-- R28, R44, 02: records of the next step of cohorts whose step still runs. [spec] -/
  nextCohorts : List Cohort := []
  /-- R181, 08: the cohort leader's decisions on a model's prefix tree that no cohort record has carried yet, oldest first. [spec] -/
  treeOps : List (SlotIx × TreeOp) := []
  /-- R26, 02: steps taken so far, a count. [model 3] -/
  stepCount : Nat := 0
  /-- R36, 02: candidates exported by CANDIDATES. [spec] -/
  cands : List Cand := []
  /-- R36, 02: rows sampled by SAMPLE. [spec] -/
  sampled : List Sampled := []
  /-- 13_sync.md: the synchronisation units. [spec] -/
  sync : Sync := {}
  /-- R311, 14: ports M0 to M11. [spec] -/
  ports : Vector Port 12 := Vector.replicate 12 {}
  /-- R330, 14: job slices of this package. [spec] -/
  slices : List Slice := []
  /-- R335, 14: MALNY_TRANSIT_k, 64 of 64 bits. [spec] -/
  transit : Vector (BitVec 64) 64 := Vector.replicate 64 0xFFFF000000000000
  /-- R13, R107, R108, 05: messages being received. [spec] -/
  inbound : List Inbound := []
  /-- R108, 05: packets of wide copies held for a DISCARD mark. [spec] -/
  heldWide : List Packet := []
  /-- R108, 05: messages written wide whose narrow copy, if they have one, has not shown its DISCARD mark: source and MSG_ID. [model 92] -/
  wideSeen : List (BitVec 16 × BitVec 32) := []
  /-- R325, 14: packets a port delivered to this package that no message step has taken. [spec] -/
  inbox : List Packet := []
  /-- R231, 10: Relay spans held for other packages. [spec] -/
  spans : List Span := []
  /-- R336, 14: the LEAVING packets flooded so far: the package that left and the packet's MSG_ID. [spec] -/
  left : List (BitVec 16 × BitVec 32) := []
  /-- R324, 14: MSG_ID of the next message sent, 32 bits. [DC 2] -/
  msgId : BitVec 32 := 0
  /-- R13, R328, 14: slices with a message that found no route and can no longer be delivered whole; their CUT is due. [spec] -/
  undelivered : List (BitVec 16) := []
  /-- R17, R304, 13: headers of the carried FILLs blocked here whose DENIED goes back to another package's hub. [model 3] -/
  denials : List (BitVec 256) := []
  /-- 16_security_config.md: Umathal. [spec] -/
  um : Umathal := {}
  /-- R370, 16: the SPDM responder. [spec] -/
  spdm : Spdm := {}
  /-- 12_weight_tiers.md: the flash tier. [spec] -/
  flash : Flash := {}
  /-- R257, 12: SCRUB_HOURS and RATE_LIMIT of DRAM_ECC_CTL. [spec] -/
  scrubHours : BitVec 8 := 24
  rateLimit : BitVec 16 := 1000
  /-- R195, 08: PAGE_SWAP_STAT, 64 bits. [spec] -/
  swapStat : BitVec 64 := 0
  /-- R235, 10: RELAY_STAT, 64 bits. [spec] -/
  relayStat : BitVec 64 := 0
  /-- R195, 08: the sequences whose swaps wait or run, in the order their commands were accepted. [spec] -/
  swapQueue : List Key := []
  /-- R250, 11: SPEC_STAT and SPEC_SOURCE, 64 bits each. [spec] -/
  specStat : BitVec 64 := 0
  specSource : BitVec 64 := 0
  /-- 17_bringup_clocks_power.md and 18: bring-up, identity, faults. [spec] -/
  boot : Boot := {}
  /-- 20_package_electrical.md: pins, clocks, rails. [spec] -/
  pins : Pins := {}
  /-- 17_bringup_clocks_power.md: clocks, power, temperature. [spec] -/
  power : Power := {}
  /-- R439, R440, 20: sideband and test port. [spec] -/
  side : Ports4 := {}
  /-- R354, R42, R358, 15: what the package has written towards the host, oldest first. [model 3] -/
  out : List HostOut := []
  /-- R347, 15: records held for Bus Master Enable, oldest first. [spec] -/
  held : List Held := []
  /-- The model's own counter of free values taken (log entry 6). [model 6] -/
  fresh : Nat := 0
deriving DecidableEq, Repr

/-- The machine right after reset: every field at its reset value, no command waiting. -/
def State.reset : State := {}

end Sys2Proof.Machine
end

