-- ==== Sys2Proof/Machine/Bits.lean ====
section
/-!
DEFINITION. Sys2Proof/Machine/Bits.lean: bit fields of registers and records, saturating counters (R421), and small list
helpers.
-/
namespace Sys2Proof.Machine

/-- Bits [lo + w - 1 : lo] of a number. -/
def bits (x lo w : Nat) : Nat := (x / 2 ^ lo) % 2 ^ w

/-- Bits [lo + w - 1 : lo] of a word. -/
def fld {n : Nat} (x : BitVec n) (lo w : Nat) : Nat := bits x.toNat lo w

/-- One bit of a word. -/
def bit {n : Nat} (x : BitVec n) (i : Nat) : Bool := x.getLsbD i

/-- The word with bits [lo + w - 1 : lo] set to the low bits of v. -/
def setFld {n : Nat} (x : BitVec n) (lo w v : Nat) : BitVec n :=
  BitVec.ofNat n (x.toNat - bits x.toNat lo w * 2 ^ lo + (v % 2 ^ w) * 2 ^ lo)

/-- A counter field that stops at its largest value (R421): the word with field [lo + w - 1 : lo] raised by k. -/
def bump {n : Nat} (x : BitVec n) (lo w k : Nat) : BitVec n :=
  setFld x lo w (min (2 ^ w - 1) (fld x lo w + k))

/-- The word with a field raised to v when v is larger. -/
def raiseTo {n : Nat} (x : BitVec n) (lo w v : Nat) : BitVec n :=
  setFld x lo w (max (fld x lo w) (min (2 ^ w - 1) v))

/-- The word with bit i set. -/
def setBit {n : Nat} (x : BitVec n) (i : Nat) : BitVec n := x ||| BitVec.ofNat n (2 ^ i)

/-- The word with bit i clear. -/
def clrBit {n : Nat} (x : BitVec n) (i : Nat) : BitVec n := x &&& ~~~ BitVec.ofNat n (2 ^ i)

/-- A word from fields (position, width, value). -/
def pack (n : Nat) (fs : List (Nat × Nat × Nat)) : BitVec n :=
  BitVec.ofNat n (fs.foldl (fun a f => a + (f.2.2 % 2 ^ f.2.1) * 2 ^ f.1) 0)

/-- 1 for true. -/
def b2n (b : Bool) : Nat := if b then 1 else 0

/-- The indices of the set bits of a 32-bit mask, ascending. -/
def maskRows (m : BitVec 32) : List (Fin 32) := (List.finRange 32).filter fun r => m.getLsbD r

/-- The mask of a list of rows. -/
def rowsMask (l : List (Fin 32)) : BitVec 32 := l.foldl (fun m r => m ||| BitVec.ofNat 32 (2 ^ r.val)) 0

/-- How many bits are set. -/
def popcount {n : Nat} (x : BitVec n) : Nat := ((List.range n).filter fun i => x.getLsbD i).length

/-- ⌈log2 n⌉; 0 for 0 and 1. -/
def clog2 (n : Nat) : Nat := if n ≤ 1 then 0 else Nat.log2 (n - 1) + 1

/-- A number rounded up to a multiple of m. -/
def roundUp (n m : Nat) : Nat := (n + m - 1) / m * m

/-- The quotient rounded up. -/
def cdiv (n m : Nat) : Nat := (n + m - 1) / m

/-- Insertion into a list sorted by a strict order, after its equals. -/
def insertBy {α : Type} (lt : α → α → Bool) (x : α) : List α → List α
  | [] => [x]
  | y :: r => if lt x y then x :: y :: r else y :: insertBy lt x r

/-- A stable sort by insertion. -/
def sortBy {α : Type} (lt : α → α → Bool) (l : List α) : List α := l.foldl (fun a x => insertBy lt x a) []

/-- The ascending numbers without repeats. -/
def sortNats (l : List Nat) : List Nat := (sortBy (fun a b => decide (a < b)) l).eraseDups

/-- The first element that satisfies p, replaced by f of it. -/
def updFirst {α : Type} (p : α → Bool) (f : α → α) : List α → List α
  | [] => []
  | x :: r => if p x then f x :: r else x :: updFirst p f r

/-- Element i of a vector replaced by f of it. -/
def vmod {α : Type} {n : Nat} (v : Vector α n) (i : Fin n) (f : α → α) : Vector α n := v.set i (f v[i])

end Sys2Proof.Machine
end

