-- ==== Sys2Proof/Machine/Float.lean ====
section
/-!
DEFINITION. Sys2Proof/Machine/Float.lean: exact arithmetic on FP32 and BF16 values and its rounding (R53, R55 to R57).
A finite value is a sign, a magnitude and a power of two; every operation is computed exactly and rounded once.
-/
namespace Sys2Proof.Machine

/-- A value of FP32 or BF16, or an exact intermediate: the two kinds of NaN (R55), an infinity, or ± m × 2^e. -/
inductive Num where
  | nan (poison : Bool)
  | inf (neg : Bool)
  | fin (neg : Bool) (m : Nat) (e : Int)
deriving DecidableEq, Repr, Inhabited

/-- +0. -/
def Num.zero : Num := .fin false 0 0

/-- The value of an integer times 2^e. -/
def Num.ofInt (x : Int) (e : Int) : Num := .fin (decide (x < 0)) x.natAbs e

/-- The FP32 bits of a poison NaN (R55). -/
def nanP32 : BitVec 32 := 0x7FC000B1

/-- The FP32 canonical ordinary NaN (R55). -/
def nan32 : BitVec 32 := 0x7FC00000

/-- Reads FP32 (R53); any NaN but the quiet one with bits [21:0] = 0x0B1 is ordinary (R55). -/
def fp32 (x : BitVec 32) : Num :=
  let f := fld x 0 23
  let ex := fld x 23 8
  let s := bit x 31
  if ex = 255 then (if f = 0 then .inf s else .nan (decide (f = 0x4000B1)))
  else if ex = 0 then .fin s f (-149)
  else .fin s (f + 0x800000) ((ex : Int) - 150)

/-- BF16 to FP32: sixteen zero bits appended; a poison NaN stays poison (R63, R55). -/
def bfTo32 (x : BitVec 16) : BitVec 32 :=
  if fld x 7 8 = 255 ∧ fld x 0 7 ≠ 0 then (if fld x 0 15 = 0x7FF1 then nanP32 else nan32)
  else BitVec.ofNat 32 (x.toNat * 65536)

/-- Reads BF16 (R53, R55). -/
def bf16 (x : BitVec 16) : Num := fp32 (bfTo32 x)

/-- Rounds m × 2^e to p significant bits with least unit 2^qmin, to nearest with ties to even, or upwards when up: the
bits of exponent and fraction, and whether the value overflows to an infinity (R53). -/
def roundMag (up : Bool) (p : Nat) (qmin : Int) (m : Nat) (e : Int) : Nat × Bool :=
  if m = 0 then (0, false)
  else
    let q : Int := max (e + (Nat.log2 m : Int) - ((p : Int) - 1)) qmin
    let mant : Nat :=
      if q ≤ e then m * 2 ^ (e - q).toNat
      else
        let sh := (q - e).toNat
        let k := m / 2 ^ sh
        let r := m % 2 ^ sh
        let half := 2 ^ (sh - 1)
        if up then (if r = 0 then k else k + 1)
        else if r > half ∨ (r = half ∧ k % 2 = 1) then k + 1 else k
    let b := (q - qmin).toNat * 2 ^ (p - 1) + mant
    if b ≥ 255 * 2 ^ (p - 1) then (255 * 2 ^ (p - 1), true) else (b, false)

/-- FP32 bits of a value, rounded to nearest even (R53), and whether it overflowed. -/
def toFp32 : Num → BitVec 32 × Bool
  | .nan p => (if p then nanP32 else nan32, false)
  | .inf s => (if s then 0xFF800000 else 0x7F800000, false)
  | .fin s m e =>
    let r := roundMag false 24 (-149) m e
    (BitVec.ofNat 32 (r.1 + (b2n s) * 2 ^ 31), r.2)

/-- FP32 bits of a value rounded away from zero. -/
def toFp32Up : Num → BitVec 32 × Bool
  | .fin s m e =>
    let r := roundMag true 24 (-149) m e
    (BitVec.ofNat 32 (r.1 + (b2n s) * 2 ^ 31), r.2)
  | x => toFp32 x

/-- BF16 bits of a value, rounded to nearest even (R53, R55), and whether it overflowed. -/
def toBf16 : Num → BitVec 16 × Bool
  | .nan p => (if p then 0x7FF1 else 0x7FC0, false)
  | .inf s => (if s then 0xFF80 else 0x7F80, false)
  | .fin s m e =>
    let r := roundMag false 8 (-133) m e
    (BitVec.ofNat 16 (r.1 + (b2n s) * 2 ^ 15), r.2)

/-- Whether a value is a NaN. -/
def Num.isNan : Num → Bool
  | .nan _ => true
  | _ => false

/-- Whether a value is a poison NaN. -/
def Num.isPoison : Num → Bool
  | .nan p => p
  | _ => false

/-- Whether a value is finite. -/
def Num.isFin : Num → Bool
  | .fin .. => true
  | _ => false

/-- The NaN of a result with NaN inputs: poison if any is poison (R56). -/
def nanOf (l : List Num) : Num := .nan (l.any Num.isPoison)

/-- The signed integer of a finite value over 2^e', for e' at or below its own exponent. -/
def Num.intAt (s : Bool) (m : Nat) (e e' : Int) : Int :=
  let k : Int := (m * 2 ^ (e - e').toNat : Nat)
  if s then -k else k

/-- The negated value; a NaN stays. -/
def Num.neg : Num → Num
  | .fin s m e => .fin (!s) m e
  | .inf s => .inf (!s)
  | x => x

/-- The magnitude; a NaN stays. -/
def Num.abs : Num → Num
  | .fin _ m e => .fin false m e
  | .inf _ => .inf false
  | x => x

/-- The exact sum, with IEEE 754 signs of zero; infinities of opposite sign give an ordinary NaN (R57). -/
def Num.add (x y : Num) : Num :=
  match x, y with
  | .nan _, _ => nanOf [x, y]
  | _, .nan _ => nanOf [x, y]
  | .inf s, .inf t => if s = t then .inf s else .nan false
  | .inf s, _ => .inf s
  | _, .inf t => .inf t
  | .fin s m e, .fin t n f =>
    let q := min e f
    let z := Num.intAt s m e q + Num.intAt t n f q
    if z = 0 then .fin (s && t) 0 0 else .fin (decide (z < 0)) z.natAbs q

/-- The exact difference. -/
def Num.sub (x y : Num) : Num := x.add y.neg

/-- The exact product; 0 × ∞ gives an ordinary NaN (R57). -/
def Num.mul (x y : Num) : Num :=
  match x, y with
  | .nan _, _ => nanOf [x, y]
  | _, .nan _ => nanOf [x, y]
  | .inf s, .inf t => .inf (s != t)
  | .inf s, .fin t n _ => if n = 0 then .nan false else .inf (s != t)
  | .fin s m _, .inf t => if m = 0 then .nan false else .inf (s != t)
  | .fin s m e, .fin t n f => .fin (s != t) (m * n) (e + f)

/-- x × y + z, exact (R145); the kind of a NaN is that of the three inputs. -/
def Num.fma (x y z : Num) : Num :=
  if x.isNan || y.isNan || z.isNan then nanOf [x, y, z] else (x.mul y).add z

/-- The quotient with a sticky bit below forty bits of precision, which rounds as the exact quotient does. -/
def Num.div (x y : Num) : Num :=
  match x, y with
  | .nan _, _ => nanOf [x, y]
  | _, .nan _ => nanOf [x, y]
  | .inf _, .inf _ => .nan false
  | .inf s, .fin t _ _ => .inf (s != t)
  | .fin s _ _, .inf t => .fin (s != t) 0 0
  | .fin s m e, .fin t n f =>
    if n = 0 then (if m = 0 then .nan false else .inf (s != t))
    else
      let k := 40 + Nat.log2 n + 1
      let a := m * 2 ^ k
      .fin (s != t) (2 * (a / n) + (if a % n = 0 then 0 else 1)) (e - f - k - 1)

/-- The integer square root of x by k binary digits. -/
def isqrt : Nat → Nat → Nat
  | 0, _ => 0
  | k + 1, x =>
    let r := 2 * isqrt k (x / 4)
    if (r + 1) * (r + 1) ≤ x then r + 1 else r

/-- ⌊√x⌋. -/
def sqrtNat (x : Nat) : Nat := isqrt (Nat.log2 x / 2 + 1) x

/-- The square root with a sticky bit, which rounds as the exact root does; a negative value gives an ordinary NaN. -/
def Num.sqrt : Num → Num
  | .nan p => .nan p
  | .inf s => if s then .nan false else .inf false
  | .fin s m e =>
    if m = 0 then .fin s 0 0
    else if s then .nan false
    else
      let k : Nat := 64 + (if e % 2 = 0 then 0 else 1)
      let a := m * 2 ^ k
      let r := sqrtNat a
      .fin false (2 * r + (if r * r = a then 0 else 1)) ((e - k) / 2 - 1)

/-- x < y of two values that are no NaN. -/
def Num.lt (x y : Num) : Bool :=
  match x, y with
  | .nan _, _ => false
  | _, .nan _ => false
  | .inf s, .inf t => s && !t
  | .inf s, .fin .. => s
  | .fin .., .inf t => !t
  | .fin s m e, .fin t n f =>
    let q := min e f
    decide (Num.intAt s m e q < Num.intAt t n f q)

/-- x = y of two values that are no NaN; −0 equals +0. -/
def Num.eqv (x y : Num) : Bool := !x.isNan && !y.isNan && !x.lt y && !y.lt x

/-- x ≤ y of two values that are no NaN. -/
def Num.le (x y : Num) : Bool := !x.isNan && !y.isNan && !y.lt x

/-- A signed integer from the exact value by rounding to nearest, ties to even. -/
def rneInt (x : Int) (sh : Nat) : Int :=
  if sh = 0 then x
  else
    let d : Int := (2 ^ sh : Nat)
    let k := x / d
    let r := x % d
    if 2 * r > d ∨ (2 * r = d ∧ k % 2 = 1) then k + 1 else k

/-- RNE of a finite value × 2^k to an integer. -/
def rneScaled (s : Bool) (m : Nat) (e : Int) (k : Int) : Int :=
  let q := e + k
  if 0 ≤ q then Num.intAt s m q 0 else rneInt (Num.intAt s m 0 0) (-q).toNat

/-- FP32 sum. -/
def add32 (x y : BitVec 32) : BitVec 32 := (toFp32 ((fp32 x).add (fp32 y))).1

/-- FP32 difference. -/
def sub32 (x y : BitVec 32) : BitVec 32 := (toFp32 ((fp32 x).sub (fp32 y))).1

/-- FP32 product. -/
def mul32 (x y : BitVec 32) : BitVec 32 := (toFp32 ((fp32 x).mul (fp32 y))).1

/-- FP32 quotient. -/
def div32 (x y : BitVec 32) : BitVec 32 := (toFp32 ((fp32 x).div (fp32 y))).1

/-- FP32 square root. -/
def sqrt32 (x : BitVec 32) : BitVec 32 := (toFp32 (fp32 x).sqrt).1

/-- An FP32 result with whether a rounding on its way overflowed (R53). -/
abbrev Fl32 := BitVec 32 × Bool

/-- FP32 sum, with the overflows of its operands' roundings. -/
def addFl (x y : Fl32) : Fl32 := let r := toFp32 ((fp32 x.1).add (fp32 y.1)); (r.1, x.2 || y.2 || r.2)

/-- FP32 difference, with the overflows of its operands' roundings. -/
def subFl (x y : Fl32) : Fl32 := let r := toFp32 ((fp32 x.1).sub (fp32 y.1)); (r.1, x.2 || y.2 || r.2)

/-- FP32 product, with the overflows of its operands' roundings. -/
def mulFl (x y : Fl32) : Fl32 := let r := toFp32 ((fp32 x.1).mul (fp32 y.1)); (r.1, x.2 || y.2 || r.2)

/-- FP32 of a natural number. -/
def nat32 (n : Nat) : BitVec 32 := (toFp32 (.fin false n 0)).1

/-- FP32 to BF16 (R63). -/
def to16 (x : BitVec 32) : BitVec 16 := (toBf16 (fp32 x)).1

/-- FP32 x < y. -/
def lt32 (x y : BitVec 32) : Bool := (fp32 x).lt (fp32 y)

end Sys2Proof.Machine
end

