-- ==== Sys2Proof/Machine/Sparse.lean ====
section
/-!
DEFINITION. Sys2Proof/Machine/Sparse.lean: reading and writing sparse stores, and bytes in them. A sparse store lists
(index, value) pairs with strictly rising indices and no entry equal to the value d of an unlisted index.
-/
namespace Sys2Proof.Machine

/-- The value at index i of a sparse store whose unlisted entries hold d. -/
def sget {α : Type} (d : α) : Sparse α → Nat → α
  | [], _ => d
  | (j, x) :: r, i => if i = j then x else sget d r i

/-- The store without the entries whose index satisfies p. -/
def sdrop {α : Type} (p : Nat → Bool) (m : Sparse α) : Sparse α := m.filter fun e => !p e.1

/-- The entry of value v at index i: none for the value d of an unlisted index. -/
def sone {α : Type} [DecidableEq α] (d : α) (i : Nat) (v : α) : Sparse α := if v = d then [] else [(i, v)]

/-- The store with value v at index i and what else it listed there left out; a canonical store stays canonical. -/
def sput {α : Type} [DecidableEq α] (d : α) (m : Sparse α) (i : Nat) (v : α) : Sparse α :=
  match m with
  | [] => sone d i v
  | (j, x) :: r =>
    if i < j then sone d i v ++ (j, x) :: sdrop (fun k => decide (k = i)) r
    else if i = j then sput d r i v
    else (j, x) :: sput d r i v

/-- Every index of the store lies at or above lo and rises strictly, and no entry is d. -/
def swfFrom {α : Type} [DecidableEq α] (d : α) : Nat → Sparse α → Bool
  | _, [] => true
  | lo, (j, x) :: r => decide (lo ≤ j) && decide (x ≠ d) && swfFrom d (j + 1) r

/-- The canonical form of a sparse store. -/
def swf {α : Type} [DecidableEq α] (d : α) (m : Sparse α) : Bool := swfFrom d 0 m

/-- One byte of a byte store; an unlisted byte reads 0 (log entry 22). -/
def getByte (m : List Host.Cell) (a : Nat) : Byte := sget 0 m a

/-- A byte store with byte b at address a. -/
def putByte (m : List Host.Cell) (a : Nat) (b : Byte) : List Host.Cell := sput 0 m a b

/-- n bytes from address a, lowest first. -/
def getBytes (m : List Host.Cell) (a n : Nat) : Bytes := (List.range n).map fun i => getByte m (a + i)

/-- The store with the bytes b written from address a. -/
def putBytes (m : List Host.Cell) (a : Nat) : Bytes → List Host.Cell
  | [] => m
  | b :: r => putBytes (putByte m a b) (a + 1) r

/-- Memory.wf: the canonical form of a byte store. -/
def Memory.wf (m : List Host.Cell) : Bool := swf 0 m

/-- The byte store without the bytes from a to a + n. -/
def clearBytes (m : List Host.Cell) (a n : Nat) : List Host.Cell :=
  sdrop (fun i => decide (a ≤ i) && decide (i < a + n)) m

/-- A little-endian number (R6). -/
def leNat : Bytes → Nat
  | [] => 0
  | b :: r => b.toNat + 256 * leNat r

/-- A big-endian number. -/
def beNat (b : Bytes) : Nat := leNat b.reverse

/-- The n little-endian bytes of a number (R6). -/
def toLE : Nat → Nat → Bytes
  | 0, _ => []
  | n + 1, x => BitVec.ofNat 8 x :: toLE n (x / 256)

/-- The n big-endian bytes of a number. -/
def toBE (n x : Nat) : Bytes := (toLE n x).reverse

/-- A little-endian number of n bytes at address a. -/
def getLE (m : List Host.Cell) (a n : Nat) : Nat := leNat (getBytes m a n)

/-- The store with the n low bytes of x written from address a, little-endian. -/
def putLE (m : List Host.Cell) (a n x : Nat) : List Host.Cell := putBytes m a (toLE n x)

/-- The little-endian number of bytes [lo, lo + n) of a byte string. -/
def leAt (b : Bytes) (lo n : Nat) : Nat := leNat ((b.drop lo).take n)

end Sys2Proof.Machine
end

