-- ==== Sys2Proof/Machine/Formats.lean ====
section
/-!
DEFINITION. Sys2Proof/Machine/Formats.lean: packed codes, weight elements, A16 blocks, and the narrowing of groups to
MXINT8, K8 and K4 with its error (chapters 3 and 5).
-/
namespace Sys2Proof.Machine

/-- A two's-complement code of b bits. -/
def signed (b x : Nat) : Int := if x % 2 ^ b ≥ 2 ^ (b - 1) then ((x % 2 ^ b : Nat) : Int) - (2 ^ b : Nat) else ((x % 2 ^ b : Nat) : Int)

/-- The low b bits of an integer. -/
def unsigned (b : Nat) (x : Int) : Nat := (x % (2 ^ b : Nat)).toNat

/-- An integer held between two bounds. -/
def clampInt (lo hi x : Int) : Int := max lo (min hi x)

/-- The byte string of n codes of b bits (R50). -/
def packCodes (b : Nat) (l : List Nat) : Bytes :=
  toLE ((b * l.length + 7) / 8) (l.foldr (fun c a => a * 2 ^ b + c % 2 ^ b) 0)

/-- Code i of width b of a byte string (R50). -/
def codeAt (b : Nat) (s : Bytes) (i : Nat) : Nat := bits (leNat s) (b * i) b

/-! ## Weight formats (R46, R48, R51, R67, R68) -/

/-- Bits of one weight code of W_FMT (R71). -/
def wBits (fmt : Nat) : Nat :=
  match fmt with
  | 0 => 4 | 1 => 3 | 2 => 2 | 3 => 4 | 4 => 6 | 5 => 6 | 6 => 8 | 7 => 8 | _ => 8

/-- The exponent offset O of W_FMT (R68). -/
def wOffset (fmt : Nat) : Int :=
  match fmt with
  | 0 => 0 | 1 => 0 | 2 => 0 | 3 => -1 | 4 => -3 | 5 => -4 | 6 => -9 | 7 => -16 | _ => -6

/-- A small float of eb exponent and fb fraction bits with the given bias, as an integer over 2^(1 − bias − fb). -/
def miniInt (eb fb c : Nat) : Int :=
  let f := c % 2 ^ fb
  let e := (c / 2 ^ fb) % 2 ^ eb
  let m : Nat := if e = 0 then f else (2 ^ fb + f) * 2 ^ (e - 1)
  if (c / 2 ^ (fb + eb)) % 2 = 1 then -(m : Int) else m

/-- The multiplier's integer v of a weight code with its zero point (R67). -/
def wInt (fmt c : Nat) (z : Int) : Int :=
  match fmt with
  | 0 => signed 4 c - z
  | 1 => signed 3 c - z
  | 2 => signed 2 c - z
  | 3 => miniInt 2 1 c
  | 4 => miniInt 2 3 c
  | 5 => miniInt 3 2 c
  | 6 => miniInt 4 3 c
  | 7 => miniInt 5 2 c
  | _ => signed 8 c

/-- A code that MODEL_INSTALL refuses (R52): an E4M3 NaN, an E5M2 NaN or infinity, an MXINT8 −128. -/
def wForbidden (fmt c : Nat) : Bool :=
  match fmt with
  | 6 => decide (c % 128 = 127)
  | 7 => decide (c % 128 / 4 = 31)
  | 8 => decide (c = 128)
  | _ => false

/-- Number of slices n of W_FMT (R68). -/
def wSlices (fmt : Nat) : Nat :=
  match fmt with
  | 4 => 2 | 5 => 3 | 6 => 5 | 7 => 8 | 8 => 2 | _ => 1

/-! ## A16 (R54, R55) -/

/-- A block at the array's port: a shared exponent with sixteen mantissas, or a special block and its kind. -/
inductive A16 where
  | special (poison : Bool)
  | block (e : Nat) (m : List Int)
deriving DecidableEq, Repr, Inhabited

/-- The all-zero block. -/
def A16.zero : A16 := .block 0 (List.replicate 16 0)

/-- Sixteen BF16 values to an A16 block (R54). -/
def toA16 (xs : List (BitVec 16)) : A16 :=
  let nonFinite := xs.any fun x => fld x 7 8 = 255
  if nonFinite then .special (xs.any fun x => (bf16 x).isPoison)
  else
    let ex (x : BitVec 16) : Nat := max 1 (fld x 7 8)
    let sg (x : BitVec 16) : Nat := if fld x 7 8 = 0 then fld x 0 7 else 128 + fld x 0 7
    if xs.all fun x => sg x = 0 then A16.zero
    else
      let e := xs.foldl (fun a x => max a (ex x)) 0
      .block e (xs.map fun x =>
        let m := rneScaled false (sg x) 0 (7 - ((e : Int) - (ex x : Int)))
        if bit x 15 then -m else m)

/-! ## Narrowed groups (R58 to R62, R111) -/

/-- A narrowed group: its scale byte, zero point and codes, the values they read back as, and what the unit reports. -/
structure Group where
  scale : Nat
  zp : Int
  codes : List Nat
  back : List Num
  special : Bool
  overflow : Bool
deriving DecidableEq, Repr, Inhabited

/-- The special group of a narrowed format (R55): scale 0xFF, element 0 tells the kind. The spec fixes no more of it; the
codes of the other elements and a K4 zero point are written 0 (DESIGN CHOICE, log entry 110). -/
def specialGroup (n : Nat) (poison : Bool) : Group :=
  { scale := 255, zp := 0, codes := b2n poison :: List.replicate (n - 1) 0, back := List.replicate n (.nan poison),
    special := true, overflow := false }

/-- Whether a finite magnitude m × 2^e is at most c × 2^q. -/
def magLe (m : Nat) (e : Int) (c : Nat) (q : Int) : Bool :=
  let k := min e q
  decide (m * 2 ^ (e - k).toNat ≤ c * 2 ^ (q - k).toNat)

/-- The smallest X with m × 2^e ≤ c × 2^(X + o), for m > 0 and c of b bits; not below −127. -/
def leastX (m : Nat) (e : Int) (c b : Nat) (o : Int) : Int :=
  let x := e + (Nat.log2 m : Int) - ((b : Int) - 1) - o
  max (-127) (if magLe m e c (x + o) then x else x + 1)

/-- Sign, magnitude and exponent of a finite value. -/
def Num.parts : Num → Bool × Nat × Int
  | .fin s m e => (s, m, e)
  | _ => (false, 0, 0)

/-- The largest magnitude of a list of finite values. -/
def amax (xs : List Num) : Num := xs.foldl (fun a x => if a.lt x.abs then x.abs else a) .zero

/-- RNE(x × 2^k) of a finite value. -/
def Num.rne (x : Num) (k : Int) : Int := let p := x.parts; rneScaled p.1 p.2.1 p.2.2 k

/-- An E4M3 code of a finite value (R51, R53); a zero is +0 (R58). -/
def toE4M3 (x : Num) : Nat :=
  let p := x.parts
  let r := (roundMag false 4 (-9) p.2.1 p.2.2).1
  if r = 0 then 0 else r + (b2n p.1) * 128

/-- The value of an E4M3 code; S.1111.111 is NaN (R51). -/
def ofE4M3 (c : Nat) : Num := if c % 128 = 127 then .nan false else Num.ofInt (miniInt 4 3 c) (-9)

/-- A value times 2^k. -/
def Num.scaled (x : Num) (k : Int) : Num :=
  match x with
  | .fin s m e => .fin s m (e + k)
  | y => y

/-- Narrows a group to MXINT8 (R58, R59). -/
def narrowMx (xs : List Num) : Group :=
  if xs.any fun x => !x.isFin then specialGroup xs.length (xs.any Num.isPoison)
  else
    let a := (amax xs).parts
    if a.2.1 = 0 then { scale := 0, zp := 0, codes := xs.map fun _ => 0, back := xs.map fun _ => .zero, special := false,
                        overflow := false }
    else
      let x := min 127 (leastX a.2.1 a.2.2 127 7 (-6))
      let cs := xs.map fun v => v.rne (6 - x)
      let cl := cs.map (clampInt (-127) 127)
      { scale := (x + 127).toNat, zp := 0, codes := cl.map (unsigned 8), back := cl.map fun c => Num.ofInt c (x - 6),
        special := false, overflow := !magLe a.2.1 a.2.2 127 (x - 6) }

/-- Narrows a group to K8 (R58, R60). -/
def narrowK8 (xs : List Num) : Group :=
  if xs.any fun x => !x.isFin then specialGroup xs.length (xs.any Num.isPoison)
  else
    let a := (amax xs).parts
    if a.2.1 = 0 then { scale := 0, zp := 0, codes := xs.map fun _ => 0, back := xs.map fun _ => .zero, special := false,
                        overflow := false }
    else
      let x := min 127 (leastX a.2.1 a.2.2 7 3 6)
      let cs := xs.map fun v => toE4M3 (v.scaled (-x))
      { scale := (x + 127).toNat, zp := 0, codes := cs, special := false, overflow := false,
        back := cs.map fun c => (ofE4M3 c).scaled x }

/-- Scale exponent and zero point of a channel of b-bit codes with minimum lo and maximum hi (R61, R62, R111). -/
def quantParam (b : Nat) (lo hi : Num) : Int × Int :=
  if lo.lt hi then
    let d := (hi.sub lo).parts
    let n := lo.neg.parts
    let h := hi.parts
    let c := 2 ^ b - 1
    let x0 := leastX d.2.1 d.2.2 c b 0
    let x1 := if n.1 || n.2.1 = 0 then x0 else max x0 (leastX n.2.1 n.2.2 c b 0)
    let x := if h.1 || h.2.1 = 0 then x1 else max x1 (leastX h.2.1 h.2.2 c b 0)
    let half : Int := (2 ^ (b - 1) : Nat)
    (x, clampInt (-half) (half - 1) (-half - lo.rne (-x)))
  else
    let c := hi.parts
    if c.2.1 = 0 then (-127, 0)
    else (max (-127) (c.2.2 + (Nat.log2 c.2.1 : Int) - ((b : Int) - 2)), 0)

/-- The code of x under X and z (R61, R62, R111). -/
def quantCode (b : Nat) (x z : Int) (v : Num) : Int :=
  let half : Int := (2 ^ (b - 1) : Nat)
  clampInt (-half) (half - 1) (v.rne (-x) + z)

/-- The smallest of a list of finite values. -/
def minNum (xs : List Num) : Num := xs.tail.foldl (fun a x => if x.lt a then x else a) (xs.headD .zero)

/-- The largest of a list of finite values. -/
def maxNum (xs : List Num) : Num := xs.tail.foldl (fun a x => if a.lt x then x else a) (xs.headD .zero)

/-- Narrows a group to K4 (R61, R62). -/
def narrowK4 (xs : List Num) : Group :=
  if xs.any fun x => !x.isFin then specialGroup xs.length (xs.any Num.isPoison)
  else
    let p := quantParam 4 (minNum xs) (maxNum xs)
    let qs := xs.map (quantCode 4 p.1 p.2)
    { scale := (p.1 + 127).toNat, zp := p.2, codes := qs.map (unsigned 4),
      back := qs.map fun q => Num.ofInt (q - p.2) p.1, special := false, overflow := false }

/-- The error e and the signal s of a group: FP32 sums in ascending order, each step rounded (R100). -/
def groupError (xs back : List Num) : BitVec 32 × BitVec 32 :=
  (xs.zip back).foldl (fun a p =>
    let d := fp32 (toFp32 (p.1.sub p.2)).1
    let d2 := (toFp32 (d.mul d)).1
    let x2 := (toFp32 (p.1.mul p.1)).1
    (add32 a.1 d2, add32 a.2 x2)) (0, 0)

/-! ## Reading narrowed groups back (R63) -/

/-- MXINT8 codes under a scale byte as BF16 (R63, R55). -/
def mxToBf16 (scale : Nat) (codes : List Nat) : List (BitVec 16) :=
  if scale = 255 then codes.map fun _ => (toBf16 (.nan (codes.headD 0 = 1))).1
  else codes.map fun c => (toBf16 (Num.ofInt (signed 8 c) ((scale : Int) - 127 - 6))).1

/-- K8 codes under a scale byte as values. -/
def k8Values (scale : Nat) (codes : List Nat) : List Num :=
  if scale = 255 then codes.map fun _ => .nan (codes.headD 0 = 1)
  else codes.map fun c => (ofE4M3 c).scaled ((scale : Int) - 127)

/-- K4 codes under a scale byte and a zero point as values. -/
def k4Values (scale : Nat) (z : Int) (codes : List Nat) : List Num :=
  if scale = 255 then codes.map fun _ => .nan (codes.headD 0 = 1)
  else codes.map fun c => Num.ofInt (signed 4 c - z) ((scale : Int) - 127)

end Sys2Proof.Machine
end

