-- ==== Sys2Proof/Machine/Accum.lean ====
section
/-!
DEFINITION. Sys2Proof/Machine/Accum.lean: the group, chunk and total of the array and of Prism (R73 to R76, R79, R91), as
pure functions over exact integers.
-/
namespace Sys2Proof.Machine

/-- A total (R75): SIG × 2^(A − 58); no anchor for an empty total. -/
structure Total where
  sig : Int := 0
  anchor : Option Int := none
  chunks : Nat := 0
  nan : Bool := false
  poison : Bool := false
  longsum : Bool := false
  renorm : Nat := 0
deriving DecidableEq, Repr, Inhabited

/-- The 128-bit word of an empty total (R75). -/
def emptyTotal : BitVec 128 := 0x8000 <<< 32

/-- The total in a 128-bit word (R75). -/
def Total.ofWord (w : BitVec 128) : Total :=
  let a := fld w 32 16
  { sig := signed 80 (fld w 48 80), anchor := if a = 0x8000 then none else some (signed 16 a), chunks := fld w 19 13,
    nan := bit w 18, poison := bit w 17, longsum := bit w 16, renorm := fld w 0 16 }

/-- The 128-bit word of a total (R75). -/
def Total.word (t : Total) : BitVec 128 :=
  pack 128 [(48, 80, unsigned 80 t.sig), (32, 16, match t.anchor with | some a => unsigned 16 a | none => 0x8000),
    (19, 13, t.chunks), (18, 1, b2n t.nan), (17, 1, b2n t.poison), (16, 1, b2n t.longsum), (0, 16, t.renorm)]

/-- An integer at unit 2^q moved to unit 2^q', rounded per R53 when q' is larger. -/
def reunit (x q q' : Int) : Int := if q' ≤ q then x * (2 ^ (q - q').toNat : Nat) else rneInt x (q' - q).toNat

/-- A group (R73): its sum s and the sum σ of magnitudes over 2^e enters a chunk (R74): H and c in units of 2^(H − 86). -/
def chunkAdd (c : Option (Int × Int)) (s : Int) (sigma : Nat) (e : Int) : Option (Int × Int) :=
  if sigma = 0 then c
  else
    let m := e + (Nat.log2 sigma : Int)
    match c with
    | none => some (m, reunit s e (m - 86))
    | some (h, x) =>
      let h' := max h m
      some (h', reunit x (h - 86) (h' - 86) + reunit s e (h' - 86))

/-- Renormalises a total (R79 steps 1 to 4). -/
def Total.renormalise (t : Total) : Total :=
  let t' : Total := match t.anchor with
    | some a =>
      if t.sig = 0 then t
      else
        let l := a - 58 + (Nat.log2 t.sig.natAbs : Int)
        let a' := max a (l - 19)
        { t with sig := reunit t.sig (a - 58) (a' - 58), anchor := some a' }
    | none => t
  { t' with chunks := 0, renorm := min 0xFFFF (t.renorm + 1), longsum := true }

/-- Promotes a chunk into a total (R76, R79): the total and the renormalisations this took. A chunk with no group of
non-zero σ is not promoted. -/
def Total.promote (t : Total) (c : Option (Int × Int)) : Total × Nat :=
  match c with
  | none => (t, 0)
  | some (h, x) =>
    let r := if t.chunks + 1 > 4096 then t.renormalise else t
    let a := match r.anchor with
      | some a => max a h
      | none => h
    let old := match r.anchor with
      | some a' => reunit r.sig (a' - 58) (a - 58)
      | none => 0
    ({ r with sig := old + reunit x (h - 86) (a - 58), anchor := some a, chunks := r.chunks + 1 },
     if t.chunks + 1 > 4096 then 1 else 0)

/-- Merges total b into total a (R91): the result and the renormalisations this took. -/
def Total.merge (a b : Total) : Total × Nat :=
  let re := a.renorm ≠ 0 ∨ b.renorm ≠ 0 ∨ a.chunks + b.chunks + 1 > 4096
  let x := if re then a.renormalise else a
  let y := if re then b.renormalise else b
  let an : Option Int := match x.anchor, y.anchor with
    | some p, some q => some (max p q)
    | some p, none => some p
    | none, q => q
  let at' (t : Total) : Int := match t.anchor, an with
    | some p, some q => reunit t.sig (p - 58) (q - 58)
    | _, _ => 0
  ({ sig := at' x + at' y, anchor := an, chunks := x.chunks + y.chunks + 1, nan := a.nan || b.nan,
     poison := a.poison || b.poison, longsum := x.longsum || y.longsum, renorm := min 0xFFFF (x.renorm + y.renorm) },
   if re then 2 else 0)

/-- The value of a total; an empty one is +0, one with NAN a NaN (R75, R81, R87). -/
def Total.value (t : Total) : Num :=
  if t.nan then .nan t.poison
  else match t.anchor with
    | some a => Num.ofInt t.sig (a - 58)
    | none => .zero

end Sys2Proof.Machine
end

