-- ==== Sys2Proof/Config.lean ====
section
/-!
DEFINITION. Sys2Proof/Config.lean: the constants of one package that the spec fixes nowhere. Each is opaque: nothing can
be proved of its value, so a statement holds for every value it may have.
-/
namespace Sys2Proof

/-- Free value (log entry 11): which of the two neighbouring values a function that is exact to within 1 ulp delivers:
the operation's number and its operand's bits give true for the upper one. -/
opaque Config.ulpUp : Nat → BitVec 64 → Bool

/-- Free value (log entry 12): the n-th count of cycles or of time that the spec gives no value for. -/
opaque Config.freeCycles : Nat → Nat

/-- Free value (log entry 35): what LOOP descriptor n leaves in lane and register i of v56 to v63 and t0 to t15. -/
opaque Config.freeLane : Nat → Nat → BitVec 32

/-- Free value (log entry 35): what LOOP descriptor n leaves in predicate i. -/
opaque Config.freePred : Nat → Nat → BitVec 1024

/-- Free value: 512 bits whose layout or source the spec does not give (log entries 41, 42). -/
opaque Config.freeBits : Nat → BitVec 512

/-- Free value (log entry 119): REF of a TOTALS record whose reference exponent 16 bits do not hold. -/
opaque Config.freeRef : Int → BitVec 16

/-- Free value (log entry 120): the rank of a summary slot of frame, layer and group that SUMMARY_VALID covers and nothing has
written yet. -/
opaque Config.freeRank : Nat → Nat → Nat → BitVec 32

/-- Free value (log entry 41): the digest of Umathal's ROM, which no command changes. -/
opaque Config.romDigest : BitVec 512

end Sys2Proof
end

