-- ==== Sys2Proof/Machine/Idle.lean ====
section
/-!
DEFINITION. Sys2Proof/Machine/Idle.lean: what passes while no command waits, and the outcome of a command.
-/
namespace Sys2Proof.Machine

/-- With no command waiting the local time counter advances by one cycle of AON_REFCLK while that clock runs and the
rails are in range; nothing else moves (R396; log entry 7). -/
def idle (s : State) : State :=
  if s.pins.aonRefclk && s.pins.rails.getLsbD 0 then
    { s with boot := { s.boot with localTime := s.boot.localTime + 1 } }
  else s

/-- The outcome of a command that began in s and leaves t: the queue of waiting commands is as it was. -/
def done (s t : State) : Host.Outcome State Fault Refusal := .next { t with pending := s.pending }

end Sys2Proof.Machine
end

