-- ==== Sys2Proof/Machine/Ops.lean ====
section
/-!
DEFINITION. Sys2Proof/Machine/Ops.lean: the named operations over the package's state that every family uses: reaching a
tile, a function, a ring, a model, a port or a sequence; the records written towards the host (R42, R354, R357, R358);
the error log (R414); the sticky flags (R151); free counts (log entry 12).
-/
namespace Sys2Proof.Machine

/-! ## Reaching the parts of the state -/

/-- The state with tile t replaced by g of it. -/
def State.modTile (s : State) (t : TileIx) (g : Tile → Tile) : State := { s with tiles := vmod s.tiles t g }

/-- The state with function f replaced by g of it. -/
def State.modFn (s : State) (f : Fn) (g : Func → Func) : State := { s with fns := vmod s.fns f g }

/-- The state with model slot m replaced by g of it. -/
def State.modModel (s : State) (m : SlotIx) (g : Model → Model) : State := { s with models := vmod s.models m g }

/-- The state with the pool of model m replaced by g of it. -/
def State.modPool (s : State) (m : SlotIx) (g : Pool → Pool) : State :=
  s.modModel m fun x => { x with pool := g x.pool }

/-- The state with port p replaced by g of it. -/
def State.modPort (s : State) (p : PortIx) (g : Port → Port) : State := { s with ports := vmod s.ports p g }

/-- The state with the record of what model m's load carved replaced by g of it. -/
def State.modLoad (s : State) (m : SlotIx) (g : Load → Load) : State :=
  s.modModel m fun x => { x with load := x.load.map g }

/-- The state with the power block replaced by g of it. -/
def State.modPower (s : State) (g : Power → Power) : State := { s with power := g s.power }

/-- The state with the bring-up block replaced by g of it. -/
def State.modBoot (s : State) (g : Boot → Boot) : State := { s with boot := g s.boot }

/-- The state with Umathal replaced by g of it. -/
def State.modUm (s : State) (g : Umathal → Umathal) : State := { s with um := g s.um }

/-- The state with the synchronisation units replaced by g of them. -/
def State.modSync (s : State) (g : Sync → Sync) : State := { s with sync := g s.sync }

/-- The function's ring n of set k. -/
def State.ring (s : State) (f : Fn) (k : SetIx) (n : RingIx) : Ring := s.fns[f].rings[k][n]

/-- The state with ring n of set k of function f replaced by g of it. -/
def State.modRing (s : State) (f : Fn) (k : SetIx) (n : RingIx) (g : Ring → Ring) : State :=
  s.modFn f fun x => { x with rings := vmod x.rings k fun v => vmod v n g }

/-- The sequence that a key names (R352). -/
def State.seq? (s : State) (h : Key) : Option Seq := s.seqs.find? fun q => q.handle = h

/-- The state with the sequence of handle h replaced by g of it. -/
def State.modSeq (s : State) (h : Key) (g : Seq → Seq) : State :=
  { s with seqs := updFirst (fun q => decide (q.handle = h)) g s.seqs }

/-- The open cohort c of model m (R27). -/
def State.cohort? (s : State) (m : SlotIx) (c : CohIx) : Option Cohort :=
  s.cohorts.find? fun k => decide (k.model = m) && decide (k.index = c)

/-- The state with the open cohort c of model m replaced by g of it. -/
def State.modCohort (s : State) (m : SlotIx) (c : CohIx) (g : Cohort → Cohort) : State :=
  { s with cohorts := updFirst (fun k => decide (k.model = m) && decide (k.index = c)) g s.cohorts }

/-- The image of a slot. -/
def State.image? (s : State) (m : SlotIx) : Option Image := s.models[m].image

/-- What the load of a slot carved, once the slot is LOADING or LOADED. -/
def State.load? (s : State) (m : SlotIx) : Option Load := s.models[m].load

/-- The slot is LOADED (R252). -/
def State.loaded (s : State) (m : SlotIx) : Bool := decide (s.models[m].state = .loaded)

/-- The function of a handle (R21). -/
def handleFn (h : BitVec 32) : Fn := Fin.ofNat 16 (fld h 28 4)

/-- The slot of a handle (R21). -/
def handleSlot (h : BitVec 32) : Nat := fld h 0 14

end Sys2Proof.Machine

namespace Sys2Proof

/-- The function of a sequence (R21, R330): the same on every package of its slice. -/
def Key.fn (h : Key) : Fn := Machine.handleFn h.handle

/-- The slot of a sequence (R21). -/
def Key.slot (h : Key) : Nat := Machine.handleSlot h.handle

/-- The sequence is homed on this package (R26). -/
def Key.isOwn (h : Key) : Bool := h.home.isNone

/-- A node is full (R180). -/
def Node.full (n : Node) : Bool := decide (n.tokens.length = 256)

end Sys2Proof

namespace Sys2Proof.Machine

/-- The local time counter (R396). -/
def State.now (s : State) : BitVec 64 := s.boot.localTime

/-- A free count of cycles or of time (log entry 12), and the state with the counter of free values advanced. -/
def State.draw (s : State) : Nat × State := (Config.freeCycles s.fresh, { s with fresh := s.fresh + 1 })

/-- The package is READY (R393). -/
def State.isReady (s : State) : Bool := decide (s.boot.stage = .ready)

/-- RACK_ID of the wiring plan in force (R314); 0 without a committed plan (R315). -/
def State.rackId (s : State) : Nat :=
  match s.um.live.plan with
  | some p => p.rackId.toNat
  | none => 0

/-- The package's Malny address (R312): RACK_ID, BOARD_ID, SLOT_ID. -/
def State.address (s : State) : BitVec 16 :=
  BitVec.ofNat 16 (s.rackId * 256 + s.boot.boardId.toNat * 16 + s.boot.slotId.toNat)

/-! ## Rings towards the host (R342, R344, R347) -/

/-- Entries of the ring. -/
def Ring.size (r : Ring) : Nat := 2 ^ r.log2.toNat

/-- The index after i. -/
def Ring.succ (r : Ring) (i : BitVec 16) : BitVec 16 := BitVec.ofNat 16 ((i.toNat + 1) % r.size)

/-- Records written and not yet read by the host. -/
def Ring.used (r : Ring) : Nat := (r.index.toNat + r.size - r.doorbell.toNat) % r.size

/-- The device may write a record (R344). -/
def Ring.room (r : Ring) : Bool := r.enable && r.succ r.index != r.doorbell

/-- Slots of a device-to-host ring that are neither used nor reserved (R345). -/
def Ring.unreserved (r : Ring) : Nat := if r.enable then r.size - 1 - r.used - r.reserved else 0

/-- Entries of a host-to-device ring that are not yet taken (R344). -/
def Ring.untaken (r : Ring) : Nat := (r.doorbell.toNat + r.size - r.index.toNat) % r.size

/-- The ring after one record: INDEX advances and PHASE inverts on a wrap (R344). -/
def Ring.advance (r : Ring) : Ring :=
  let i := r.succ r.index
  { r with index := i, phase := if i.toNat = 0 then !r.phase else r.phase }

/-- The interrupt of one record written to the ring (R357): whether VECTOR is raised now, and the ring after it. -/
def Ring.signal (r : Ring) : Bool × Ring :=
  if !r.irqEn then (false, r)
  else if r.coalUs = 0 || decide (r.unsignalled + 1 ≥ max 1 r.coalCount.toNat) then (true, { r with unsignalled := 0 })
  else (false, { r with unsignalled := r.unsignalled + 1 })

/-- The function may write to host memory (R347). -/
def State.busMaster (s : State) (f : Fn) : Bool := s.fns[f].bme

/-- Posts one item towards the host. -/
def State.post (s : State) (o : HostOut) : State := { s with out := s.out ++ [o] }

/-- Advances a device-to-host ring past the record just posted and raises its interrupt (R357). -/
def State.recordDone (s : State) (f : Fn) (k : SetIx) (n : RingIx) (release : Bool) : State :=
  let r := (s.ring f k n).advance
  let r := if release then { r with reserved := r.reserved - 1 } else r
  let g := r.signal
  let s := s.modRing f k n fun _ => g.2
  if g.1 then s.post (.msix f r.vector) else s

/-- Writes a completion record whose slot is reserved, or holds it while the function cannot be written (R345, R347,
R354). -/
def State.putCompletion (s : State) (f : Fn) (k : SetIx) (rec : BitVec 512) (reserved : Bool) : State :=
  let r := s.ring f k 2
  if s.busMaster f && r.room then
    let w := if r.phase then setBit rec 63 else clrBit rec 63
    (s.post (.completion f k r.index w)).recordDone f k 2 reserved
  else { s with held := s.held ++ [.completion f k rec] }

/-- Writes an emission record whose slot is reserved, or holds it (R42, R43, R347). -/
def State.putEmission (s : State) (f : Fn) (k : SetIx) (rec : BitVec 128) (reserved : Bool) : State :=
  let r := s.ring f k 3
  if s.busMaster f && r.room then
    let w := if r.phase then setBit rec 95 else clrBit rec 95
    (s.post (.emission f k r.index w)).recordDone f k 3 reserved
  else { s with held := s.held ++ [.emission f k rec] }

/-- A held completion record with the SQ_HEAD and TIME of its writing (R354). -/
def State.refreshed (s : State) (f : Fn) (k : SetIx) (rec : BitVec 512) : BitVec 512 :=
  setFld (setFld rec 96 16 (s.ring f k (if bit rec 50 then 0 else 1)).index.toNat) 256 64 s.now.toNat

/-- One held record of a function written once it can be (R347); the others keep their order. -/
def State.flushOne (s : State) (f : Fn) (h : Held) : State :=
  match h with
  | .completion g k rec =>
    if g = f then s.putCompletion f k (s.refreshed f k rec) (decide (0 < (s.ring f k 2).reserved)) else { s with held := s.held ++ [h] }
  | .emission g k rec =>
    if g = f then s.putEmission f k rec (decide (0 < (s.ring f k 3).reserved)) else { s with held := s.held ++ [h] }

/-- A record of a sequence homed on this package is held (R347). -/
def State.holds (s : State) (h : Key) : Bool :=
  h.isOwn && s.held.any fun x => match x with
    | .completion f _ rec => decide (f = h.fn) && decide (rec.extractLsb' 64 32 = h.handle)
    | .emission f _ rec => decide (f = h.fn) && decide (rec.extractLsb' 0 32 = h.handle)

/-- A sequence whose final completion is written, and every record before it, goes from ENDING to ENDED (R22). -/
def State.endWrites (s : State) : State :=
  { s with seqs := s.seqs.map fun q => if q.state = .ending ∧ !s.holds q.handle then { q with state := .ended } else q }

/-- Writes the records held for a function, in the order in which they fell due (R347). -/
def State.flushHeld (s : State) (f : Fn) : State :=
  (s.held.foldl (fun (a : State) h => a.flushOne f h) { s with held := [] }).endWrites

/-! ## Completions (R354) -/

/-- The 64-byte completion record without its PHASE. -/
def completionRecord (tag : BitVec 32) (status opcode : BitVec 8) (set : SetIx) (admin : Bool) (handle : BitVec 32)
    (sqHead : BitVec 16) (position emitted : Nat) (detail time : BitVec 64) : BitVec 512 :=
  pack 512 [(0, 32, tag.toNat), (32, 8, status.toNat), (40, 8, opcode.toNat), (48, 2, set.val), (50, 1, b2n admin),
    (64, 32, handle.toNat), (96, 16, sqHead.toNat), (128, 28, position), (160, 28, emitted), (192, 64, detail.toNat),
    (256, 64, time.toNat)]

/-- A command's entry is open: taken, and not yet completed (R345). -/
def State.isOpen (s : State) (e : Sub) (admin : Bool) : Bool :=
  s.fns[e.fn].openReqs.any fun o => decide (o.sub = e) && (o.admin == admin)

/-- The first element that satisfies p left out. -/
def dropFirst {α : Type} (p : α → Bool) : List α → List α
  | [] => []
  | x :: r => if p x then r else x :: dropFirst p r

/-- Completes an entry with the whole record (R354): the entry is open no longer and its reservation is used. -/
def State.completeFull (s : State) (e : Sub) (admin : Bool) (opcode status : BitVec 8) (handle : BitVec 32)
    (position emitted : Nat) (detail : BitVec 64) : State :=
  let wasOpen := s.isOpen e admin
  let s := s.modFn e.fn fun f => { f with openReqs := dropFirst (fun o => decide (o.sub = e) && (o.admin == admin)) f.openReqs }
  let head := (s.ring e.fn e.set (if admin then 0 else 1)).index
  s.putCompletion e.fn e.set
    (completionRecord e.tag status opcode e.set admin handle head position emitted detail s.now) wasOpen

/-- Completes an admin command (R354: HANDLE, POSITION and EMITTED zero). -/
def State.completeAdmin (s : State) (e : Sub) (opcode status : BitVec 8) (detail : BitVec 64 := 0) : State :=
  s.completeFull e true opcode status 0 0 0 detail

/-- Completes a request that names no sequence's position (R354). -/
def State.completeReq (s : State) (e : Sub) (opcode status : BitVec 8) (handle : BitVec 32)
    (detail : BitVec 64 := 0) : State :=
  s.completeFull e false opcode status handle 0 0 detail

/-! ## Events (R358 to R360) -/

/-- The lowest set of a function whose event ring is enabled (R360). -/
def State.eventSet (s : State) (f : Fn) : Option SetIx :=
  (List.finRange 4).find? fun k => (s.ring f k 4).enable

/-- An event record without its PHASE (R358): code, unit, LOST, address, time and the ARGS from 0x10. -/
def eventRecord (code unit lost : Nat) (address : BitVec 16) (time : BitVec 64) (args : BitVec 384) : BitVec 512 :=
  pack 512 [(0, 8, code), (8, 4, unit), (16, 16, min lost 0xFFFF), (32, 16, address.toNat), (64, 64, time.toNat),
    (128, 384, args.toNat)]

/-- An event that is dropped: counted in EVENTS_LOST, and in LOST of the ring's next record (R360, R347). -/
def State.loseEvent (s : State) (f : Fn) (k : Option SetIx) : State :=
  let s := s.modFn f fun x => { x with stat := bump x.stat 32 16 1 }
  match k with
  | some k => s.modRing f k 4 fun r => { r with lost := r.lost + 1 }
  | none => s

/-- Reports an event to a function (R360): written to the event ring of its lowest enabled set, or lost. The ARGS are
fields (bit position from 0x10, width, value). -/
def State.event (s : State) (f : Fn) (code unit : Nat) (args : List (Nat × Nat × Nat)) : State :=
  match s.eventSet f with
  | none => s.loseEvent f none
  | some k =>
    let r := s.ring f k 4
    if s.busMaster f && r.room then
      let w := eventRecord code unit r.lost s.address s.now (pack 384 args)
      let w := if r.phase then setBit w 63 else w
      let s := s.post (.event f k r.index w)
      let s := s.recordDone f k 4 false
      s.modRing f k 4 fun r => { r with lost := 0 }
    else s.loseEvent f (some k)

/-! ## The error log (R414) -/

/-- An entry of the error log. -/
def errEntry (time : BitVec 64) (cls unit scope fn index model layer : Nat) : BitVec 128 :=
  pack 128 [(64, 64, time.toNat), (63, 1, 1), (48, 8, cls), (44, 4, unit), (41, 3, scope), (37, 4, fn), (16, 16, index),
    (8, 8, model), (0, 8, layer)]

/-- Places an entry at NEXT; an entry with VALID set that is overwritten is counted (R414). -/
def State.putErrLog (s : State) (e : BitVec 128) : State :=
  let n := Fin.ofNat 64 (fld s.boot.errCtl 0 6)
  let ctl := if bit s.boot.errLog[n] 63 then bump s.boot.errCtl 32 32 1 else s.boot.errCtl
  s.modBoot fun b => { b with errLog := b.errLog.set n e, errCtl := setFld ctl 0 6 (n.val + 1) }

/-- Writes one entry for an error whose Ends column is not Nothing (R407, R414). -/
def State.logError (s : State) (cls unit scope fn index model layer : Nat) : State :=
  s.putErrLog (errEntry s.now cls unit scope fn index model layer)

/-! ## Tile registers -/

/-- Sets bits of TILE_STICKY (R151). -/
def State.sticky (s : State) (t : TileIx) (m : BitVec 64) : State := s.modTile t fun x => { x with sticky := x.sticky ||| m }

/-- NUMERIC_NAN of TILE_STICKY (R151). -/
def stNan : BitVec 64 := 0x002
/-- OVERFLOW of TILE_STICKY. -/
def stOverflow : BitVec 64 := 0x004
/-- EXP_MALFORMED of TILE_STICKY. -/
def stMalformed : BitVec 64 := 0x020
/-- LONGSUM of TILE_STICKY. -/
def stLongsum : BitVec 64 := 0x040
/-- EMPTY_ROW of TILE_STICKY. -/
def stEmptyRow : BitVec 64 := 0x080

/-- The scratchpad bytes of a tile. -/
def State.scrGet (s : State) (t : TileIx) (a n : Nat) : Bytes := getBytes s.tiles[t].scratch a n

/-- The state with bytes written to a tile's scratchpad. -/
def State.scrPut (s : State) (t : TileIx) (a : Nat) (b : Bytes) : State :=
  s.modTile t fun x => { x with scratch := putBytes x.scratch a b }

/-- The state with an n-byte little-endian number written to a tile's scratchpad. -/
def State.scrPutLE (s : State) (t : TileIx) (a n x : Nat) : State := s.scrPut t a (toLE n x)

/-- The function that owns the work of a loaded model: the owner of its job slice (R123, R286). -/
def State.ownerOf (s : State) (m : SlotIx) : Fn :=
  match s.load? m with
  | some l => l.owner
  | none => 0

/-- Base of a model's scratchpad region on a tile (R272). -/
def State.spBase (s : State) (m : SlotIx) (t : TileIx) : Nat :=
  match s.load? m with
  | some l => l.spBase[t]
  | none => 0

/-- A section is for a part: PART names it, or 0xFF (R268). -/
def inPart (part : Nat) (x : Section) : Bool := decide (x.part.toNat = part) || decide (x.part = 255)

/-- What p finds in the first section of a part that has it (R268). -/
def partBody {α : Type} (im : Image) (part : Nat) (p : SecBody → Option α) : Option α :=
  im.sections.findSome? fun x => if inPart part x then p x.body else none

/-- What p finds in a slot's image, for this package's part (R268). -/
def State.ownBody {α : Type} (s : State) (m : SlotIx) (p : SecBody → Option α) : Option α :=
  match s.image? m with
  | some im => partBody im s.models[m].part p
  | none => none

/-- The step programs a section holds. -/
def SecBody.programs? : SecBody → Option Programs
  | .programs p => some p
  | _ => none

/-- The page geometry a section holds (R158). -/
def SecBody.geometry? : SecBody → Option Geometry
  | .geometry g => some g
  | _ => none

/-- The rotary tables a section holds (R202). -/
def SecBody.rotary? : SecBody → Option (List RotTable)
  | .rotary t => some t
  | _ => none

/-- The Lens entries a section holds (R223). -/
def SecBody.lens? : SecBody → Option (List (BitVec 32))
  | .lens e => some e
  | _ => none

/-- The speculation record a section holds (R236). -/
def SecBody.speculation? : SecBody → Option SpecDecl
  | .speculation d => some d
  | _ => none

/-- The drift monitors a section declares (R103). -/
def SecBody.monitors? : SecBody → Option (List (BitVec 32 × BitVec 32))
  | .monitors l => some l
  | _ => none

/-- The resident multipliers a section holds (R97). -/
def SecBody.scales? : SecBody → Option (Vector (List (BitVec 32)) 4)
  | .scales v => some v
  | _ => none

/-- The operand-cache contents a section holds (R138). -/
def SecBody.opcache? : SecBody → Option (Vector (List Host.Cell) 4)
  | .opcache v => some v
  | _ => none

/-- The step programs of a slot's image for its part of the package (R268). -/
def imagePrograms (im : Image) (part : Nat) : Option Programs := partBody im part SecBody.programs?

/-- The step programs of a model slot. -/
def State.programs? (s : State) (m : SlotIx) : Option Programs := s.ownBody m SecBody.programs?

end Sys2Proof.Machine
end

