-- ==== Sys2Proof/Machine/Ploryn.lean ====
section
/-!
DEFINITION. Sys2Proof/Machine/Ploryn.lean: the Ploryn block: its encoder, its decoder and the causes of a malformed block
(chapter 6, R116 to R122). A block is a number of 448 bits, bit 8k + j being bit j of byte k.
-/
namespace Sys2Proof.Machine

/-- What a decoder made of a block (R117, R121, R122). -/
inductive PlorynOut where
  | ok (flat : Bool) (b : Nat) (xs : List (BitVec 16))
  | special (poison : Bool)
  | malformed (cause : Nat) (b : Nat)
deriving DecidableEq, Repr, Inhabited

/-- The n low bits of x in the opposite order: a code of R118 as it is written, its first bit most significant, as the
number whose bit 0 lies lowest in the stream; and back. -/
def revBits : Nat → Nat → Nat
  | 0, _ => 0
  | n + 1, x => x % 2 * 2 ^ n + revBits n (x / 2)

/-- The code of a delta (R118): length and stream bits, prefix first, value most significant bit first. -/
def deltaCode (d : Nat) : Nat × Nat :=
  if d ≤ 1 then (2, revBits 2 d)
  else if d ≤ 3 then (3, revBits 3 (4 + (d - 2)))
  else if d ≤ 5 then (4, revBits 4 (12 + (d - 4)))
  else if d ≤ 9 then (7, revBits 7 (28 * 4 + (d - 6)))
  else if d ≤ 17 then (8, revBits 8 (29 * 8 + (d - 10)))
  else (13, revBits 13 (30 * 256 + d))

/-- The code of a run of n zero elements (R118). -/
def runCode (n : Nat) : Nat × Nat := (11, revBits 11 (31 * 64 + (n - 1)))

/-- The CODED stream of a list of deltas, none for a zero element (R118, R120 step 3): its length and bits. -/
def codedStream : Nat → List (Option Nat) → Nat → Nat × Nat
  | 0, _, _ => (0, 0)
  | _, [], run => if run = 0 then (0, 0) else runCode run
  | f + 1, none :: r, run => codedStream f r (run + 1)
  | f + 1, some d :: r, run =>
    let rest := codedStream f r 0
    let c := deltaCode d
    let a := (c.1 + rest.1, c.2 + rest.2 * 2 ^ c.1)
    if run = 0 then a else let z := runCode run; (z.1 + a.1, z.2 + a.2 * 2 ^ z.1)

/-- The mantissa budget MB, XB for n non-zero elements and B stream bits (R119). -/
def plorynBudget (n b : Nat) : Nat × Nat :=
  let l := 364 - b
  let mb := if n = 0 then 7 else min 7 (l / n)
  (mb, if mb < 7 then l - n * mb else 0)

/-- Packs the top w bits of each fraction, lowest first (R119, R120 step 5). -/
def packFractions : List Nat → Nat → Nat → Nat → Nat × Nat
  | [], _, _, _ => (0, 0)
  | f :: r, k, mb, xb =>
    let w := if k < xb then mb + 1 else mb
    let rest := packFractions r (k + 1) mb xb
    (w + rest.1, f / 2 ^ (7 - w) + rest.2 * 2 ^ w)

/-- Encodes 64 BF16 elements (R120): the block, and T when the block is CODED or FLAT. -/
def plorynEncode (xs : List (BitVec 16)) : Nat × Option Nat :=
  let exF (x : BitVec 16) : Nat := fld x 7 8
  if xs.any fun x => exF x = 255 then
    let nan := xs.any fun x => (bf16 x).isNan
    let poison := xs.any fun x => (bf16 x).isPoison
    (if nan && poison then 3 * 256 else 2 * 256, none)
  else
    let nz (x : BitVec 16) : Bool := fld x 0 15 ≠ 0
    let emax := xs.foldl (fun a x => if nz x then max a (exF x) else a) 0
    let ds := xs.map fun x => if nz x then some (emax - exF x) else none
    let cs := codedStream 65 ds 0
    let flat := cs.1 > 364
    let keep := xs.map fun x => nz x && !(flat && decide (emax - exF x ≥ 31))
    let b := if flat then 320 else cs.1
    let stream := if flat then
        (List.zip xs keep).foldr (fun p a => a * 32 + (if p.2 then emax - exF p.1 else 31)) 0
      else cs.2
    let signs := (List.zip xs keep).foldr (fun p a => a * 2 + b2n (p.2 && bit p.1 15)) 0
    let fr := (List.zip xs keep).filterMap fun p => if p.2 then some (fld p.1 0 7) else none
    let m := plorynBudget fr.length b
    let pf := packFractions fr 0 m.1 m.2
    let hdr := emax + (if flat then 256 else 0) + m.1 * 1024 + m.2 * 8192
    (hdr + signs * 2 ^ 20 + stream * 2 ^ 84 + pf.2 * 2 ^ (448 - pf.1), some pf.1)

/-- The bits [pos, pos + n) of a block read most significant first. -/
def msb (x pos n : Nat) : Nat := revBits n (bits x pos n)

/-- One code of the CODED stream at bit pos: its length, and a run (none, count) or a delta (R118). -/
def readCode (x pos : Nat) : Nat × (Nat ⊕ Nat) :=
  if msb x pos 1 = 0 then (2, .inr (msb x (pos + 1) 1))
  else if msb x (pos + 1) 1 = 0 then (3, .inr (2 + msb x (pos + 2) 1))
  else if msb x (pos + 2) 1 = 0 then (4, .inr (4 + msb x (pos + 3) 1))
  else
    match msb x (pos + 3) 2 with
    | 0 => (7, .inr (6 + msb x (pos + 5) 2))
    | 1 => (8, .inr (10 + msb x (pos + 5) 3))
    | 2 => (13, .inr (msb x (pos + 5) 8))
    | _ => (11, .inl (msb x (pos + 5) 6 + 1))

/-- Reads the CODED stream until 64 elements are known (R118, R122): the deltas and the stream's length, or the cause
and the bits read. -/
def readStream (x emax : Nat) : Nat → Nat → List (Option Nat) → Nat × Nat ⊕ List (Option Nat) × Nat
  | 0, pos, _ => .inl (1, pos - 84)
  | f + 1, pos, acc =>
    if acc.length ≥ 64 then .inr (acc, pos - 84)
    else if pos ≥ 448 then .inl (1, pos - 84)
    else
      let c := readCode x pos
      if pos + c.1 > 448 then .inl (1, 448 - 84)
      else
        match c.2 with
        | .inl n =>
          if acc.length + n > 64 then .inl (2, pos + c.1 - 84)
          else readStream x emax f (pos + c.1) (acc ++ List.replicate n none)
        | .inr d =>
          if d > emax || (c.1 = 13 && decide (d < 18)) then .inl (3, pos + c.1 - 84)
          else readStream x emax f (pos + c.1) (acc ++ [some d])

/-- Rebuilds the elements from signs, deltas and stored fractions (R121). -/
def plorynElements (x emax mb xb : Nat) : List (Option Nat) → Nat → Nat → Nat → List (BitVec 16)
  | [], _, _, _ => []
  | none :: r, i, k, o => 0 :: plorynElements x emax mb xb r (i + 1) k o
  | some d :: r, i, k, o =>
    let w := if k < xb then mb + 1 else mb
    let f := bits x o w
    let frac := if w ≥ 7 then f else f * 2 ^ (7 - w) + 2 ^ (6 - w)
    BitVec.ofNat 16 (bits x (20 + i) 1 * 2 ^ 15 + (emax - d) * 128 + frac) ::
      plorynElements x emax mb xb r (i + 1) (k + 1) (o + w)

/-- Decodes a block (R121, R122). Where several conditions of R122 hold the spec does not say which CAUSE is given
(DESIGN CHOICE, log entry 109): HEADER first, then EMAX 255, then what the stream shows in its order, then SPLIT. -/
def plorynDecode (x : Nat) : PlorynOut :=
  let kind := bits x 8 2
  if bits x 19 1 = 1 then .malformed 5 0
  else if kind ≥ 2 then .special (kind == 3)
  else
    let emax := bits x 0 8
    if emax = 255 then .malformed 3 0
    else
      let st : Nat × Nat ⊕ List (Option Nat) × Nat :=
        if kind = 1 then
          let ds := (List.range 64).map fun i => bits x (84 + 5 * i) 5
          if ds.any fun d => d ≠ 31 && d > emax then .inl (3, 320)
          else .inr (ds.map (fun d => if d = 31 then none else some d), 320)
        else readStream x emax 66 84 []
      match st with
      | .inl (c, b) => .malformed c b
      | .inr (ds, b) =>
        let n := (ds.filter Option.isSome).length
        let m := plorynBudget n b
        if m.1 ≠ bits x 10 3 || m.2 ≠ bits x 13 6 then .malformed 4 b
        else .ok (kind = 1) b (plorynElements x emax m.1 m.2 ds 0 0 (448 - (n * m.1 + m.2)))

/-- The 64 BF16 values a block reads as (R121, R122). -/
def PlorynOut.values : PlorynOut → List (BitVec 16)
  | .ok _ _ xs => xs
  | .special p => List.replicate 64 (if p then 0x7FF1 else 0x7FC0)
  | .malformed _ _ => List.replicate 64 0x7FF1

/-- The decoder is busy for more than 4 cycles (R126, R131). -/
def PlorynOut.slow : PlorynOut → Bool
  | .ok _ b _ => decide (b > 192)
  | .special _ => false
  | .malformed _ b => decide (b > 192)

end Sys2Proof.Machine
end

