-- ==== Sys2Proof/Machine/PlorynOps.lean ====
section
/-!
DEFINITION. Sys2Proof/Machine/PlorynOps.lean: decoding and encoding Ploryn blocks on a tile, with their counters, the
record of a malformed block and its event (R123, R131).
-/
namespace Sys2Proof.Machine

/-- What the unit that decodes a block reports of it (R123, R131). -/
structure BlockCtx where
  tile : TileIx
  model : Option SlotIx
  layer : Nat
  row : Nat
  /-- SOURCE of R131: 0 Collimator, 1 vector engine load, 2 hub receive. -/
  source : Nat
  /-- the unit is one whose blocks TILE_PLORYN_DEC counts: the Collimator, a vector load, a hub's receipt (R131). -/
  counted : Bool := true
  /-- the function that receives the event. -/
  owner : Fn
deriving DecidableEq, Repr, Inhabited

/-- A malformed block (R123): the sticky flag, the count, the first record, and one event for the operation. -/
def State.malformedBlock (s : State) (b : BlockCtx) (addr cause : Nat) (first : Bool) : State :=
  let s := s.sticky b.tile stMalformed
  let s := s.modTile b.tile fun x => { x with
    plorynDec := bump x.plorynDec 48 16 1
    plorynBad := if bit x.plorynBad 63 then x.plorynBad else
      pack 64 [(63, 1, 1), (57, 3, cause), (55, 2, b.source), (47, 8, b.layer), (42, 5, b.row), (0, 28, addr)] }
  if first then
    s.event b.owner 0x0F b.tile.val [(0, 16, (b.model.map (·.val)).getD 0), (32, 8, b.layer), (64, 5, b.row), (96, 3, cause),
      (100, 2, b.source)]
  else s

/-- A block decoded, as TILE_PLORYN_DEC counts it (R131). -/
def State.countDecoded (s : State) (b : BlockCtx) (flat : Bool) : State :=
  if b.counted then
    s.modTile b.tile fun x => { x with
      plorynDec := let y := bump x.plorynDec 0 32 1; if flat then bump y 32 16 1 else y }
  else s

/-- Decodes the 56 bytes of a block for a tile: its 64 values, whether an event of the operation is written by now, and
the state with the counters of R131. -/
def State.decodeBlock (s : State) (b : BlockCtx) (addr : Nat) (block : Bytes) (seen : Bool) :
    List (BitVec 16) × Bool × State :=
  let o := plorynDecode (leNat block)
  match o with
  | .malformed cause _ => (o.values, true, s.malformedBlock b addr cause (!seen))
  | .ok flat _ xs => (xs, seen, s.countDecoded b flat)
  | .special _ => (o.values, seen, s.countDecoded b false)

/-- Encodes 64 BF16 elements on a tile, counting the block: what the tile's vector store and EXCHANGE WIDE do (R120,
R131). -/
def State.encodeBlock (s : State) (t : TileIx) (xs : List (BitVec 16)) : Bytes × State :=
  let r := plorynEncode xs
  let s := match r.2 with
    | some n => s.modTile t fun x => { x with plorynEnc := bump (bump x.plorynEnc 0 32 1) 32 32 n }
    | none => s
  (toLE 56 r.1, s)

end Sys2Proof.Machine
end

