-- ==== Sys2Proof/Machine/SyncOps.lean ====
section
/-!
DEFINITION. Sys2Proof/Machine/SyncOps.lean: sync words, watches and owners (chapter 13): the operations of R290, the
release of watches (R293), the binding and loss of owners (R286, R306), and the WAIT and DONE of a descriptor (R288,
R297, R298).
-/
namespace Sys2Proof.Machine

/-- Statuses of R291. -/
def syOk : BitVec 3 := 0
/-- FILL met a full word. -/
def syFull : BitVec 3 := 1
/-- A watch was registered. -/
def syWatching : BitVec 3 := 2
/-- The tenant check failed. -/
def syDenied : BitVec 3 := 3
/-- The word is poisoned. -/
def syOwnerLost : BitVec 3 := 4
/-- No watch entry was free. -/
def syNoWatch : BitVec 3 := 5
/-- A carried FILL named an earlier step. -/
def syStale : BitVec 3 := 6

/-- A sync word (R284). -/
def State.word (s : State) (w : BitVec 16) : BitVec 64 := sget 0 s.sync.words w.toNat

/-- The state with a sync word written. -/
def State.putWord (s : State) (w : BitVec 16) (x : BitVec 64) : State :=
  s.modSync fun y => { y with words := sput 0 y.words w.toNat x }

/-- FULL of a word (R284). -/
def wFull (x : BitVec 64) : Bool := bit x 63
/-- POISONED of a word. -/
def wPoisoned (x : BitVec 64) : Bool := bit x 62
/-- TENANT of a word. -/
def wTenant (x : BitVec 64) : Fn := Fin.ofNat 16 (fld x 58 4)
/-- OWNER of a word. -/
def wOwner (x : BitVec 64) : Nat := fld x 48 10
/-- VALUE of a word. -/
def wValue (x : BitVec 64) : BitVec 48 := x.extractLsb' 0 48

/-- The home of a word (R283): 0 the hub, 1 to 4 for T0 to T3. -/
def wordHome (w : BitVec 16) : Nat :=
  if w.toNat < 0x4000 then 0 else if w.toNat < 0x7000 then 1 else if w.toNat < 0xA000 then 2
  else if w.toNat < 0xD000 then 3 else 4

/-- First word of a home (R283). -/
def homeBase (h : Nat) : Nat := match h with | 0 => 0 | 1 => 0x4000 | 2 => 0x7000 | 3 => 0xA000 | _ => 0xD000

/-- Words of a home (R283). -/
def homeCount (h : Nat) : Nat := if h = 0 then 16384 else 12288

/-- The state with an operation's status and value as its issuer receives them (R290, log entry 3). -/
def State.syncResult (s : State) (st : BitVec 3) (v : BitVec 48) : State :=
  s.modSync fun y => { y with result := (st, v) }

/-- Completes a list of watches with a status and value: they are registered no longer (R293, R306). -/
def State.deliver (s : State) (ws : List Watch) (st : BitVec 3) (v : BitVec 48) : State :=
  s.modSync fun y => { y with
    watches := y.watches.filter fun x => !ws.any fun k => decide (k.id = x.id)
    completions := y.completions ++ ws.map fun k => (k, st, v) }

/-- Applies a FILL to a word (R290, R293): every OBSERVE watch completes with v, then the oldest CONSUME watch, which
empties the word again. -/
def State.applyFill (s : State) (w : BitVec 16) (v : BitVec 48) : BitVec 3 × State :=
  let x := s.word w
  if wPoisoned x then (syOwnerLost, s)
  else if wFull x then (syFull, s)
  else
    let here := s.sync.watches.filter fun k => decide (k.word = w)
    let s := s.deliver (here.filter fun k => k.observe) syOk v
    match here.find? fun k => !k.observe with
    | some c => (syOk, (s.putWord w (setFld x 0 48 v.toNat)).deliver [c] syOk v)
    | none => (syOk, s.putWord w (setFld (setBit x 63) 0 48 v.toNat))

/-- Whether watch entries are in use at an identifier. -/
def watchUsed (ws : List Watch) (id : Nat) : Bool := ws.any fun k => decide (k.id = id)

/-- The lowest free watch entry from id on, trying n entries. -/
def freeWatch (ws : List Watch) : Nat → Nat → Option Nat
  | 0, _ => none
  | n + 1, id =>
    if 16384 ≤ id then none else if watchUsed ws id then freeWatch ws n (id + 1) else some id

/-- Registers a watch, or counts a refusal for want of an entry and keeps the operation to be repeated (R295, R296). -/
def State.registerWatch (s : State) (observe : Bool) (w : BitVec 16) (unitHome engine : BitVec 3) : BitVec 3 × State :=
  let first := if engine = 7 then 0 else 1024
  match freeWatch s.sync.watches (s.sync.watches.length + 1) first with
  | some id =>
    let k : Watch := { id := id, observe := observe, word := w, tenant := wTenant (s.word w), unitHome := unitHome,
                       engine := engine, registered := s.now.extractLsb' 0 36, limit := s.sync.hangLimit, hung := false }
    (syWatching, s.modSync fun y =>
      let ws := y.watches ++ [k]
      { y with watches := ws, peak := BitVec.ofNat 16 (max y.peak.toNat (min ws.length 0xFFFF)) })
  | none =>
    let r : Retry := { op := if observe then 2 else 1, word := w, v := 0, unitHome := unitHome, engine := engine,
                       limit := s.sync.hangLimit, hung := false }
    let same (q : Retry) : Bool :=
      decide (q.op = r.op) && decide (q.word = w) && decide (q.unitHome = unitHome) && decide (q.engine = engine)
    (syNoWatch, s.modSync fun y =>
      { y with stat := bump y.stat 0 16 1, retries := if y.retries.any same then y.retries else y.retries ++ [r] })

/-- TAKE on a word (R290). -/
def State.applyTake (s : State) (w : BitVec 16) (unitHome engine : BitVec 3) : BitVec 3 × BitVec 48 × State :=
  let x := s.word w
  if wPoisoned x then (syOwnerLost, 0, s)
  else if wFull x then (syOk, wValue x, s.putWord w (clrBit x 63))
  else let r := s.registerWatch false w unitHome engine; (r.1, 0, r.2)

/-- PEEK on a word (R290). -/
def State.applyPeek (s : State) (w : BitVec 16) (unitHome engine : BitVec 3) : BitVec 3 × BitVec 48 × State :=
  let x := s.word w
  if wPoisoned x then (syOwnerLost, 0, s)
  else if wFull x then (syOk, wValue x, s)
  else let r := s.registerWatch true w unitHome engine; (r.1, 0, r.2)

/-- CLEAR on a word (R290). -/
def State.applyClear (s : State) (w : BitVec 16) : BitVec 3 × State :=
  let x := s.word w
  if wPoisoned x then (syOwnerLost, s)
  else if wFull x then (syOk, s.putWord w (setFld (clrBit x 63) 0 48 0))
  else (syOk, s)

/-- POISON on a word (R290): every watch completes OWNER_LOST. -/
def State.applyPoison (s : State) (w : BitVec 16) : BitVec 3 × State :=
  let x := s.word w
  if wPoisoned x then (syOk, s)
  else (syOk, (s.putWord w (setBit x 62)).deliver (s.sync.watches.filter fun k => decide (k.word = w)) syOwnerLost 0)

/-! ## Owners (R286, R306) -/

/-- An owner table entry (R286). -/
def State.owner (s : State) (n : Nat) : BitVec 64 := sget 0 s.sync.owners n

/-- The entry of an owner, BOUND or LOST. -/
def State.findOwner (s : State) (kind id : Nat) : Option Nat :=
  (s.sync.owners.find? fun e => decide (fld e.2 56 4 = kind) && decide (fld e.2 0 32 = id)).map (·.1)

/-- The lowest FREE entry from n on, trying k entries; entry 0 is left FREE (log entry 26). -/
def freeOwner (o : Sparse (BitVec 64)) : Nat → Nat → Option Nat
  | 0, _ => none
  | k + 1, n => if 1024 ≤ n then none else if sget 0 o n = 0 then some n else freeOwner o k (n + 1)

/-- Binds an owner (R286): its entry, when one is free. -/
def State.bindOwner (s : State) (kind : Nat) (tenant : Fn) (id : Nat) : Option Nat × State :=
  match freeOwner s.sync.owners (s.sync.owners.length + 1) 1 with
  | some n => (some n, s.modSync fun y => { y with
      owners := sput 0 y.owners n (pack 64 [(62, 2, 1), (56, 4, kind), (52, 4, tenant.val), (0, 32, id)]) })
  | none => (none, s)

/-- The words that name an owner entry. -/
def State.ownedWords (s : State) (n : Nat) : List (BitVec 16) :=
  (s.sync.words.filter fun e => decide (wOwner e.2 = n)).map fun e => BitVec.ofNat 16 e.1

/-- An owner is lost (R306): its entry goes LOST, its words are poisoned, retried and held FILLs on them are dropped. -/
def State.loseOwner (s : State) (kind id : Nat) : State :=
  match s.findOwner kind id with
  | none => s
  | some n =>
    let ws := s.ownedWords n
    let s := s.modSync fun y => { y with
      owners := sput 0 y.owners n (setFld (sget 0 y.owners n) 62 2 2)
      retries := y.retries.filter fun r => !(decide (r.op = 0) && ws.contains r.word)
      held := y.held.filter fun h => !ws.contains h.word }
    ws.foldl (fun a w => (a.applyPoison w).2) s

/-- An owner's words and its entry are freed (R306). -/
def State.freeOwnerOf (s : State) (kind id : Nat) : State :=
  match s.findOwner kind id with
  | none => s
  | some n => s.modSync fun y => { y with
      words := y.words.filter fun e => !decide (wOwner e.2 = n)
      owners := sput 0 y.owners n 0 }

/-- An owner's entry is bound anew, the old one freed (R286, R306). -/
def State.rebindOwner (s : State) (kind : Nat) (tenant : Fn) (id : Nat) : State :=
  ((s.freeOwnerOf kind id).bindOwner kind tenant id).2

/-! ## Cohort spans (R288, R289) -/

/-- Words that one cohort of a model uses at home h (R287). -/
def State.syncSpan (s : State) (m : SlotIx) (h : Fin 5) : Nat :=
  match s.programs? m with
  | some p => p.syncSpan[h]
  | none => 0

/-- The word number of a model-relative word for a cohort (R288); none outside the model's allotment. -/
def State.modelWord (s : State) (m : SlotIx) (c : CohIx) (rel : Nat) : Option (BitVec 16) :=
  let h := rel / 8192 % 8
  let i := rel % 8192
  match s.load? m with
  | some l =>
    if hh : h < 5 then
      let k := s.syncSpan m ⟨h, hh⟩
      if i < k then some (BitVec.ofNat 16 (l.syncBase[h] + c.val * k + i)) else none
    else none
  | none => none

/-- The model and cohort whose span holds a word (R287). -/
def State.spanOf (s : State) (w : BitVec 16) : Option (SlotIx × CohIx) :=
  (List.finRange 64).findSome? fun m =>
    match s.load? m with
    | some l => (List.finRange 5).findSome? fun h =>
        let k := s.syncSpan m h
        if l.syncBase[h] ≤ w.toNat ∧ w.toNat < l.syncBase[h] + 8 * k then
          some (m, Fin.ofNat 8 ((w.toNat - l.syncBase[h]) / k)) else none
    | none => none

/-- The current STEP of a cohort at its homes (R289). -/
def State.stepOf (s : State) (m : SlotIx) (c : CohIx) : BitVec 64 := sget 0 s.sync.steps (8 * m.val + c.val)

/-- A cleared word of a cohort's span (R289): empty with VALUE 0; a poisoned word stays. -/
def clearedWord (x : BitVec 64) : BitVec 64 := if wPoisoned x then x else setFld (clrBit x 63) 0 48 0

/-- A cohort enters a new step (R289): the words of its span are cleared and their watches withdrawn. -/
def State.enterStep (s : State) (m : SlotIx) (c : CohIx) (step : BitVec 64) : State :=
  let inSpan (w : BitVec 16) : Bool := decide (s.spanOf w = some (m, c))
  let ws := s.sync.words.filter fun e => inSpan (BitVec.ofNat 16 e.1)
  s.modSync fun y => { y with
    words := ws.foldl (fun a e => sput 0 a e.1 (clearedWord e.2)) y.words
    watches := y.watches.filter fun k => !inSpan k.word
    retries := y.retries.filter fun r => !inSpan r.word
    completions := y.completions.filter fun k => !inSpan k.1.word
    steps := sput 0 y.steps (8 * m.val + c.val) step }

/-! ## Carried and held FILLs (R299) -/

/-- Held FILLs at a home. -/
def State.heldAt (s : State) (home : Nat) : Nat := (s.sync.held.filter fun h => decide (wordHome h.word = home)).length

/-- Holds a carried FILL; the 65th at a home stops DATA credits on the port that brought it (R299). -/
def State.holdFill (s : State) (h : HeldFill) : State :=
  let full := decide (64 ≤ s.heldAt (wordHome h.word))
  let s := s.modSync fun y => { y with held := y.held ++ [h] }
  if full then s.modPort h.port fun p => { p with stopData := true } else s

/-- DATA credits are granted again on every port once no home holds more than 64 FILLs (R299). -/
def State.releaseCredits (s : State) : State :=
  if (List.range 5).all fun h => decide (s.heldAt h ≤ 64) then
    { s with ports := s.ports.map fun p => { p with stopData := false } }
  else s

/-- Compares a carried FILL with its cohort's step and applies, holds or drops it (R299). -/
def State.arriveFill (s : State) (h : HeldFill) : State :=
  let step := (s.stepOf h.model h.cohort).extractLsb' 0 48
  if h.v < step then
    (s.modSync fun y => { y with stat := bump y.stat 16 16 1 }).syncResult syStale 0
  else if step < h.v then s.holdFill h
  else
    let r := s.applyFill h.word h.v
    if r.1 = syFull then r.2.holdFill h else r.2.syncResult r.1 0

/-- Tries the held FILL at place i again (R299). -/
def State.tryHeld (s : State) (i : Nat) : State :=
  match s.sync.held[i]? with
  | none => s
  | some h =>
    let drop (a : State) : State := (a.modSync fun y => { y with held := y.held.eraseIdx i }).releaseCredits
    let step := (s.stepOf h.model h.cohort).extractLsb' 0 48
    if step < h.v then s
    else if h.v < step then (drop (s.modSync fun y => { y with stat := bump y.stat 16 16 1 })).syncResult syStale 0
    else
      let r := s.applyFill h.word h.v
      if r.1 = syFull then s else (drop r.2).syncResult r.1 0

/-! ## WAIT and DONE of a descriptor (R29, R31, R297, R298) -/

/-- What a descriptor's WAIT came to. -/
inductive Wait where
  | ready
  | waiting
  | abandoned
deriving DecidableEq, Repr, Inhabited

/-- The engine's completion on a word, if one has arrived. -/
def State.arrived? (s : State) (w : BitVec 16) (unitHome engine : BitVec 3) : Option (Watch × BitVec 3 × BitVec 48) :=
  s.sync.completions.find? fun c =>
    decide (c.1.word = w) && decide (c.1.unitHome = unitHome) && decide (c.1.engine = engine)

/-- A watch or a repeated operation of the engine on a word stands already. -/
def State.standing (s : State) (w : BitVec 16) (unitHome engine : BitVec 3) : Bool :=
  (s.sync.watches.any fun k => decide (k.word = w) && decide (k.unitHome = unitHome) && decide (k.engine = engine)) ||
  (s.sync.retries.any fun k =>
    decide (k.op ≠ 0) && decide (k.word = w) && decide (k.unitHome = unitHome) && decide (k.engine = engine))

/-- The WAIT of a descriptor on an engine (R31, R297; log entry 27): a completion that has arrived settles it, otherwise
its TAKE or PEEK is issued, once. -/
def State.waitFor (s : State) (mode : Nat) (w : BitVec 16) (unitHome engine : BitVec 3) : Wait × State :=
  match s.arrived? w unitHome engine with
  | some c =>
    let s := s.modSync fun y => { y with completions := y.completions.filter fun k => !decide (k.1.id = c.1.id ∧ k.1.word = w) }
    (if c.2.1 = syOk then .ready else .abandoned, s)
  | none =>
    if s.standing w unitHome engine then (.waiting, s)
    else
      let r := if mode = 1 then s.applyTake w unitHome engine else s.applyPeek w unitHome engine
      (if r.1 = syOk then .ready else if r.1 = syOwnerLost then .abandoned else .waiting, r.2.2)

/-- A DONE FILL of an engine (R298): one that meets a full word is kept to be issued again. -/
def State.doneFill (s : State) (w : BitVec 16) (v : BitVec 48) (unitHome engine : BitVec 3) : State :=
  let r := s.applyFill w v
  if r.1 = syFull then
    r.2.modSync fun y => { y with retries := y.retries ++ [{ op := 0, word := w, v := v, unitHome := unitHome,
                                                             engine := engine, limit := s.sync.hangLimit, hung := false }] }
  else r.2

end Sys2Proof.Machine
end

