-- ==== Sys2Proof/Machine/Desc.lean ====
section
/-!
DEFINITION. Sys2Proof/Machine/Desc.lean: what every operation descriptor shares (R29 to R31, R288, R297, R298): its header,
the conditions under which its engine starts it, and its DONE.
-/
namespace Sys2Proof.Machine

/-- The 32-bit word of a descriptor at a byte offset, bits [lo + w - 1 : lo]. -/
def dField (d : BitVec 512) (off lo w : Nat) : Nat := fld d (8 * off + lo) w

/-- LAYER (R29). -/
def dLayer (d : BitVec 512) : BitVec 8 := d.extractLsb' 24 8
/-- LAST (R29). -/
def dLast (d : BitVec 512) : Bool := bit d 19
/-- RUN_AHEAD (R29). -/
def dRunAhead (d : BitVec 512) : Bool := bit d 17
/-- CHAIN (R29). -/
def dChain (d : BitVec 512) : Bool := bit d 16
/-- OP (R29). -/
def dOp (d : BitVec 512) : Nat := dField d 0 8 8
/-- CLASS (R29, R30). -/
def dClass (d : BitVec 512) : Nat := dField d 0 0 8
/-- WAIT_MODE (R29). -/
def dWaitMode (d : BitVec 512) : Nat := dField d 4 16 2
/-- WAIT_WORD (R29). -/
def dWaitWord (d : BitVec 512) : Nat := dField d 4 0 16
/-- DONE_MODE (R29). -/
def dDoneMode (d : BitVec 512) : Nat := dField d 8 16 2
/-- DONE_WORD (R29). -/
def dDoneWord (d : BitVec 512) : Nat := dField d 8 0 16
/-- ROW_MASK (R29). -/
def dRowMask (d : BitVec 512) : BitVec 32 := d.extractLsb' 96 32

/-- UNIT_HOME of a tile (R296). -/
def tileHome (t : TileIx) : BitVec 3 := BitVec.ofNat 3 (t.val + 1)

/-- A cohort runs its descriptors: the package is READY, the model is LOADED and not lost, and the step is not cut. -/
def State.running? (s : State) (m : SlotIx) (c : CohIx) : Option Cohort :=
  match s.load? m, s.cohort? m c with
  | some l, some k => if s.isReady && s.loaded m && !l.lost && !k.cutNow then some k else none
  | _, _ => none

/-- The engine of a tile is held by an earlier descriptor: its DONE FILL is being repeated (R298), or its WAIT on another
word stands (R31). -/
def State.engineHeld (s : State) (t : TileIx) (engine : BitVec 3) (w : Option (BitVec 16)) : Bool :=
  let h := tileHome t
  (s.sync.retries.any fun r => decide (r.unitHome = h) && decide (r.engine = engine) &&
    (decide (r.op = 0) || !decide (some r.word = w))) ||
  (s.sync.watches.any fun k => decide (k.unitHome = h) && decide (k.engine = engine) && !decide (some k.word = w))

/-- An earlier descriptor stands at the engine's front, in a step that still runs there (R31): an engine runs its
descriptors in list order, and one that has not completed holds those that follow. -/
def State.frontHeld (s : State) (c : DCtx) (d : BitVec 512) (engine : BitVec 3) : Bool :=
  match s.tiles[c.tile].front[engine.toFin] with
  | none => false
  | some (m, h, st, x) =>
    !(decide (m = c.model) && decide (h = c.cohort) && decide (x = d)) &&
    (s.running? m h).any fun k => decide (k.step = st) && !bit k.abandoned (8 * c.tile.val + engine.toNat)

/-- The descriptor stands at the engine's front (R31). -/
def State.setFront (s : State) (c : DCtx) (d : BitVec 512) (engine : BitVec 3) (step : BitVec 64) : State :=
  s.modTile c.tile fun x => { x with front := x.front.set engine.toFin (some (c.model, c.cohort, step, d)) }

/-- The engine's front descriptor has completed, or is abandoned (R31, R297). -/
def State.clearFront (s : State) (t : TileIx) (engine : BitVec 3) : State :=
  s.modTile t fun x => { x with front := x.front.set engine.toFin none }

/-- The engine abandons the descriptor and the cohort's later ones on it (R297). -/
def State.abandon (s : State) (c : DCtx) (engine : BitVec 3) : State :=
  (s.clearFront c.tile engine).modCohort c.model c.cohort fun k => { k with abandoned := setBit k.abandoned (8 * c.tile.val + engine.toNat) }

/-- The engine is awake: a descriptor reached its queue (R398). -/
def State.wake (s : State) (t : TileIx) (engine : BitVec 3) : State :=
  s.modTile t fun x => { x with gated := clrBit x.gated engine.toNat }

/-- Whether a descriptor starts now (R31, R297; log entry 27): its cohort, when its WAIT is settled, and the state after
the WAIT. -/
def State.startDesc (s : State) (c : DCtx) (d : BitVec 512) (engine : BitVec 3) : Option Cohort × State :=
  match s.running? c.model c.cohort with
  | none => (none, s)
  | some k =>
    if bit k.abandoned (8 * c.tile.val + engine.toNat) then (none, s)
    else
      let w := s.modelWord c.model c.cohort (dWaitWord d)
      let w := if dWaitMode d = 0 then none else w
      if s.engineHeld c.tile engine w || s.frontHeld c d engine then (none, s)
      else
        let s := (s.wake c.tile engine).setFront c d engine k.step
        match w with
        | none => (some k, s)
        | some w =>
          let r := s.waitFor (dWaitMode d) w (tileHome c.tile) engine
          match r.1 with
          | .ready => (some k, r.2)
          | .waiting => (none, r.2)
          | .abandoned => (none, r.2.abandon c engine)

/-- A descriptor whose WAIT is settled waits on for something else (R276 item 4, R280): the completion is kept for it
(log entry 27). -/
def State.parkWait (s : State) (c : DCtx) (d : BitVec 512) (engine : BitVec 3) : State :=
  if dWaitMode d = 0 then s
  else match s.modelWord c.model c.cohort (dWaitWord d) with
    | none => s
    | some w =>
      let k : Watch := { id := 16384 + 8 * c.tile.val + engine.toNat, observe := false, word := w, tenant := wTenant (s.word w),
                         unitHome := tileHome c.tile, engine := engine, registered := 0, limit := 0, hung := true }
      s.modSync fun y => { y with completions := y.completions ++ [(k, syOk, 0)] }

/-- The effective ROW_MASK (R29). -/
def effMask (k : Cohort) (d : BitVec 512) : BitVec 32 := dRowMask d &&& k.mask

/-- A descriptor has completed: the cohort counts it for its layer (R279), and a DONE FILL on a word of this package is
issued with v = STEP[47:0] (R292, R298). All of the descriptor's writes are made by then, fenced or not: R12 leaves open
whether a waiter that a FILL without FENCE releases reads the data of before, and the model gives it the new data (DESIGN
CHOICE, log entry 113). -/
def State.finishDesc (s : State) (c : DCtx) (d : BitVec 512) (engine : BitVec 3) : State :=
  let key := 256 * c.tile.val + (dLayer d).toNat
  let s := s.clearFront c.tile engine
  let s := s.modCohort c.model c.cohort fun k => { k with
    doneCount := sput 0 k.doneCount key (sget 0 k.doneCount key + 1)
    opsDone := vmod k.opsDone c.tile fun v => vmod v engine.toFin (· + 1) }
  if dDoneMode d = 1 then
    match s.modelWord c.model c.cohort (dDoneWord d), s.cohort? c.model c.cohort with
    | some w, some k => s.doneFill w (k.step.extractLsb' 0 48) (tileHome c.tile) engine
    | _, _ => s
  else s

end Sys2Proof.Machine
end

