-- ==== Sys2Proof/Machine/Tiers.lean ====
section
/-!
DEFINITION. Sys2Proof/Machine/Tiers.lean: where a model's sections lie and what reads of them deliver (chapter 12): bytes
of a section, units that cannot be read (R281), window slots (R278, R279), and the requests a bad tile ends.
-/
namespace Sys2Proof.Machine

/-- Section i of a slot's image. -/
def State.section? (s : State) (m : SlotIx) (i : Nat) : Option Section :=
  match s.image? m with
  | some im => im.sections[i]?
  | none => none

/-- The bytes a section's body holds; only KIND 0 and 9 hold plain bytes. -/
def secCells (x : Section) : List Host.Cell := match x.body with | .bytes c => c | _ => []

/-- Bytes of one stripe unit (R261). -/
def unitBytes : Nat := 16384

/-- A unit of a section is quarantined or lost: no good copy of it can be read (R281). -/
def State.unitBad (s : State) (m : SlotIx) (sec u : Nat) : Bool :=
  s.models[m].quarantine.contains (sec, u) || s.models[m].lostUnits.contains (sec, u)

/-- Some unit of the bytes from a to a + n of a section cannot be read (R281). -/
def State.rangeBad (s : State) (m : SlotIx) (sec a n : Nat) : Bool :=
  (s.models[m].quarantine ++ s.models[m].lostUnits).any fun q =>
    decide (q.1 = sec) && decide (a < (q.2 + 1) * unitBytes) && decide (q.2 * unitBytes < a + n)

/-- n bytes of a section from a; those of an unreadable unit are zero (R281 step 2). -/
def State.secBytes (s : State) (m : SlotIx) (sec a n : Nat) : Bytes :=
  match s.section? m sec with
  | some x =>
    let c := secCells x
    (List.range n).map fun i => if s.unitBad m sec ((a + i) / unitBytes) then 0 else getByte c (a + i)
  | none => List.replicate n 0

/-- The slice a model runs in (R331). -/
def State.sliceOf (s : State) (m : SlotIx) : Option Slice :=
  match s.load? m with
  | some l => s.slices.find? fun x => decide (x.id = l.sliceId)
  | none => none

/-- Member index of this package in the slice a model runs in (R26, R330). -/
def State.ownMember (s : State) (m : SlotIx) : Nat :=
  match s.sliceOf m with
  | some x => (x.members.findIdx? fun a => decide (a = s.address)).getD 0
  | none => 0

/-- The package is the only one of a model's slice. -/
def State.alone (s : State) (m : SlotIx) : Bool := (s.sliceOf m).all fun x => decide (x.members.length ≤ 1)

/-- DETAIL of the memory and tier faults (R354): layer, section and member. -/
def State.faultDetail (s : State) (m : SlotIx) (layer sec : Nat) : BitVec 64 :=
  pack 64 [(0, 8, layer), (8, 16, sec), (24, 8, s.ownMember m)]

/-- HOME of a sequence (R28): the member index of its home package. -/
def State.homeOf (s : State) (m : SlotIx) (h : Key) : BitVec 8 :=
  match h.home with
  | some x => x.2
  | none => BitVec.ofNat 8 (s.ownMember m)

/-- The sequence that HOME and HANDLE of a record name on this package (R28, R340). -/
def State.keyOf (s : State) (m : SlotIx) (home : BitVec 8) (h : BitVec 32) : Key :=
  if home.toNat = s.ownMember m then .own h else .far m home h

/-- The sequences with rows of a mask in a cohort. -/
def rowHandles (k : Cohort) (mask : BitVec 32) : List Key :=
  ((maskRows (mask &&& k.mask)).map fun r => k.rows[r].handle).eraseDups

/-- A cause ends a sequence's request at the next step boundary (R409). -/
def State.addCause (s : State) (h : Key) (status : BitVec 8) (detail : BitVec 64) : State :=
  s.modSeq h fun q => { q with causes := q.causes ++ [(status, detail)] }

/-- A cause for every request with rows of a mask in a cohort; one entry in the error log when any is ended (R414). -/
def State.endRows (s : State) (k : Cohort) (mask : BitVec 32) (status : BitVec 8) (detail : BitVec 64)
    (cls unit scope index layer : Nat) : State :=
  let hs := rowHandles k mask
  match hs with
  | [] => s
  | h :: _ =>
    let s := hs.foldl (fun a h => a.addCause h status detail) s
    s.logError cls unit scope h.fn.val index k.model.val layer

/-- The thresholds of a monitor, DRIFT_ABS and DRIFT_FACTOR (R103). -/
def State.driftLimits (s : State) (m : SlotIx) (mon : Nat) : BitVec 32 × BitVec 32 :=
  ((s.ownBody m SecBody.monitors?).getD []).getD mon (0x7F800000, 0x7F800000)

/-! ## The Aperture window (R278, R279) -/

/-- The layers of a model with WINDOWED sections in this package's part, ascending (R278). -/
def State.windowLayers (s : State) (m : SlotIx) : List Nat :=
  match s.image? m with
  | some im =>
    sortNats ((im.sections.filter fun x => decide (x.tier = 1) && inPart s.models[m].part x).map fun x => x.layer.toNat)
  | none => []

/-- The layer's slot is filled (R278). -/
def State.layerFilled (s : State) (m : SlotIx) (layer : Nat) : Bool :=
  match s.load? m with
  | some l => l.window.contains (some layer)
  | none => false

/-- Descriptors of a layer in a tile's list (R279). -/
def layerDescs (p : Programs) (t : TileIx) (layer : Nat) : Nat :=
  (p.lists[t].filter fun d => decide ((dLayer d).toNat = layer)).length

/-- A cohort has completed its descriptors of a layer for the current pass (R279). -/
def cohortPast (p : Programs) (k : Cohort) (layer : Nat) : Bool :=
  k.cutNow || (List.finRange 4).all fun t => decide (layerDescs p t layer ≤ sget 0 k.doneCount (256 * t.val + layer))

/-- The window slots of the named layers that every open cohort of the model has completed are released (R279). -/
def State.releaseWindow (s : State) (m : SlotIx) (layers : List Nat) : State :=
  match s.programs? m with
  | some p =>
    let ks := s.cohorts.filter fun k => decide (k.model = m)
    s.modLoad m fun l => { l with window := l.window.map fun w => match w with
      | some y => if layers.contains y && (ks.all fun k => cohortPast p k y) then none else some y
      | none => none }
  | none => s

/-- A descriptor has completed; when its cohort has thereby completed the layer, the layer's window slot may be released
(R279). -/
def State.endDesc (s : State) (c : DCtx) (d : BitVec 512) (engine : BitVec 3) : State :=
  let layer := (dLayer d).toNat
  let past (a : State) : Bool := match a.programs? c.model, a.cohort? c.model c.cohort with
    | some p, some k => cohortPast p k layer
    | _, _ => true
  let s' := s.finishDesc c d engine
  if !past s && past s' then s'.releaseWindow c.model [layer] else s'

/-- The streams that a cohort has bound are discarded with what they staged (R44, R45). -/
def State.dropStreams (s : State) (m : SlotIx) (c : CohIx) : State :=
  { s with tiles := s.tiles.map fun t =>
      { t with streams := t.streams.filter fun x => !(decide (x.model = m) && decide (x.cohort = c)) } }

/-- A cohort's step is cut: its layers count as completed (R279, R280), and what it prefetched is discarded (R44). -/
def State.cutPass (s : State) (m : SlotIx) (c : CohIx) : State :=
  let s := s.dropStreams m c
  match s.programs? m, s.cohort? m c with
  | some p, some k =>
    let open' := (s.windowLayers m).filter fun y => !cohortPast p k y
    (s.modCohort m c fun k => { k with cutNow := true }).releaseWindow m open'
  | _, _ => s.modCohort m c fun k => { k with cutNow := true }

end Sys2Proof.Machine
end

