-- ==== Sys2Proof/Machine/Transcend.lean ====
section
/-!
DEFINITION. Sys2Proof/Machine/Transcend.lean: exponential, logarithm, logistic function, reciprocal root, sine and cosine.
The spec fixes each to within 1 unit in the last place (R88, R144, R203, R36): the model finds the two neighbouring FP32
values of the exact result in fixed point of 320 fraction bits, and Config.ulpUp says which one is delivered (log entry
11). A result that FP32 holds exactly is delivered exactly.
-/
namespace Sys2Proof.Machine

/-- Fraction bits of the fixed point. -/
def fixF : Nat := 320

/-- ln 2 × 2^320. -/
def fixLn2 : Nat := 1480553391661173448385607439722553250922680800745876974795605978609098082859138712941075737848984

/-- log2 e × 2^320. -/
def fixLog2e : Nat := 3081577904126213121686167198097690134163479766071396094403848907535455306605342191083616308484524

/-- 2π held to 128 bits (R203), × 2^125. -/
def twoPi128 : Nat := 267257146016241686964920093290467695825

/-- The FP32 neighbour of ± m × 2^e, an inexact magnitude truncated: the upper one when up; and whether it overflowed. -/
def pickUlp (up : Bool) (s : Bool) (m : Nat) (e : Int) : BitVec 32 × Bool :=
  let q : Int := if m = 0 then -149 else max (e + (Nat.log2 m : Int) - 23) (-149)
  let k : Nat := if q ≤ e then m * 2 ^ (e - q).toNat else m / 2 ^ (q - e).toNat
  let b := (q + 149).toNat * 2 ^ 23 + k + b2n up
  let r := if b ≥ 255 * 2 ^ 23 then (255 * 2 ^ 23, true) else (b, false)
  (BitVec.ofNat 32 (r.1 + b2n s * 2 ^ 31), r.2)

/-- Σ over k below n of t^k / k! in fixed point, for t below 1. -/
def expSeries (t : Nat) : Nat → Nat → Nat → Nat
  | 0, _, _ => 0
  | n + 1, k, term => term + expSeries t n (k + 1) (term * t / (2 ^ fixF * (k + 1)))

/-- exp of a finite value that is not 0, as a truncated m × 2^e. -/
def expParts (s : Bool) (m : Nat) (e : Int) : Nat × Int :=
  if (9 : Int) ≤ e + (Nat.log2 m : Int) then (if s then (1, -600) else (1, 600))
  else
    -- y = x log2 e in units of 2^-320
    let x : Int := if 0 ≤ e then Num.intAt s m e 0 * (2 ^ fixF : Nat)
      else Num.intAt s (m * 2 ^ fixF / 2 ^ (-e).toNat) 0 0
    let y : Int := x * (fixLog2e : Int) / (2 ^ fixF : Nat)
    let k := y / (2 ^ fixF : Nat)
    let f := (y % (2 ^ fixF : Nat)).toNat
    let t := f * fixLn2 / 2 ^ fixF
    (expSeries t 80 0 (2 ^ fixF), k - fixF)

/-- exp(x − ρ ln 2) of a finite x that is not 0, as a truncated m × 2^e (R207): the difference is formed in fixed point, so a
large x and ρ cancel before the exponential. -/
def expShift (s : Bool) (m : Nat) (e : Int) (rho : Int) : Nat × Int :=
  let x : Int := if 0 ≤ e then Num.intAt s m e 0 * (2 ^ fixF : Nat)
    else Num.intAt s (m * 2 ^ fixF / 2 ^ (-e).toNat) 0 0
  let y : Int := x * (fixLog2e : Int) / (2 ^ fixF : Nat) - rho * (2 ^ fixF : Nat)
  let k := y / (2 ^ fixF : Nat)
  if k < -600 then (1, -600)
  else
    let f := (y % (2 ^ fixF : Nat)).toNat
    (expSeries (f * fixLn2 / 2 ^ fixF) 80 0 (2 ^ fixF), k - fixF)

/-- exp of an FP32 value (R144, R36 step 5), and whether finite input overflowed. -/
def exp32 (op : Nat) (x : BitVec 32) : BitVec 32 × Bool :=
  match fp32 x with
  | .nan p => toFp32 (.nan p)
  | .inf s => if s then (0, false) else (0x7F800000, false)
  | .fin s m e =>
    if m = 0 then (0x3F800000, false)
    else
      let r := expParts s m e
      pickUlp (Config.ulpUp op (x.zeroExtend 64)) false r.1 r.2

/-- The exponential of an FP32 result, with the overflows on its way (R53). -/
def expFl (op : Nat) (x : Fl32) : Fl32 := let r := exp32 op x.1; (r.1, x.2 || r.2)

/-- Σ over n terms of z^(2k+1) / (2k + 1) in fixed point. -/
def atanhSeries (z2 : Nat) : Nat → Nat → Nat → Nat
  | 0, _, _ => 0
  | n + 1, k, p => p / (2 * k + 1) + atanhSeries z2 n (k + 1) (p * z2 / 2 ^ fixF)

/-- ln of a positive finite value m × 2^e in units of 2^-320. -/
def lnFix (m : Nat) (e : Int) : Int :=
  let n := Nat.log2 m
  let d := 2 ^ n
  let z := (m - d) * 2 ^ fixF / (m + d)
  (e + n) * (fixLn2 : Int) + (2 * atanhSeries (z * z / 2 ^ fixF) 110 0 z : Nat)

/-- Natural logarithm of an FP32 value (R144): 0 gives −∞, a negative value an ordinary NaN. -/
def log32 (op : Nat) (x : BitVec 32) : BitVec 32 :=
  match fp32 x with
  | .nan p => (toFp32 (.nan p)).1
  | .inf s => if s then nan32 else 0x7F800000
  | .fin s m e =>
    if m = 0 then 0xFF800000
    else if s then nan32
    else if x = 0x3F800000 then 0
    else
      let y := lnFix m e
      (pickUlp (Config.ulpUp op (x.zeroExtend 64)) (decide (y < 0)) y.natAbs (-(fixF : Int))).1

/-- 1 / (1 + exp(−x)) of an FP32 value (R144). -/
def sig32 (op : Nat) (x : BitVec 32) : BitVec 32 :=
  match fp32 x with
  | .nan p => (toFp32 (.nan p)).1
  | .inf s => if s then 0 else 0x3F800000
  | .fin s m e =>
    if m = 0 then 0x3F000000
    else
      -- a = exp(−|x|) = r.1 × 2^r.2, below 1
      let r := expParts true m e
      let sh := (-r.2).toNat
      let one := 2 ^ sh
      let num := if s then r.1 else one
      let q := num * 2 ^ 700 / (one + r.1)
      (pickUlp (Config.ulpUp op (x.zeroExtend 64)) false q (-700)).1

/-- 1 / √x of an FP32 value (R144): ±0 gives ±∞, a negative value an ordinary NaN. -/
def rsq32 (op : Nat) (x : BitVec 32) : BitVec 32 :=
  match fp32 x with
  | .nan p => (toFp32 (.nan p)).1
  | .inf s => if s then nan32 else 0
  | .fin s m e =>
    if m = 0 then (if s then 0xFF800000 else 0x7F800000)
    else if s then nan32
    else
      let odd := e % 2 != 0
      let m' := if odd then 2 * m else m
      let e' : Int := if odd then e - 1 else e
      let r := sqrtNat (2 ^ 400 / m')
      let q : Int := -(e' / 2) - 200
      if r * r * m' = 2 ^ 400 then (toFp32 (.fin false r q)).1
      else (pickUlp (Config.ulpUp op (x.zeroExtend 64)) false r q).1

/-- Alternating series Σ (−1)^k t^(2k + s) / (2k + s)! in fixed point, from its first term. -/
def altSeries (t2 : Nat) : Nat → Nat → Int → Int
  | 0, _, _ => 0
  | n + 1, k, term => term + altSeries t2 n (k + 2) (-(term * (t2 : Int) / ((2 ^ fixF * (k + 1) * (k + 2) : Nat) : Int)))

/-- The reduced angle of R203 in units of 2^-320: p × FREQ modulo 2π into [−π, π]. -/
def reduceAngle (p : Nat) (m : Nat) (e : Int) : Int :=
  let w : Nat := twoPi128 * 2 ^ (fixF - 125)
  -- the angle modulo 2π, exactly while its last bit is at or above 2^-320
  let a : Nat := if 0 ≤ e + fixF then p * m * 2 ^ (e + fixF).toNat % w else p * m / 2 ^ (-(e + fixF)).toNat % w
  if 2 * a > w then (a : Int) - w else a

/-- cos and sin of position × frequency, each one of the two FP32 neighbours of the exact value (R203). -/
def rotPair (p : Nat) (freq : BitVec 32) : Num × Num :=
  match fp32 freq with
  | .fin _ m e =>
    if p * m = 0 then (.fin false 1 0, .zero)
    else
      let a := reduceAngle p m e
      let t := a.natAbs
      let t2 := t * t / 2 ^ fixF
      let c := altSeries t2 80 0 (2 ^ fixF : Nat)
      let s := altSeries t2 80 1 (t : Int)
      let key := BitVec.ofNat 64 (p * 2 ^ 32 + freq.toNat)
      let cos := (pickUlp (Config.ulpUp 20 key) (decide (c < 0)) c.natAbs (-(fixF : Int))).1
      let sin := (pickUlp (Config.ulpUp 21 key) (decide (a < 0)) s.natAbs (-(fixF : Int))).1
      (fp32 cos, fp32 sin)
  | _ => (.fin false 1 0, .zero)

end Sys2Proof.Machine
end

