-- ==== Sys2Proof/Machine/Array.lean ====
section
/-!
DEFINITION. Sys2Proof/Machine/Array.lean: the matrix array (chapter 4) and the rescale blocks of its streams (R98).
-/
namespace Sys2Proof.Machine

/-! ## The descriptor (R71) -/

/-- The fields of an ARRAY descriptor (R71). -/
structure ArrayOp where
  stream : Nat
  fmt : Nat
  group : Nat
  zp : Bool
  aAddr : Nat
  aRaw : Bool
  aStride : Nat
  k : Nat
  n : Nat
  fold : Nat
  acc : Nat
  outBase : Nat
  epi : Nat
  imp : Bool
  statAccum : Bool
  ewMul : Bool
  rsIndex : Nat
  outAddr : Nat
  outTile : TileIx
  outStride : Nat
  inAddr : Nat
  statAddr : Nat
  ewAddr : Nat
deriving DecidableEq, Repr

/-- Reads an ARRAY descriptor (R71). -/
def arrayOf (d : BitVec 512) : ArrayOp :=
  { stream := dField d 0x10 0 13, fmt := dField d 0x10 16 4, group := 32 * 2 ^ dField d 0x10 20 2,
    zp := decide (dField d 0x10 22 1 = 1), aAddr := dField d 0x14 0 28, aRaw := decide (dField d 0x14 31 1 = 1),
    aStride := dField d 0x18 0 24, k := dField d 0x1C 0 24, n := dField d 0x20 0 13, fold := max 1 (dField d 0x20 16 5),
    acc := dField d 0x20 24 4, outBase := dField d 0x24 0 12, epi := dField d 0x24 16 3,
    imp := decide (dField d 0x24 19 1 = 1), statAccum := decide (dField d 0x24 20 1 = 1),
    ewMul := decide (dField d 0x24 21 1 = 1), rsIndex := dField d 0x28 0 16, outAddr := dField d 0x2C 0 28,
    outTile := Fin.ofNat 4 (dField d 0x2C 28 2), outStride := dField d 0x30 0 24, inAddr := dField d 0x34 0 28,
    statAddr := dField d 0x38 0 28, ewAddr := dField d 0x3C 0 28 }

/-- Cells of the operation (R69). -/
def ArrayOp.cells (a : ArrayOp) : Nat := roundUp (a.n * a.fold) 64

/-- Beats of one segment (R65, R69). -/
def ArrayOp.beats (a : ArrayOp) : Nat := a.k / a.fold / 16

/-! ## Weight tiles (R70) -/

/-- Bytes of a weight tile of b beats (R70). -/
def wTileBytes (cells group w : Nat) (zp : Bool) (b : Nat) : Nat :=
  let groups := b * 16 / group
  roundUp (cells * groups + (if zp then cells * ((groups * w + 7) / 8) else 0) + b * cells * (2 * w)) 4096

/-- Offset of weight tile t in its stream, after the rescale block's bytes (R70, R98). -/
def wTileStart (cells group w : Nat) (zp : Bool) (t rs : Nat) : Nat := rs + t * wTileBytes cells group w zp 128

/-- Bytes of a rescale block of n multipliers (R98). -/
def rsBlockBytes (n : Nat) : Nat := roundUp (4 * n) 4096

/-- All bytes the operation takes from its stream (R70, R98). -/
def ArrayOp.streamBytes (a : ArrayOp) (rsLoad : Bool) : Nat :=
  let full := a.beats / 128
  let rest := a.beats % 128
  let w := wBits a.fmt
  (if rsLoad then rsBlockBytes a.n else 0) + full * wTileBytes a.cells a.group w a.zp 128 +
    (if rest = 0 then 0 else wTileBytes a.cells a.group w a.zp rest)

/-- Byte i of a bound stream (R276 item 3): the staged head from the scratchpad, the rest from the section. -/
def State.streamByte (s : State) (t : TileIx) (st : Stream) (i : Nat) : Byte :=
  if i < st.staged then getByte s.tiles[t].scratch (s.spBase st.model t + st.spAddr + i)
  else (s.secBytes st.model st.sec (st.start + i) 1).headD 0

/-- n bytes of a bound stream from i. -/
def State.streamBytes (s : State) (t : TileIx) (st : Stream) (i n : Nat) : Bytes :=
  (List.range n).map fun j => s.streamByte t st (i + j)

/-- The weight tile's bytes lie in a unit that cannot be read: its codes and scales are zero (R281 step 2). -/
def State.tileBad (s : State) (st : Stream) (a n : Nat) : Bool :=
  s.rangeBad st.model st.sec (st.start + a) n

/-- The scale byte, zero point and sixteen weight integers of one beat of one cell (R67, R70). -/
def State.beatWeights (s : State) (t : TileIx) (st : Stream) (a : ArrayOp) (cell beat : Nat) : Nat × List Int :=
  let w := wBits a.fmt
  let tile := beat / 128
  let b := min 128 (a.beats - 128 * tile)
  let base := wTileStart a.cells a.group w a.zp tile (if st.rsLoad then rsBlockBytes a.n else 0)
  if s.tileBad st base (wTileBytes a.cells a.group w a.zp b) then (0, List.replicate 16 0)
  else
    let groups := b * 16 / a.group
    let inTile := beat % 128
    let g := inTile * 16 / a.group
    let scale := (s.streamByte t st (base + cell * groups + g)).toNat
    let zBytes := (groups * w + 7) / 8
    let zBase := base + a.cells * groups
    let z : Int := if a.zp then signed w (codeAt w (s.streamBytes t st (zBase + cell * zBytes) zBytes) g) else 0
    let cBase := zBase + (if a.zp then a.cells * zBytes else 0)
    let codes := s.streamBytes t st (cBase + inTile * a.cells * (2 * w) + cell * (2 * w)) (2 * w)
    (scale, (List.range 16).map fun i => wInt a.fmt (codeAt w codes i) z)

/-! ## Activations (R54, R114, R124, R126, R130) -/

/-- Decodes the Ploryn blocks of one row in order (R114, R126): their values, and the state with the counters. -/
def State.rowBlocks (s : State) (b : BlockCtx) : Nat → Nat → Bool → List (BitVec 16) × Bool × State
  | 0, _, seen => ([], seen, s)
  | n + 1, a, seen =>
    let bytes := s.scrGet b.tile a 56
    let r := s.decodeBlock b a bytes seen
    let s := if (plorynDecode (leNat bytes)).slow then
        r.2.2.modTile b.tile fun x => { x with collStall := bump x.collStall 32 32 1 }
      else r.2.2
    let rest := s.rowBlocks b n (a + 56) r.2.1
    (r.1 ++ rest.1, rest.2)

/-- Splits a list into blocks of sixteen. -/
def sixteens : Nat → List (BitVec 16) → List (List (BitVec 16))
  | 0, _ => []
  | n + 1, l => l.take 16 :: sixteens n (l.drop 16)

/-- The A16 blocks of each active row (R54): (row, blocks), with the counters of the Collimator (R131). -/
def State.activations (s : State) (c : DCtx) (d : BitVec 512) (a : ArrayOp) :
    List (Fin 32) → Bool → List (Fin 32 × List A16) × State
  | [], _ => ([], s)
  | r :: rs, seen =>
    let at0 := s.spBase c.model c.tile + a.aAddr + r.val * a.aStride
    let x : List (BitVec 16) × Bool × State :=
      if a.aRaw then ((List.range a.k).map fun p => BitVec.ofNat 16 (leNat (s.scrGet c.tile (at0 + 2 * p) 2)), seen, s)
      else s.rowBlocks { tile := c.tile, model := some c.model, layer := (dLayer d).toNat, row := r.val, source := 0,
                         owner := s.ownerOf c.model } (a.k / 64) at0 seen
    let blocks := (sixteens (a.k / 16) x.1).map toA16
    let rest := x.2.2.activations c d a rs x.2.1
    ((r, blocks) :: rest.1, rest.2)

/-! ## Accumulation (R73 to R81) -/

/-- One group enters a chunk (R73): e = E + S + O − 268. -/
def groupAdd (c : Option (Int × Int)) (blk : A16) (scale : Nat) (ws : List Int) (fmt : Nat) : Option (Int × Int) :=
  match blk with
  | .special _ => c
  | .block e ms =>
    let ps := (ms.zip ws).map fun p => p.1 * p.2
    chunkAdd c (ps.foldl (· + ·) 0) (ps.foldl (fun a p => a + p.natAbs) 0) ((e : Int) + scale + wOffset fmt - 268)

/-- The beats of one cell and row in order (R76, R77): the total and open chunk after them, and the renormalisations.
done is the number of beats of the segment's chunk already taken. -/
def runBeats (ws : Nat → Nat × List Int) (fmt : Nat) :
    List A16 → Nat → Nat → Total → Option (Int × Int) → Nat → Total × Option (Int × Int) × Nat
  | [], _, _, t, c, n => (t, c, n)
  | b :: r, i, done, t, c, n =>
    let w := ws i
    let c := groupAdd c b w.1 w.2 fmt
    if (done + 1) % 128 = 0 then
      let p := t.promote c
      runBeats ws fmt r (i + 1) (done + 1) p.1 none (n + p.2)
    else runBeats ws fmt r (i + 1) (done + 1) t c n

/-- Index of a total word in accumulator memory (R82). -/
def accIx (acc col row : Nat) : Nat := (4096 * acc + col) * 32 + row

/-- A total in accumulator memory (R75, R82). -/
def State.accGet (s : State) (t : TileIx) (ix : Nat) : Total := Total.ofWord (sget emptyTotal s.tiles[t].acc ix)

/-- The state with a total written to accumulator memory. -/
def State.accPut (s : State) (t : TileIx) (ix : Nat) (x : Total) : State :=
  s.modTile t fun y => { y with acc := sput emptyTotal y.acc ix x.word }

/-- Renormalisations on a tile (R80, R429): counted, and the first of an operation reported. -/
def State.longsum (s : State) (t : TileIx) (m : SlotIx) (layer acc : Nat) (prism : Bool) (n : Nat) (first : Bool) : State :=
  if n = 0 then s
  else
    let s := s.modTile t fun x => { x with longsum := bump x.longsum (if prism then 32 else 0) 32 n }
    if first then
      (s.sticky t stLongsum).event (s.ownerOf m) 0x0A t.val
        [(0, 16, m.val), (32, 8, layer), (64, 4, acc), (95, 1, b2n prism)]
    else s

/-- Promotes the chunks an operation with EPI NONE left open for a CHAIN that never ran, its step being cut or abandoned
(R76, R84): a renormalisation is that operation's (R80). -/
def State.closeChunks (s : State) (t : TileIx) : State :=
  let r := s.tiles[t].chunks.foldl (fun (a : State × Nat) e =>
    let p := (a.1.accGet t e.1).promote e.2
    (a.1.accPut t e.1 p.1, a.2 + p.2)) (s, 0)
  let o := s.tiles[t].chunkOp
  let s := r.1.modTile t fun x => { x with chunks := [], chunkBeats := 0, chunkOp := none }
  match o with
  | some (m, layer, acc, told) => s.longsum t m layer acc false r.2 (!told)
  | none => s

/-- The ARRAY descriptors of a list, with their places among them. -/
def arraysOf (l : List (BitVec 512)) : List (Nat × BitVec 512) :=
  let as := l.filter fun x => decide (dClass x = 1)
  (List.range as.length).zip as

/-- The ARRAY descriptors of the tile's list, with their places among them. -/
def State.tileArrays (s : State) (c : DCtx) : List (Nat × BitVec 512) :=
  match s.programs? c.model with
  | some p => arraysOf p.lists[c.tile]
  | none => []

/-- The number of ARRAY descriptors of the tile's list that the cohort's step has completed. -/
def State.arraysDone (s : State) (c : DCtx) : Nat :=
  match s.cohort? c.model c.cohort with
  | some k => k.opsDone[c.tile][(0 : Fin 8)]
  | none => 0

/-- The ARRAY descriptor that follows the running one in the tile's list continues it by CHAIN (R76, R84). -/
def State.chainFollows (s : State) (c : DCtx) : Bool :=
  (s.tileArrays c).any fun x => decide (x.1 = s.arraysDone c + 1) && dChain x.2

/-- The total an operation starts from in one place (R82, R90). -/
def State.startTotal (s : State) (c : DCtx) (a : ArrayOp) (chain : Bool) (cell row : Nat) : Total :=
  if chain then s.accGet c.tile (accIx a.acc (a.outBase + cell) row)
  else if a.imp && decide (cell < a.n) then
    Total.ofWord (BitVec.ofNat 128 (leNat (s.scrGet c.tile (s.spBase c.model c.tile + a.inAddr + 16 * (row * a.n + cell)) 16)))
  else {}

/-- One cell and row of an operation (R73 to R76, R81, R84), and the renormalisations it took. keep leaves the last chunk open
for the CHAIN that follows. -/
def State.runCell (s : State) (c : DCtx) (a : ArrayOp) (chain keep : Bool) (wsOf : Nat → Nat → Nat × List Int) (beats0 : Nat)
    (row : Fin 32) (blocks : List A16) (cell : Nat) : State × Nat :=
  let ix := accIx a.acc (a.outBase + cell) row.val
  let seg := cell / a.n
  let mine := (blocks.drop (seg * a.beats)).take a.beats
  let t0 := s.startTotal c a chain cell row.val
  let c0 := if chain then sget none s.tiles[c.tile].chunks ix else none
  let r := runBeats (wsOf cell) a.fmt mine 0 (if chain then beats0 else 0) t0 c0 0
  let p := if keep then (r.1, 0) else r.1.promote r.2.1
  let special := blocks.any fun b => match b with | .special _ => true | _ => false
  let poison := blocks.any fun b => decide (b = .special true)
  let t := { p.1 with nan := p.1.nan || special, poison := p.1.poison || poison }
  let s := s.accPut c.tile ix t
  (s.modTile c.tile fun x => { x with chunks := sput none x.chunks ix (if keep then r.2.1 else none) }, r.2.2 + p.2)

/-- Every active row of one cell. -/
def State.runRows (s : State) (c : DCtx) (a : ArrayOp) (chain keep : Bool) (wsOf : Nat → Nat → Nat × List Int) (beats0 : Nat)
    (rows : List (Fin 32 × List A16)) (cell : Nat) : State × Nat :=
  rows.foldl (fun acc r => let x := acc.1.runCell c a chain keep wsOf beats0 r.1 r.2 cell; (x.1, acc.2 + x.2)) (s, 0)

/-- The fold merge of one output and row (R86, R91): segments 1, 2, … into segment 0. -/
def State.foldMerge (s : State) (c : DCtx) (a : ArrayOp) (row n : Nat) : State × Nat :=
  let ix0 := accIx a.acc (a.outBase + n) row
  let r := (List.range (a.fold - 1)).foldl (fun (x : Total × Nat) j =>
    let m := x.1.merge (s.accGet c.tile (accIx a.acc (a.outBase + n + (j + 1) * a.n) row))
    (m.1, x.2 + m.2)) (s.accGet c.tile ix0, 0)
  (s.accPut c.tile ix0 r.1, r.2)

/-! ## Epilogues (R86 to R90) -/

/-- The channel multiplier of output n (R94). -/
def State.multiplier (s : State) (c : DCtx) (a : ArrayOp) (n : Nat) : BitVec 32 :=
  match s.load? c.model with
  | some l => sget 0 s.tiles[c.tile].rs (l.rsBase[c.tile] + a.rsIndex + n)
  | none => 0

/-- The exact product of a total and its multiplier; an exact zero is +0 (R87, R96). -/
def rescaled (t : Total) (r : BitVec 32) : Num :=
  match t.value.mul (fp32 r) with
  | .fin s m e => if m = 0 then .zero else .fin s m e
  | x => x

/-- The output of RESCALE, ROWSTAT or ELEMWISE for row r and output n (R87, R89), and whether it overflowed. -/
def State.epiValue (s : State) (c : DCtx) (a : ArrayOp) (r n : Nat) : BitVec 16 × Bool :=
  let v := rescaled (s.accGet c.tile (accIx a.acc (a.outBase + n) r)) (s.multiplier c a n)
  if a.epi = 3 then
    let x := toFp32 v
    let w := BitVec.ofNat 16 (leNat (s.scrGet c.tile (s.spBase c.model c.tile + a.ewAddr + r * a.outStride + 2 * n) 2))
    let o := bf16 w
    let y := toFp32 (if a.ewMul then (fp32 x.1).mul o else (fp32 x.1).add o)
    let z := toBf16 (fp32 y.1)
    (z.1, x.2 || y.2 || z.2)
  else toBf16 v

/-- Writes the BF16 outputs of one row (R87). -/
def State.writeRow (s : State) (c : DCtx) (a : ArrayOp) (r : Fin 32) : State :=
  let ys := (List.range a.n).map fun n => s.epiValue c a r.val n
  let at0 := s.spBase c.model a.outTile + a.outAddr + r.val * a.outStride
  let s := s.scrPut a.outTile at0 (ys.flatMap fun y => toLE 2 y.1.toNat)
  if ys.any (·.2) then s.sticky c.tile stOverflow else s

/-- Whether a value is +∞. -/
def isPosInf (x : BitVec 32) : Bool := decide (x = 0x7F800000)

/-- Whether a value is −∞. -/
def isNegInf (x : BitVec 32) : Bool := decide (x = 0xFF800000)

/-- MAX and SUM of a list of FP32 values (R88), and whether a step overflowed (R53). Of a +0 and a −0 that are both the
largest MAX holds the earlier one (DESIGN CHOICE, log entry 118). -/
def rowStat (ys : List (BitVec 32)) : BitVec 32 × Fl32 :=
  if ys.any fun y => (fp32 y).isNan then
    let n := (toFp32 (nanOf (ys.map fp32))).1
    (n, n, false)
  else
    let mx := ys.foldl (fun a y => if lt32 a y then y else a) 0xFF800000
    if isNegInf mx then (mx, 0, false)
    else if isPosInf mx then (mx, nat32 (ys.filter isPosInf).length, false)
    else (mx, ys.foldl (fun a y => addFl a (expFl 5 (subFl (y, false) (mx, false)))) (0, false))

/-- Two row statistics merged (R88 STAT_ACCUM), and whether a step overflowed (R53); of two zeros MAX keeps the recorded one
(DESIGN CHOICE, log entry 118). -/
def mergeStat (a b : BitVec 32 × BitVec 32) : BitVec 32 × Fl32 :=
  let xs := [fp32 a.1, fp32 a.2, fp32 b.1, fp32 b.2]
  if xs.any Num.isNan then
    let n := (toFp32 (nanOf xs)).1
    (n, n, false)
  else
    let mx := if lt32 a.1 b.1 then b.1 else a.1
    if isPosInf mx then
      (mx, addFl (if isPosInf a.1 then a.2 else 0, false) (if isPosInf b.1 then b.2 else 0, false))
    else
      let part (p : BitVec 32 × BitVec 32) : Fl32 :=
        if isNegInf p.1 then (0, false) else mulFl (p.2, false) (expFl 5 (subFl (p.1, false) (mx, false)))
      (mx, addFl (part a) (part b))

/-- Writes the row statistics of one row (R88). -/
def State.writeStat (s : State) (c : DCtx) (a : ArrayOp) (r : Fin 32) : State :=
  let ys := (List.range a.n).map fun n => bfTo32 (s.epiValue c a r.val n).1
  let at0 := s.spBase c.model c.tile + a.statAddr + 8 * r.val
  let new := rowStat ys
  let st := if a.statAccum then
      mergeStat (BitVec.ofNat 32 (leNat (s.scrGet c.tile at0 4)), BitVec.ofNat 32 (leNat (s.scrGet c.tile (at0 + 4) 4)))
        (new.1, new.2.1)
    else new
  let s := s.scrPut c.tile at0 (toLE 4 st.1.toNat ++ toLE 4 st.2.1.toNat)
  if new.2.2 || st.2.2 then s.sticky c.tile stOverflow else s

/-- Writes the total words of one row (R90). -/
def State.writeTotals (s : State) (c : DCtx) (a : ArrayOp) (r : Fin 32) : State :=
  let at0 := s.spBase c.model a.outTile + a.outAddr + 16 * (r.val * a.n)
  s.scrPut a.outTile at0 ((List.range a.n).flatMap fun n =>
    toLE 16 (s.accGet c.tile (accIx a.acc (a.outBase + n) r.val)).word.toNat)

/-- The epilogue of one row (R87 to R90). -/
def State.epilogueRow (s : State) (c : DCtx) (a : ArrayOp) (r : Fin 32) : State :=
  match a.epi with
  | 1 => s.writeRow c a r
  | 2 => (s.writeStat c a r).writeRow c a r
  | 3 => if r.val < 8 then s.writeRow c a r else s
  | 4 => s.writeTotals c a r
  | _ => s

/-! ## Rescale blocks (R98) -/

/-- Writes the rescale block of a stream (R98): its multipliers to RS_BASE + RS_INDEX upward. -/
def State.writeRescale (s : State) (t : TileIx) (st : Stream) : State :=
  match s.load? st.model with
  | some l =>
    let base := l.rsBase[t] + st.rsIndex
    let xs := (List.range st.rsCount).map fun i => (base + i, BitVec.ofNat 32 (leNat (s.streamBytes t st (4 * i) 4)))
    s.modTile t fun x => { x with
      rs := xs.foldl (fun a e => sput 0 a e.1 e.2) x.rs
      streams := x.streams.map fun y => if y.id = st.id then { y with rsPending := false } else y }
  | none => s

/-- The epilogue of an operation reads rescale entries that a stream's block replaces (R87 to R90, R94, R98). -/
def ArrayOp.readsBlock (a : ArrayOp) (st : Stream) : Bool :=
  (decide (a.epi = 1) || decide (a.epi = 2) || decide (a.epi = 3)) &&
  decide (a.rsIndex < st.rsIndex + st.rsCount) && decide (st.rsIndex < a.rsIndex + a.n)

/-- An operation of the tile earlier than the stream's consumer has not made its last write and its epilogue reads entries of
the stream's block (R98 item 1): one of the same list, or the one at the array's front. -/
def State.rescaleHeld (s : State) (t : TileIx) (st : Stream) : Bool :=
  let c : DCtx := { model := st.model, cohort := st.cohort, tile := t }
  ((s.tileArrays c).any fun x => decide (s.arraysDone c ≤ x.1) && decide (x.1 < st.place) && (arrayOf x.2).readsBlock st) ||
  (match s.tiles[t].front[(0 : Fin 8)] with
   | some (m, h, _, d) => decide (m = st.model) && decide (h ≠ st.cohort) && (arrayOf d).readsBlock st
   | none => false)

/-- RESCALE_BLOCK_WRITE (R98): the rescale block of a bound stream is written, once no earlier operation still reads the
entries it replaces. -/
def execRescaleBlockWrite (tile : TileIx) (stream : Fin 8192) (s : State) : Host.Outcome State Fault Refusal :=
  match s.tiles[tile].streams.find? fun x => decide (x.id = stream.val) with
  | some st => if st.rsPending && !s.rescaleHeld tile st then done s (s.writeRescale tile st) else done s s
  | none => done s s

/-! ## The operation -/

/-- The stream after the operation has taken n bytes: unbound once its last byte is consumed (R276 item 4). -/
def State.consume (s : State) (t : TileIx) (id n : Nat) : State :=
  s.modTile t fun x => { x with
    streams := x.streams.filterMap fun y =>
    if y.id ≠ id then some y
    else if y.kind ≠ 0 ∨ y.len ≤ n then none
    else some { y with start := y.start + n, len := y.len - n, staged := y.staged - n, spAddr := y.spAddr + n, rsLoad := false } }

/-- Every total that the operation would write gets NAN, and keeps the POISON that R81 gives it (R276 item 2). -/
def State.nanTotals (s : State) (c : DCtx) (a : ArrayOp) (rows : List (Fin 32)) : State :=
  (List.range (a.n * a.fold)).foldl (fun s cell => rows.foldl (fun s r =>
    let ix := accIx a.acc (a.outBase + cell) r.val
    s.accPut c.tile ix { (s.accGet c.tile ix) with nan := true }) s) s

/-- Weight tiles of the operation that no good copy backs: their requests end with FAULT_TIER_UNCORRECTABLE (R281). -/
def State.badTiles (s : State) (a : ArrayOp) (st : Stream) : Bool :=
  s.rangeBad st.model st.sec st.start (a.streamBytes st.rsLoad)

/-- MATMUL with its weights present (R65 to R92): activations, beats, fold merge and epilogue. -/
def State.matmul (s : State) (c : DCtx) (d : BitVec 512) (a : ArrayOp) (st : Stream) (k : Cohort) : State :=
  let rows := maskRows (effMask k d)
  let layer := (dLayer d).toNat
  let chain := dChain d
  let keep := decide (a.epi = 0) && s.chainFollows c
  let s := if chain then s else s.closeChunks c.tile
  let beats0 := if chain then s.tiles[c.tile].chunkBeats else 0
  let x := s.activations c d a rows false
  let src := s
  let wsOf (cell beat : Nat) : Nat × List Int := src.beatWeights c.tile st a cell beat
  let r := (List.range (a.n * a.fold)).foldl (fun (y : State × Nat) cell =>
    let z := y.1.runRows c a chain keep wsOf beats0 x.1 cell
    (z.1, y.2 + z.2)) (x.2, 0)
  let s := r.1.modTile c.tile fun t => { t with
    chunkBeats := if keep then (beats0 + a.beats) % 128 else 0
    chunkOp := if keep then some (c.model, layer, a.acc, decide (r.2 ≠ 0)) else none }
  let s := if st.kind = 2 then s.nanTotals c a rows else s
  let m := if a.epi ≠ 0 ∧ 1 < a.fold then
      rows.foldl (fun (y : State × Nat) row => (List.range a.n).foldl (fun (y : State × Nat) n =>
        let z := y.1.foldMerge c a row.val n
        (z.1, y.2 + z.2)) y) (s, r.2)
    else (s, r.2)
  let s := m.1.longsum c.tile c.model layer a.acc false m.2 true
  let s := if st.rsPending then s.writeRescale c.tile st else s
  let s := rows.foldl (fun s row => s.epilogueRow c a row) s
  let f := s.draw
  if a.aRaw then s else f.2.modTile c.tile fun t => { t with collStall := bump t.collStall 0 32 f.1 }

/-- The stream context the operation names, bound in its own cohort's step with the bytes it takes (R276 items 1 to 4). -/
def State.boundStream (s : State) (c : DCtx) (a : ArrayOp) : Option Stream :=
  s.tiles[c.tile].streams.find? fun x =>
    decide (x.id = a.stream) && decide (x.model = c.model) && decide (x.cohort = c.cohort) &&
    (decide (x.kind ≠ 0) || decide (a.streamBytes x.rsLoad ≤ x.len))

/-- ARRAY_MATMUL (R71 to R92, R276): the descriptor reaches the array's front in list order (R84, R85); once its WAIT is
settled and its stream bound with the weights it takes, it runs to its last write and its DONE. -/
def execArrayMatmul (c : DCtx) (d : BitVec 512) (s : State) : Host.Outcome State Fault Refusal :=
  let a := arrayOf d
  let r := s.startDesc c d 0
  match r.1 with
  | none => done s r.2
  | some k =>
    let s1 := r.2
    match s1.boundStream c a with
    | none => done s (s1.parkWait c d 0)
    | some st =>
      if st.kind = 1 then done s ((s1.consume c.tile a.stream 0).endDesc c d 0)
      else
        let s2 := s1.matmul c d a st k
        let s3 := if st.kind = 0 && s1.badTiles a st then
            s2.endRows k (effMask k d) 0x13 (s2.faultDetail c.model (dLayer d).toNat st.sec) 0x06 6 1 0 (dLayer d).toNat
          else s2
        done s ((s3.consume c.tile a.stream (a.streamBytes st.rsLoad)).endDesc c d 0)

end Sys2Proof.Machine
end

