-- ==== Sys2Proof/Machine/Fetch.lean ====
section
/-!
DEFINITION. Sys2Proof/Machine/Fetch.lean: the FETCH descriptors and the stalls of the Aperture window (R275, R276, R280).
-/
namespace Sys2Proof.Machine

/-- The fields of a FETCH descriptor (R275). -/
structure FetchOp where
  stream : Nat
  rsLoad : Bool
  sec : Nat
  idx : Nat
  offset : Nat
  length : Nat
  spAddr : Nat
  staged : Nat
  units : Nat
deriving DecidableEq, Repr, Inhabited

/-- Reads a FETCH descriptor (R275); offsets and lengths in bytes. -/
def fetchOf (d : BitVec 512) : FetchOp :=
  { stream := dField d 0x10 0 13, rsLoad := decide (dField d 0x10 16 1 = 1), sec := dField d 0x14 0 16,
    idx := dField d 0x14 16 6, offset := dField d 0x18 0 32 * 4096, length := dField d 0x1C 0 32 * 4096,
    spAddr := dField d 0x20 0 28, staged := dField d 0x24 0 28, units := dField d 0x28 0 32 * 4096 }

/-- The index of the range (R276 item 1): none without IDX_REG. -/
def State.fetchIndex (s : State) (t : TileIx) (f : FetchOp) : Option Nat :=
  if f.idx = 0 then none else some (fld (sget 0 s.tiles[t].vec.c f.idx) 0 32)

/-- The range is empty (R276 item 1). -/
def State.fetchEmpty (s : State) (t : TileIx) (f : FetchOp) : Bool := decide (s.fetchIndex t f = some 0xFFFFFFFF)

/-- First byte of the range in its section (R276 item 1). -/
def State.fetchStart (s : State) (t : TileIx) (f : FetchOp) : Nat :=
  f.offset + match s.fetchIndex t f with | some i => i * f.units | none => 0

/-- The range ends beyond its section (R276 item 2). -/
def State.fetchOutside (s : State) (m : SlotIx) (t : TileIx) (f : FetchOp) : Bool :=
  match s.section? m f.sec with
  | some x => decide (x.length.toNat < s.fetchStart t f + f.length)
  | none => true

/-- The layer whose window slot the range needs and that is not filled (R276 item 5, R280). -/
def State.fetchLate (s : State) (m : SlotIx) (f : FetchOp) : Option Nat :=
  match s.section? m f.sec with
  | some x => if x.tier = 1 ∧ !s.layerFilled m x.layer.toNat then some x.layer.toNat else none
  | none => none

/-- One second of the local time counter (R396). -/
def oneSecond : Nat := 25000000

/-- Counts a stall of a cohort on a layer (R280): LATE, and WINDOW_LATE at the first stall and then at most once a
second. -/
def State.countStall (s : State) (m : SlotIx) (layer : Nat) : State :=
  let s := s.modModel m fun x => { x with apertureStat := bump x.apertureStat 0 32 1 }
  match s.load? m with
  | none => s
  | some l =>
    let due := match l.lateTime with
      | none => true
      | some t => decide (oneSecond ≤ s.now.toNat - t.toNat)
    if due then
      let s := s.event 0 0x03 4 [(0, 16, m.val), (32, 8, layer), (64, 32, l.lateCount + 1)]
      s.modLoad m fun x => { x with lateCount := 0, lateTime := some s.now }
    else s.modLoad m fun x => { x with lateCount := x.lateCount + 1 }

/-- A cohort stalls on a layer (R280); one stall is counted per cohort and layer. -/
def State.stallOn (s : State) (m : SlotIx) (c : CohIx) (layer : Nat) : State :=
  match s.cohort? m c with
  | none => s
  | some k =>
    if k.stall.any fun x => decide (x.1 = layer) then s
    else (s.countStall m layer).modCohort m c fun k => { k with stall := some (layer, s.now) }

/-- The stalls of the model's cohorts on a layer end (R280, R282): MAX_LATE takes the longest, in milliseconds. -/
def State.endStalls (s : State) (m : SlotIx) (layer : Nat) : State :=
  let ends (k : Cohort) : Bool := decide (k.model = m) && (k.stall.any fun x => decide (x.1 = layer))
  let ms := ((s.cohorts.filter ends).filterMap fun k => k.stall.map fun x => (s.now.toNat - x.2.toNat) / 25000).foldl max 0
  let s := s.modModel m fun x => { x with apertureStat := raiseTo x.apertureStat 32 16 ms }
  { s with cohorts := s.cohorts.map fun k => if ends k then { k with stall := none } else k }

/-- The FETCH STREAM descriptors of a list that bind a stream. -/
def bindersOf (l : List (BitVec 512)) (stream : Nat) : List (BitVec 512) :=
  l.filter fun x => decide (dClass x = 4) && decide (dOp x = 1) && decide ((fetchOf x).stream = stream)

/-- The FETCH STREAM descriptors of a list, each with the ARRAY descriptor that consumes what it binds (R276, R277 item 6): the
n-th binding of a stream is consumed by the n-th ARRAY that names it. -/
def fetchPairs (l : List (BitVec 512)) : List (BitVec 512 × ArrayOp) :=
  let ids := ((l.filter fun x => decide (dClass x = 4) && decide (dOp x = 1)).map fun x => (fetchOf x).stream).eraseDups
  ids.flatMap fun i => (bindersOf l i).zip ((((arraysOf l).map fun a => arrayOf a.2).filter fun a => decide (a.stream = i)))

/-- The ARRAY descriptor of the tile's list that consumes the stream a FETCH STREAM binds, and its place among the list's ARRAY
descriptors (R71, R98). The n-th binding of a stream in a step is consumed by the n-th ARRAY that names it: n counts the
bindings of the stream among the FETCH descriptors the cohort has completed. -/
def State.consumerOf (s : State) (c : DCtx) (stream : Nat) : Option (Nat × ArrayOp) :=
  match s.programs? c.model, s.cohort? c.model c.cohort with
  | some p, some k =>
    let l := p.lists[c.tile]
    let fs := (l.filter fun x => decide (dClass x = 4)).take k.opsDone[c.tile][(3 : Fin 8)]
    (((arraysOf l).map fun a => (a.1, arrayOf a.2)).filter fun a => decide (a.2.stream = stream))[(bindersOf fs stream).length]?
  | _, _ => none

/-- Binds the stream context of a FETCH STREAM (R276). -/
def State.bindStream (s : State) (c : DCtx) (d : BitVec 512) (f : FetchOp) : State :=
  let a := s.consumerOf c f.stream
  let kind := if s.fetchEmpty c.tile f then 1 else if s.fetchOutside c.model c.tile f then 2 else 0
  let st : Stream := { id := f.stream, model := c.model, sec := f.sec, start := s.fetchStart c.tile f, len := f.length,
                       staged := f.staged, spAddr := f.spAddr, rsLoad := f.rsLoad, kind := kind, layer := dLayer d,
                       rsPending := f.rsLoad && decide (kind = 0), rsIndex := (a.map (·.2.rsIndex)).getD 0,
                       rsCount := (a.map (·.2.n)).getD 0, cohort := c.cohort, place := (a.map (·.1)).getD 0 }
  s.modTile c.tile fun x => { x with streams := x.streams ++ [st] }

/-- The range needs no window slot, or none that is missing. -/
def State.fetchReady (s : State) (c : DCtx) (f : FetchOp) : Option Nat :=
  if s.fetchEmpty c.tile f || s.fetchOutside c.model c.tile f then none else s.fetchLate c.model f

/-- FETCH_STREAM (R275, R276): once the WAIT is settled, the context free and the window slot filled, the context is
bound to the range; DONE follows. -/
def execFetchStream (c : DCtx) (d : BitVec 512) (s : State) : Host.Outcome State Fault Refusal :=
  let f := fetchOf d
  let r := s.startDesc c d 3
  match r.1 with
  | none => done s r.2
  | some _ =>
    let s1 := r.2
    match s1.fetchReady c f with
    | some layer => done s ((s1.parkWait c d 3).stallOn c.model c.cohort layer)
    | none =>
      if s1.tiles[c.tile].streams.any fun x => decide (x.id = f.stream) then done s (s1.parkWait c d 3)
      else done s ((s1.bindStream c d f).endDesc c d 3)

/-- FETCH_STAGE (R275, R276): once the WAIT is settled and the window slot filled, the range is copied into the
scratchpad; DONE follows. -/
def execFetchStage (c : DCtx) (d : BitVec 512) (s : State) : Host.Outcome State Fault Refusal :=
  let f := fetchOf d
  let r := s.startDesc c d 3
  match r.1 with
  | none => done s r.2
  | some _ =>
    let s1 := r.2
    if s1.fetchEmpty c.tile f || s1.fetchOutside c.model c.tile f then done s (s1.endDesc c d 3)
    else match s1.fetchReady c f with
      | some layer => done s ((s1.parkWait c d 3).stallOn c.model c.cohort layer)
      | none =>
        let s2 := s1.scrPut c.tile (s1.spBase c.model c.tile + f.spAddr)
          (s1.secBytes c.model f.sec (s1.fetchStart c.tile f) f.length)
        done s (s2.endDesc c d 3)

end Sys2Proof.Machine
end

