-- ==== Sys2Proof/Machine/KvOps.lean ====
section
/-!
DEFINITION. Sys2Proof/Machine/KvOps.lean: page geometry and the places of keys and values in a frame (R158 to R163), the
rotary tables (R202, R203), and a sequence's page list.
-/
namespace Sys2Proof.Machine

/-! ## Geometry (R158, R159) -/

/-- The page geometry of a slot's image for its part. -/
def imageGeometry (im : Image) (part : Nat) : Option Geometry := partBody im part SecBody.geometry?

/-- The page geometry of a model (R158). -/
def State.geometry? (s : State) (m : SlotIx) : Option Geometry := s.ownBody m SecBody.geometry?

/-- Bits of one element in cache. -/
def geoBits (g : Geometry) : Nat := if g.kvFmt = 0 then 8 else 4

/-- Bytes of the codes of one vector (R159). -/
def geoVec (g : Geometry) : Nat := g.headDim * geoBits g / 8

/-- Bytes of one code block (R158). -/
def geoBlock (g : Geometry) : Nat := 256 * geoVec g

/-- Bytes of one vector's sidecar (R158). -/
def geoSc (g : Geometry) : Nat := if g.kvFmt = 0 then g.headDim / 32 else g.headDim / 32 + g.headDim / 64

/-- Bytes of the code region (R158). -/
def geoCodes (g : Geometry) : Nat := g.layersP * g.groupsP * 2 * geoBlock g

/-- Frame size F (R158). -/
def geoFrame (g : Geometry) : Nat := roundUp (geoCodes g + g.layersP * g.groupsP * 2 * 256 * geoSc g) 65536

/-- Byte of the codes of layer l, group grp, kind k, page position p within a frame (R159). -/
def codeAddr (g : Geometry) (l grp k p : Nat) : Nat := ((l * g.groupsP + grp) * 2 + k) * geoBlock g + p * geoVec g

/-- Byte of their sidecar (R159). -/
def sideAddr (g : Geometry) (l grp k p : Nat) : Nat :=
  geoCodes g + ((l * g.groupsP + grp) * 2 + k) * 256 * geoSc g + p * geoSc g

/-- Byte of a frame in a pool's store. -/
def frameBase (f : Nat) : Nat := 2 ^ 40 * f

/-- Bytes of a frame. -/
def State.frameBytes (s : State) (m : SlotIx) (f a n : Nat) : Bytes := getBytes s.models[m].pool.data (frameBase f + a) n

/-- The state with bytes written into a frame. -/
def State.putFrame (s : State) (m : SlotIx) (f a : Nat) (b : Bytes) : State :=
  s.modPool m fun p => { p with data := putBytes p.data (frameBase f + a) b }

/-- A frame's tile (R160). -/
def frameTile (f : Nat) : TileIx := Fin.ofNat 4 (f / 2 ^ 22)

/-- The scale bytes tell a special group (R55). -/
def sideSpecial (g : Geometry) (side : Bytes) : Bool := (side.take (g.headDim / 32)).any fun b => decide (b = 255)

/-- A vector read from its codes and sidecar (R60, R61, R63). -/
def kvValues (g : Geometry) (codes side : Bytes) : List Num :=
  (List.range (g.headDim / 32)).flatMap fun i =>
    let scale := (side[i]?.getD 0).toNat
    if g.kvFmt = 0 then k8Values scale (((codes.drop (32 * i)).take 32).map (·.toNat))
    else
      let zb := (side[g.headDim / 32 + i / 2]?.getD 0).toNat
      let z := signed 4 (bits zb (4 * (i % 2)) 4)
      let c := (codes.drop (16 * i)).take 16
      k4Values scale z (c.flatMap fun b => [b.toNat % 16, b.toNat / 16])

/-- Codes and sidecar of a vector to be written, and its groups (R58 to R62). -/
def kvNarrow (g : Geometry) (xs : List Num) : Bytes × Bytes × List (List Num × Group) :=
  let gs := (List.range (g.headDim / 32)).map fun i =>
    let x := (xs.drop (32 * i)).take 32
    (x, if g.kvFmt = 0 then narrowK8 x else narrowK4 x)
  let codes := gs.flatMap fun p => packCodes (geoBits g) p.2.codes
  let scales : Bytes := gs.map fun p => BitVec.ofNat 8 p.2.scale
  let zps := if g.kvFmt = 0 then [] else packCodes 4 (gs.map fun p => unsigned 4 p.2.zp)
  (codes, scales ++ zps, gs)

/-! ## The page list (R161, R162) -/

/-- FRAME of an entry. -/
def peFrame (e : BitVec 32) : Nat := fld e 0 24
/-- SHARED of an entry. -/
def peShared (e : BitVec 32) : Bool := bit e 24
/-- SWAPPED of an entry. -/
def peSwapped (e : BitVec 32) : Bool := bit e 25
/-- SPECULATIVE of an entry. -/
def peSpec (e : BitVec 32) : Bool := bit e 26
/-- SUMMARY_VALID of an entry. -/
def peSummary (e : BitVec 32) : Bool := bit e 27

/-- First page of the local list: the spans before it left for Relay members (R231). -/
def Seq.firstPage (q : Seq) : Nat := 256 * q.relayMap.length

/-- The entry of page j on this package. -/
def Seq.page? (q : Seq) (j : Nat) : Option (BitVec 32) := if j < q.firstPage then none else q.pages[j - q.firstPage]?

/-- The sequence with page j's entry replaced by f of it. -/
def Seq.modPage (q : Seq) (j : Nat) (f : BitVec 32 → BitVec 32) : Seq :=
  if j < q.firstPage then q else { q with pages := q.pages.modify (j - q.firstPage) f }

/-- Pages the sequence has, spilled ones counted. -/
def Seq.pageCount (q : Seq) : Nat := q.firstPage + q.pages.length

/-! ## Rotary positions (R202, R203) -/

/-- Rotary table n of a slot's image, for this package's part. -/
def State.rotTable? (s : State) (m : SlotIx) (n : Nat) : Option RotTable := (s.ownBody m SecBody.rotary?).bind fun t => t[n]?

/-- A value rounded to FP32 (R53). -/
def rnd32 (x : Num) : Num := fp32 (toFp32 x).1

/-- Element j of a rotated vector (R203), and whether its rounding overflowed; cs holds cos and sin of each pair. -/
def rotElem (t : RotTable) (cs : List (Num × Num)) (xs : List Num) (j : Nat) : Num × Bool :=
  let at' (i : Nat) : Num := xs.getD i .zero
  if t.rotDim ≤ j then (at' j, false)
  else
    let half := t.rotDim / 2
    let i := if t.pairing then j % half else j / 2
    let second := if t.pairing then decide (half ≤ j) else decide (j % 2 = 1)
    let x := if t.pairing then at' i else at' (2 * i)
    let y := if t.pairing then at' (i + half) else at' (2 * i + 1)
    let c := cs.getD i (.fin false 1 0, .zero)
    let r := toFp32 (if second then (x.mul c.2).add (y.mul c.1) else (x.mul c.1).sub (y.mul c.2))
    (fp32 r.1, r.2)

/-- A vector rotated at position p (R203), and whether a rounding overflowed; without a table it is as it was. -/
def rotateFl (t : Option RotTable) (p : Nat) (xs : List Num) : List Num × Bool :=
  match t with
  | none => (xs, false)
  | some t =>
    let cs := (t.freq.take (t.rotDim / 2)).map (rotPair p)
    let ys := (List.range xs.length).map (rotElem t cs xs)
    (ys.map (·.1), ys.any (·.2))

/-- A vector rotated at position p (R203). -/
def rotate (t : Option RotTable) (p : Nat) (xs : List Num) : List Num := (rotateFl t p xs).1

end Sys2Proof.Machine
end

