-- ==== Sys2Proof/Machine/Append.lean ====
section
/-!
DEFINITION. Sys2Proof/Machine/Append.lean: the APPEND descriptor (R165 to R167, R110, R112, R184).
-/
namespace Sys2Proof.Machine

/-- The fields of an APPEND descriptor (R165). -/
structure AppendOp where
  src : Nat
  fp : Bool
  stride : Nat
  kOff : Nat
  vOff : Nat
  gFirst : Nat
  gCount : Nat
deriving DecidableEq, Repr, Inhabited

/-- Reads an APPEND descriptor (R165). -/
def appendOf (d : BitVec 512) : AppendOp :=
  { src := dField d 0x10 0 28, fp := decide (dField d 0x10 28 1 = 1), stride := dField d 0x14 0 24,
    kOff := dField d 0x18 0 16, vOff := dField d 0x18 16 16, gFirst := dField d 0x1C 0 8, gCount := dField d 0x1C 8 8 }

/-- n source elements of a row from an element offset (R165). -/
def State.appendSource (s : State) (c : DCtx) (a : AppendOp) (r : Fin 32) (off n : Nat) : List Num :=
  let at0 := s.spBase c.model c.tile + a.src + r.val * a.stride
  (List.range n).map fun i =>
    if a.fp then fp32 (BitVec.ofNat 32 (leNat (s.scrGet c.tile (at0 + 4 * (off + i)) 4)))
    else bf16 (BitVec.ofNat 16 (leNat (s.scrGet c.tile (at0 + 2 * (off + i)) 2)))

/-- The layer is counted in the KV counters of a tile (R112). -/
def kvCounts (sel : BitVec 32) (layer : Nat) : Bool := bit sel 8 || decide (fld sel 0 8 = layer)

/-- A selection that was written waits for the boundaries of fewer cohorts; with none left it takes effect and the counters of
the selection before are cleared (R113). -/
def Tile.layerBoundary (x : Tile) (waits : SlotIx × CohIx → Bool) : Tile :=
  match x.kvLayerNext with
  | none => x
  | some (v, ks) =>
    if ks.any waits then { x with kvLayerNext := some (v, ks.filter waits) }
    else { x with kvLayerSel := v, kvLayerNext := none, kvErr := 0, kvGroups := 0 }

/-- The cohorts that are open. -/
def State.openCohorts (s : State) : List (SlotIx × CohIx) := s.cohorts.map fun k => (k.model, k.index)

/-- A step boundary of a cohort, as the tiles' layer selections see it (R113). -/
def State.layerBoundary (s : State) (m : SlotIx) (c : CohIx) : State :=
  { s with tiles := s.tiles.map fun x => x.layerBoundary fun y => decide (y ≠ (m, c)) && s.openCohorts.contains y }

/-- Counts the groups an APPEND narrowed on its tile (R110, R112). -/
def State.countKv (s : State) (t : TileIx) (layer : Nat) (gs : List (List Num × Group)) : State :=
  if kvCounts s.tiles[t].kvLayerSel layer then
    let good := gs.filter fun g => !g.2.special
    s.modTile t fun x => { x with
      kvErr := good.foldl (fun (w : BitVec 64) g =>
        let e := groupError g.1 g.2.back
        (add32 (w.extractLsb' 32 32) e.2) ++ (add32 (w.extractLsb' 0 32) e.1)) x.kvErr
      kvGroups := bump (bump x.kvGroups 0 32 good.length) 32 32 (gs.length - good.length) }
  else s

/-- Writes one vector of a row into its frame (R159, R167). -/
def State.appendVector (s : State) (c : DCtx) (g : Geometry) (layer frame grp kind q : Nat) (xs : List Num) : State :=
  let n := kvNarrow g xs
  let s := s.putFrame c.model frame (codeAddr g layer grp kind q) n.1
  let s := s.putFrame c.model frame (sideAddr g layer grp kind q) n.2.1
  s.countKv c.tile layer n.2.2

/-- Writes one row's keys and values (R167); a row whose sequence has no page here writes nothing (log entry 30). -/
def State.appendRow (s : State) (c : DCtx) (a : AppendOp) (g : Geometry) (layer : Nat) (k : Cohort) (r : Fin 32) : State :=
  let p := k.rows[r].position.toNat
  match (s.seq? k.rows[r].handle).bind fun q => q.page? (p / 256) with
  | none => s
  | some e =>
    (List.range a.gCount).foldl (fun s i =>
      let s := s.appendVector c g layer (peFrame e) (a.gFirst + i) 0 (p % 256)
        (s.appendSource c a r (a.kOff + i * g.headDim) g.headDim)
      s.appendVector c g layer (peFrame e) (a.gFirst + i) 1 (p % 256)
        (s.appendSource c a r (a.vOff + i * g.headDim) g.headDim)) s

/-- Rows of a mask whose KIND is not empty. -/
def liveRows (k : Cohort) (m : BitVec 32) : List (Fin 32) := (maskRows m).filter fun r => decide (k.rows[r].kind ≠ 0)

/-- A row's page is still being copied (R184). -/
def State.copying (s : State) (k : Cohort) (r : Fin 32) : Bool :=
  match s.seq? k.rows[r].handle with
  | some q => q.cow.any fun y => decide (y.1 = k.rows[r].position.toNat / 256)
  | none => false

/-- APPEND_KV (R165, R167): once its WAIT is settled and no page of its rows is being copied, each row's keys and values
are narrowed into its page; DONE follows. -/
def execAppendKv (c : DCtx) (d : BitVec 512) (s : State) : Host.Outcome State Fault Refusal :=
  let r := s.startDesc c d 4
  match r.1 with
  | none => done s r.2
  | some k =>
    let rows := liveRows k (effMask k d)
    if rows.any (r.2.copying k) then done s (r.2.parkWait c d 4)
    else match r.2.geometry? c.model with
      | some g =>
        let a := appendOf d
        let t := rows.foldl (fun s row => s.appendRow c a g (dLayer d).toNat k row) r.2
        done s (t.endDesc c d 4)
      | none => done s (r.2.endDesc c d 4)

end Sys2Proof.Machine
end

