-- ==== Sys2Proof/Machine/Net.lean ====
section
/-!
DEFINITION. Sys2Proof/Machine/Net.lean: Malny addresses, routes, packets and their sending (R312, R313, R322 to R327, R333,
R335).
-/
namespace Sys2Proof.Machine

/-! ## Addresses and hops (R312, R313) -/

/-- RACK_ID of an address. -/
def adRack (a : BitVec 16) : Nat := fld a 8 8
/-- BOARD_ID of an address. -/
def adBoard (a : BitVec 16) : Nat := fld a 4 4
/-- SLOT_ID of an address. -/
def adSlot (a : BitVec 16) : Nat := fld a 0 3
/-- x of a board. -/
def boardX (b : Nat) : Nat := b % 4
/-- y of a board. -/
def boardY (b : Nat) : Nat := b / 4 % 4

/-- An address. -/
def mkAddr (rack board slot : Nat) : BitVec 16 := BitVec.ofNat 16 (rack * 256 + board * 16 + slot)

/-- The expected peer of a port of the package at (rack, board, slot), M11 apart, and the peer's port (R313). -/
def meshPeer (rack board slot : Nat) (p : Nat) : BitVec 16 × Nat :=
  let x := boardX board
  let y := boardY board
  let b (x y : Nat) : Nat := 4 * (y % 4) + x % 4
  if p ≤ 6 then (mkAddr rack board ((slot + p + 1) % 8), 6 - p)
  else if p = 7 then (mkAddr rack (b (x + 1) y) slot, 8)
  else if p = 8 then (mkAddr rack (b (x + 3) y) slot, 7)
  else if p = 9 then (mkAddr rack (b x (y + 1)) slot, 10)
  else (mkAddr rack (b x (y + 3)) slot, 9)

/-- The port of the package at a that leads to its direct neighbour b (R313). -/
def portTo (a b : BitVec 16) : PortIx :=
  if adBoard a = adBoard b then Fin.ofNat 12 ((adSlot b + 16 - adSlot a - 1) % 8)
  else
    let dx := (boardX (adBoard b) + 4 - boardX (adBoard a)) % 4
    let dy := (boardY (adBoard b) + 4 - boardY (adBoard a)) % 4
    if dx = 1 then 7 else if dx = 3 then 8 else if dy = 1 then 9 else 10

/-- STATE of a port (R321). -/
def portState (p : Port) : Nat := fld p.reg 0 3

/-- The port is UP. -/
def State.portUp (s : State) (p : PortIx) : Bool := decide (portState s.ports[p] = 4)

/-- The address in the peer's discovery record (R321). -/
def portPeer (w : BitVec 64) : BitVec 16 := w.extractLsb' 41 16

/-- A port as far as one that retrains counts: it gives no route (R319), but traffic for it waits and is not lost (R326; log
entry 112). -/
def State.portServes (s : State) (retrain : Bool) (p : PortIx) : Bool :=
  s.portUp p || (retrain && decide (portState s.ports[p] = 5))

/-! ## Paths (R333) -/

/-- Coordinates visited from a to b on one axis, the shorter way, ties by plus. -/
def axisSteps (a b : Nat) (plus : Bool) : List Nat :=
  match (b + 4 - a) % 4 with
  | 0 => []
  | 1 => [b]
  | 3 => [b]
  | _ => if plus then [(a + 1) % 4, b] else [(a + 3) % 4, b]

/-- Boards visited after the source board, by axis order (R333). -/
def boardSteps (src dst : Nat) (xFirst plus : Bool) : List Nat :=
  let xs := axisSteps (boardX src) (boardX dst) plus
  let ys := axisSteps (boardY src) (boardY dst) plus
  if xFirst then xs.map (fun x => 4 * boardY src + x) ++ ys.map (fun y => 4 * y + boardX dst)
  else ys.map (fun y => 4 * y + boardX src) ++ xs.map (fun x => 4 * boardY dst + x)

/-- Candidate n, 0 to 7, of R333: the addresses after the source. -/
def candidate (src dst : BitVec 16) (n : Nat) : List (BitVec 16) :=
  let xFirst := decide (n % 4 < 2)
  let plus := decide (n % 2 = 0)
  let last := decide (n < 4)
  let bs := boardSteps (adBoard src) (adBoard dst) xFirst plus
  let rack := adRack src
  let mesh := adSlot src ≠ adSlot dst
  if last then bs.map (fun b => mkAddr rack b (adSlot src)) ++ (if mesh then [dst] else [])
  else (if mesh then [mkAddr rack (adBoard src) (adSlot dst)] else []) ++ bs.map fun b => mkAddr rack b (adSlot dst)

/-- The first hop of a path leaves through a port that serves; links of other packages are taken as UP (log entry 33). -/
def State.pathUp (s : State) (retrain : Bool) (src : BitVec 16) (path : List (BitVec 16)) : Bool :=
  match path with
  | [] => true
  | b :: _ => if src = s.address then s.portServes retrain (portTo src b) else true

/-- A board's packages reached through an uplink to a rack (R314, R333): the nearest, ties to the lower address. -/
def State.uplinkVia (s : State) (src : BitVec 16) (rack : Nat) : Option (BitVec 16) :=
  match s.um.live.plan with
  | some p => match p.uplink with
    | some t =>
      let ok := (List.range 128).filter fun i => bit (BitVec.ofNat 256 (leAt t (64 * i + 32) 32)) rack
      let hops (i : Nat) : Nat := (candidate src (mkAddr (adRack src) (i / 8) (i % 8)) 0).length
      (sortBy (fun a b => decide (hops a < hops b)) ok).head?.map fun i => mkAddr (adRack src) (i / 8) (i % 8)
    | none => none
  | none => none

/-- The route from src to dst in one rack within a slice's members (R333): its hops. -/
def State.route (s : State) (retrain : Bool) (src dst : BitVec 16) (members : List (BitVec 16)) : Option (List (BitVec 16)) :=
  let cs := ((List.range 8).map (candidate src dst)).filter (s.pathUp retrain src)
  match cs.find? fun p => p.all members.contains with
  | some p => some p
  | none => cs.head?

/-- Where a packet for dst leaves the rack of a package, or dst itself (R333). -/
def State.rackExit (s : State) (src dst : BitVec 16) : Option (BitVec 16) :=
  if adRack dst = adRack src then some dst else s.uplinkVia src (adRack dst)

/-- The next hop from this package towards dst, and whether it rides TRANSIT (R333, R335). -/
def State.hopVia (s : State) (retrain : Bool) (dst : BitVec 16) (members : List (BitVec 16)) : Option (PortIx × Bool) :=
  let own := s.address
  match s.rackExit own dst with
  | none => none
  | some t =>
    if t = own then
      (if adRack dst ≠ adRack own ∧ s.portServes retrain 11 then
        some (11, !members.contains own || !members.contains (portPeer s.ports[(11 : PortIx)].reg)) else none)
    else match s.route retrain own t members with
      | some (b :: _) => some (portTo own b, !members.contains own || !members.contains b)
      | _ => none

/-- The next hop over ports that are UP; failing that, over one that retrains, where the packet waits (R319, R326; log entry
112). -/
def State.nextHop (s : State) (dst : BitVec 16) (members : List (BitVec 16)) : Option (PortIx × Bool) :=
  match s.hopVia false dst members with
  | some y => some y
  | none => s.hopVia true dst members

/-- A pair of members has a route (R319, R333, R336), as far as this package's own ports tell: the path to the package whose
uplink leaves the rack, and that package's M11 where it is this one. -/
def State.routed (s : State) (a b : BitVec 16) (members : List (BitVec 16)) : Bool :=
  decide (a = b) || (match s.rackExit a b with
    | none => false
    | some t => (decide (t = a) || (s.route false a t members).isSome) &&
        (decide (adRack a = adRack b) || decide (t ≠ s.address) || s.portUp 11))

/-! ## Packets (R324) -/

/-- The fields of a packet header. -/
structure Head where
  dest : BitVec 16
  src : BitVec 16
  slice : BitVec 16
  tenant : Nat
  typ : Nat
  last : Bool
  signal : Bool
  discard : Bool
  msg : BitVec 32
  index : Nat
  count : Nat
  addr : Nat
  tile : TileIx
  len : Nat
  model : Nat
  cohort : Nat
  word : Nat
  value : Nat
deriving DecidableEq, Repr, Inhabited

/-- A header as its 256 bits (R324). -/
def Head.bits (h : Head) : BitVec 256 :=
  pack 256 [(0, 16, h.dest.toNat), (16, 16, h.src.toNat), (32, 16, h.slice.toNat), (48, 4, h.tenant), (52, 4, h.typ),
    (56, 1, b2n h.last), (57, 1, b2n h.signal), (58, 1, b2n h.discard), (64, 32, h.msg.toNat), (96, 16, h.index),
    (112, 16, h.count), (128, 28, h.addr), (156, 2, h.tile.val), (160, 12, h.len), (172, 6, h.model), (178, 3, h.cohort),
    (192, 16, h.word), (208, 48, h.value)]

/-- Reads a packet header (R324). -/
def headOf (w : BitVec 256) : Head :=
  { dest := w.extractLsb' 0 16, src := w.extractLsb' 16 16, slice := w.extractLsb' 32 16, tenant := fld w 48 4,
    typ := fld w 52 4, last := bit w 56, signal := bit w 57, discard := bit w 58, msg := w.extractLsb' 64 32,
    index := fld w 96 16, count := fld w 112 16, addr := fld w 128 28, tile := Fin.ofNat 4 (fld w 156 2), len := fld w 160 12,
    model := fld w 172 6, cohort := fld w 178 3, word := fld w 192 16, value := fld w 208 48 }

/-- Packet bytes: header and data (R322, R335). -/
def packetBytes (k : Packet) : Nat := 32 + k.data.length

/-! ## Sending (R323, R326, R327, R335) -/

/-- The hop through a port crosses the wrap of its axis (R327). -/
def State.crosses (s : State) (p : PortIx) : Bool :=
  let b := adBoard s.address
  (decide (p.val = 7) && decide (boardX b = 3)) || (decide (p.val = 8) && decide (boardX b = 0)) ||
  (decide (p.val = 9) && decide (boardY b = 3)) || (decide (p.val = 10) && decide (boardY b = 0))

/-- The link header of a frame (R323); the credit is its virtual channel and count. -/
def linkHeader (credit : Nat × Nat) (codewords : Nat) (cls : Bool) (vc : Nat) (nak : Bool) (ack seq : BitVec 24) : BitVec 64 :=
  pack 64 [(62, 2, credit.1), (56, 6, credit.2), (52, 4, codewords - 1), (51, 1, b2n cls), (49, 2, vc), (48, 1, b2n nak), (24, 24, ack.toNat), (0, 24, seq.toNat)]

/-- Codewords of a frame with a packet of n bytes (R322). -/
def frameWords (n : Nat) : Nat := (8 + n + 24 + 225) / 226

/-- The virtual channel whose emptied buffers the next frame returns, and how many (R323); DATA is withheld by R299. -/
def Port.credit (p : Port) : Nat × Nat :=
  match (List.finRange 4).find? fun v => decide (0 < p.owed[v]) && !(decide (v = 0) && p.stopData) with
  | some v => (v.val, min 63 p.owed[v])
  | none => (0, 0)

/-- The port once its next frame has returned those buffers. -/
def Port.returned (p : Port) : Port :=
  { p with owed := vmod p.owed (Fin.ofNat 4 p.credit.1) fun n => n - p.credit.2 }

/-- A frame's bytes up to its tag: header, packet and the zero padding that fills the last codeword (R322). -/
def frameBody (hdr : BitVec 64) (body : Bytes) : Bytes :=
  toLE 8 hdr.toNat ++ body ++ List.replicate (226 * frameWords body.length - 32 - body.length) 0

/-- A frame sealed for its direction (R18, R322, R325): AES-256-GCM under the direction's key, the IV its salt and the frame
counter, the additional data the header with CREDIT, NAK and ACK zero, then the CRC-64 over every earlier byte. The FEC, whose
generator the spec does not give, is left out (log entry 111). -/
def sealFrame (key : Bytes) (counter : Nat) (hdr : BitVec 64) (plain : Bytes) : Wire :=
  let iv := (key.drop 32).take 4 ++ toLE 8 counter
  let body := gcmCrypt (key.take 32) iv plain
  let aad := toLE 8 (setFld (clrBit (setFld hdr 56 8 0) 48) 24 24 0).toNat
  let tag := gcmTag (key.take 32) iv aad body
  { hdr := hdr, body := body, tag := tag, crc := crc64 (frameBody hdr body ++ tag) }

/-- The bytes of a packet: its header and its data (R324). -/
def packetPlain (k : Packet) : Bytes := toLE 32 k.hdr.toNat ++ k.data

/-- The frame that carries an item under a SEQ (R323, R325). -/
def Port.frameOf (x : Port) (credit : Nat × Nat) (f : TxFrame) : Wire :=
  sealFrame x.txKey (f.wraps * 2 ^ 24 + f.seq.toNat)
    (linkHeader credit (frameWords (packetBytes f.item.packet)) f.item.cls f.item.vc.toNat false x.expect f.seq)
    (packetPlain f.item.packet)

/-- Sends a frame with a packet on a port (R323, R325, R326): it takes SEQ and a replay place, and one credit of its
virtual channel (R327). -/
def State.sendFrame (s : State) (p : PortIx) (q : Queued) : State :=
  s.modPort p fun x =>
    let f : TxFrame := { seq := x.seq, wraps := x.wraps, item := q }
    { x.returned with
      seq := x.seq + 1
      wraps := if x.seq + 1 = 0 then x.wraps + 1 else x.wraps
      replay := x.replay ++ [f]
      sent := x.sent ++ [x.frameOf x.credit f]
      credits := vmod x.credits q.vc.toFin fun n => n - 1 }

/-- A frame on a virtual channel may start on a port (R326, R327). -/
def State.maySend (s : State) (p : PortIx) (vc : Fin 4) : Bool :=
  s.portUp p && decide (s.ports[p].replay.length < 512) && decide (0 < s.ports[p].credits[vc])

/-- The first waiting packet of a virtual channel. -/
def Port.firstOf (x : Port) (vc : BitVec 2) : Option Queued := x.waiting.find? fun q => decide (q.vc = vc)

/-- Sends the first waiting packet of a virtual channel, if there is one and it may start (R326, R327). -/
def State.sendNext (s : State) (p : PortIx) (vc : BitVec 2) : Option State :=
  match s.ports[p].firstOf vc with
  | some q =>
    if s.maySend p vc.toFin then
      some ((s.modPort p fun x => { x with waiting := dropFirst (fun e => decide (e.vc = vc)) x.waiting }).sendFrame p q)
    else none
  | none => none

/-- Sends waiting packets of a port, CONTROL before DATA, as long as credits and room allow (R326, R327). -/
def State.pump (s : State) (p : PortIx) : Nat → State
  | 0 => s
  | n + 1 =>
    match s.sendNext p 1 with
    | some t => t.pump p n
    | none => match s.sendNext p 0 with
      | some t => t.pump p n
      | none => s

/-- Everything a port may send now. -/
def State.pumpPort (s : State) (p : PortIx) : State := s.pump p s.ports[p].waiting.length

/-- Queues a packet on a port (R327, R335): TRANSIT waits for the allowance. -/
def State.queuePacket (s : State) (p : PortIx) (transit : Bool) (vc : BitVec 2) (cls : Bool) (k : Packet) : State :=
  if transit then s.modPort p fun x => { x with transit := x.transit ++ [{ vc := 2, cls := cls, packet := k }] }
  else (s.modPort p fun x => { x with waiting := x.waiting ++ [{ vc := vc, cls := cls, packet := k }] }).pumpPort p

/-- A packet of a slice's traffic that finds no route (R13, R328): its message cannot be delivered whole, and the CUT is due. -/
def State.noRoute (s : State) (k : Packet) : State :=
  let h := headOf k.hdr
  if h.typ ≤ 5 ∧ !s.undelivered.contains h.slice then { s with undelivered := s.undelivered ++ [h.slice] } else s

/-- Sends a packet to its DEST (R324, R333): a packet for this package arrives at once; one without a route is lost. -/
def State.sendPacket (s : State) (members : List (BitVec 16)) (control : Bool) (k : Packet) : State :=
  let dest := (headOf k.hdr).dest
  if dest = s.address then { s with inbox := s.inbox ++ [k] }
  else match s.nextHop dest members with
    | some (p, transit) => s.queuePacket p transit (if control then 1 else 0) (s.crosses p) k
    | none => s.noRoute k

/-- Sends the packets of a list in order. -/
def State.sendAll (s : State) (members : List (BitVec 16)) (control : Bool) (ks : List Packet) : State :=
  ks.foldl (fun s k => s.sendPacket members control k) s

/-- A control message to an address, of a slice or of hub management, cut into packets (R324). -/
def State.control (s : State) (slice : BitVec 16) (members : List (BitVec 16)) (tenant typ : Nat) (dest : BitVec 16) (data : Bytes) :
    State :=
  let n := max 1 (cdiv data.length 3552)
  let ks := (List.range n).map fun i =>
    let part := (data.drop (3552 * i)).take 3552
    let h : Head := { dest := dest, src := s.address, slice := slice, tenant := tenant, typ := typ, last := decide (i + 1 = n),
                      signal := false, discard := false, msg := s.msgId, index := i, count := n, addr := 0, tile := 0,
                      len := part.length, model := 0, cohort := 0, word := 0, value := 0 }
    ({ hdr := h.bits, data := part } : Packet)
  { (s.sendAll members true ks) with msgId := s.msgId + 1 }

/-- Two packets belong to one message (R324). -/
def sameMessage (a b : Packet) : Bool :=
  decide ((headOf a.hdr).src = (headOf b.hdr).src) && decide ((headOf a.hdr).msg = (headOf b.hdr).msg) &&
  decide ((headOf a.hdr).typ = (headOf b.hdr).typ)

/-- The first message of a type that waits is taken, with all its packets (R324). -/
def State.takeType (s : State) (typ : Nat) : State :=
  match s.inbox.find? fun k => decide ((headOf k.hdr).typ = typ) with
  | some k => { s with inbox := s.inbox.filter fun x => !sameMessage k x }
  | none => s

/-! ## Routes after a change (R333, R336) -/

/-- A slice has an open cohort on the package. -/
def State.sliceRuns (s : State) (x : Slice) : Bool :=
  s.cohorts.any fun k => (s.load? k.model).any fun l => decide (l.sliceId = x.id)

/-- A slice that a member's leaving took down stays so while a model is loaded in it (R307, R336). -/
def State.sliceStuck (s : State) (x : Slice) : Bool :=
  x.memberLost && (List.finRange 64).any fun m => (s.load? m).any fun l => decide (l.sliceId = x.id)

/-- Slices with no cohort stepping stand at a boundary: their state follows the ports at once (R333, R336). -/
def State.rerouteIdle (s : State) : State :=
  { s with slices := s.slices.map fun x =>
      if s.sliceStuck x || decide (x.state = .pending) || s.sliceRuns x then x
      else if x.members.all fun a => decide (a = s.address) || s.routed s.address a x.members then { x with state := .active, memberLost := false }
      else { x with state := .down } }

/-! ## Relay messages (R230, R232) -/

/-- The header of a Relay block (R232; log entry 32). -/
def relayHeader (handle : BitVec 32) (page layer len : Nat) : BitVec 512 :=
  pack 512 [(0, 32, handle.toNat), (32, 32, page), (64, 8, layer), (96, 32, len)]

/-- A message of type RELAY for a member of the model's slice, cut into packets, towards the tile of a frame number (R230, R232). -/
def State.relayMessage (s : State) (m : SlotIx) (dest : BitVec 16) (frame : Nat) (all : Bytes) : State :=
  let n := cdiv all.length 3552
  let slice := match s.sliceOf m with | some y => y.id | none => 0
  let members := match s.sliceOf m with | some y => y.members | none => []
  let ks := (List.range n).map fun i =>
    let part := (all.drop (3552 * i)).take 3552
    let h : Head := { dest := dest, src := s.address, slice := slice, tenant := (s.ownerOf m).val, typ := 3, last := decide (i + 1 = n),
                      signal := false, discard := false, msg := s.msgId, index := i, count := n, addr := 0, tile := Fin.ofNat 4 frame,
                      len := part.length, model := m.val, cohort := 0, word := 0, value := 0 }
    ({ hdr := h.bits, data := part } : Packet)
  let s := s.sendAll members false ks
  { s with msgId := s.msgId + 1 }

end Sys2Proof.Machine
end

