-- ==== Sys2Proof/Machine/Lens.lean ====
section
/-!
DEFINITION. Sys2Proof/Machine/Lens.lean: page summaries, their ranking and the Lens selection (R220 to R227).
-/
namespace Sys2Proof.Machine

/-- The Lens section of a slot's image for its part (R223). -/
def State.lens? (s : State) (m : SlotIx) : Option (List (BitVec 32)) := s.ownBody m SecBody.lens?

/-- The Lens entry of a layer. -/
def State.lensEntry (s : State) (m : SlotIx) (layer : Nat) : BitVec 32 := ((s.lens? m).getD []).getD layer 0

/-- The rotary table a Lens or PRISM field names: none unless enabled. -/
def State.rotOf (s : State) (m : SlotIx) (en : Bool) (rot : Nat) : Option RotTable := if en then s.rotTable? m rot else none

/-! ## Summaries (R220 to R222) -/

/-- The keys of one layer and group of a frame, by page position (R221 step 1). -/
def State.pageKeys (s : State) (m : SlotIx) (g : Geometry) (f l grp : Nat) : List (List Num) :=
  (List.range 256).map fun q =>
    kvValues g (s.frameBytes m f (codeAddr g l grp 0 q) (geoVec g)) (s.frameBytes m f (sideAddr g l grp 0 q) (geoSc g))

/-- A key group of the layer and group is special (R221 step 6). -/
def State.pageSpecial (s : State) (m : SlotIx) (g : Geometry) (f l grp : Nat) : Bool :=
  (List.range 256).any fun q => sideSpecial g (s.frameBytes m f (sideAddr g l grp 0 q) (geoSc g))

/-- The mean of one dimension (R221 steps 3 and 4). -/
def meanOf (xs : List Num) : BitVec 16 :=
  (toBf16 ((xs.foldl (fun a x => rnd32 (a.add x)) .zero).mul (.fin false 1 (-8)))).1

/-- A value rounded to FP32 toward +inf (R221 step 5); a negative one that FP32 does not reach gives the lowest finite value. -/
def rnd32Up (x : Num) : Num :=
  match x with
  | .fin true m e => let r := pickUlp false true m e; fp32 (if r.2 then 0xFF7FFFFF else r.1)
  | x => fp32 (toFp32Up x).1

/-- The distance of a key from the centroid, every step rounded toward +inf (R221 step 5; log entry 29). -/
def distUp (k c : List Num) : Num :=
  let sq := (k.zip c).foldl (fun a p =>
    let d := rnd32Up (p.1.sub p.2)
    rnd32Up (a.add (rnd32Up (d.mul d)))) .zero
  rnd32Up sq.sqrt

/-- The summary of a page's layer and group (R221). -/
def State.summarise (s : State) (m : SlotIx) (g : Geometry) (page f l grp : Nat) : Summary :=
  if s.pageSpecial m g f l grp then
    { frame := f, layer := l, group := grp, centroid := List.replicate g.headDim 0, radius := 0, special := true }
  else
    let e := s.lensEntry m l
    let rot := s.rotOf m (bit e 4) (fld e 0 4)
    let ks := ((s.pageKeys m g f l grp).zip (List.range 256)).map fun p => rotate rot (256 * page + p.2) p.1
    let cen := (List.range g.headDim).map fun i => meanOf (ks.map fun k => k.getD i .zero)
    let r := (ks.map fun k => distUp k (cen.map bf16)).foldl (fun a x => if a.lt x then x else a) .zero
    { frame := f, layer := l, group := grp, centroid := cen, radius := (toFp32 r).1, special := false }

/-- Summarises a page (R221, R222): every layer and group the package holds. -/
def State.summarisePage (s : State) (m : SlotIx) (page f : Nat) : State :=
  match s.geometry? m with
  | none => s
  | some g =>
    let new := (List.range g.layersP).flatMap fun l => (List.range g.groupsP).map fun grp => s.summarise m g page f l grp
    s.modPool m fun p => { p with summaries := (p.summaries.filter fun x => !decide (x.frame = f)) ++ new }

/-- A page of a sequence that the builder summarises (R222): local, full with accepted tokens, not speculative. -/
def Seq.summarisable (q : Seq) (page : Nat) : Bool :=
  match q.page? page with
  | some e => !peSpec e && !peSwapped e && !peSummary e && decide (256 * (page + 1) ≤ q.written)
  | none => false

/-- LENS_SUMMARY (R221, R222): the builder summarises a full page and SUMMARY_VALID is set in its entry. -/
def execLensSummary (handle : Key) (page : Nat) (s : State) : Host.Outcome State Fault Refusal :=
  match s.seq? handle with
  | none => done s s
  | some q =>
    if (s.lens? q.model).isSome && q.summarisable page then
      match q.page? page with
      | some e =>
        let s := s.summarisePage q.model page (peFrame e)
        done s (s.modSeq handle fun q => q.modPage page fun e => setBit e 27)
      | none => done s s
    else done s s

/-! ## Ranking and selection (R224, R225) -/

/-- q · ĉ + |q| × RADIUS of one head (R224). -/
def headRank (q : List Num) (x : Summary) : Num :=
  let dot := (q.zip x.centroid).foldl (fun a p => rnd32 (p.1.fma (bf16 p.2) a)) .zero
  let nrm := rnd32 (q.foldl (fun a v => rnd32 (a.add (rnd32 (v.mul v)))) .zero).sqrt
  rnd32 (dot.add (rnd32 (nrm.mul (fp32 x.radius))))

/-- The rank of a summary for the query heads of a row (R224); SPECIAL ranks as +∞. -/
def rankOf (heads : List (List Num)) (x : Summary) : Num :=
  if x.special then .inf false
  else
    let rs := heads.map fun q => headRank q x
    if rs.any Num.isNan then .nan false else maxNum rs

/-- Rank a is above rank b; a NaN lies below every other (R224). -/
def rankAbove (a b : Num) : Bool := !a.isNan && (b.isNan || b.lt a)

/-- What the selection of one row came to: its pages, and the tiles of the candidates scored and of those without a
summary (R225, R227). -/
structure Selection where
  pages : List Nat
  /-- the pages that their ranks selected (R225 step 4). -/
  scored : List Nat := []
  ranked : List TileIx := []
  unsummarised : List TileIx := []
deriving DecidableEq, Repr

/-- The Lens selection of a row at position p for a layer and group (R225). -/
def State.lensSelect (s : State) (q : Seq) (layer grp window : Nat) (heads : List (List Num)) (p : Nat) : Selection :=
  let h := p / 256
  if h + 1 ≤ 145 ∨ bit (s.lensEntry q.model layer) 5 then { pages := List.range (h + 1) }
  else
    let keep := 0 :: (List.range 16).map fun i => h - 15 + i
    let cand := ((List.range (h - 16)).map (· + 1)).filter fun j => window = 0 || decide (p < 256 * j + 255 + window)
    if cand.length ≤ 128 then { pages := sortNats (keep ++ cand) }
    else
      let entry (j : Nat) : BitVec 32 := (q.page? j).getD 0
      let un := cand.filter fun j => !peSummary (entry j)
      let tiles (l : List Nat) : List TileIx := l.map fun j => frameTile (peFrame (entry j))
      if 128 ≤ un.length then { pages := sortNats (keep ++ un), unsummarised := tiles un }
      else
        let sums := s.models[q.model].pool.summaries
        let with' := cand.filter fun j => peSummary (entry j)
        let ranks := with'.map fun j =>
          (j, match sums.find? fun x => decide (x.frame = peFrame (entry j)) && decide (x.layer = layer) &&
                decide (x.group = grp) with
              | some x => rankOf heads x
              | none => fp32 (Config.freeRank (peFrame (entry j)) layer grp))
        let best := (sortBy (fun (a b : Nat × Num) => rankAbove a.2 b.2) ranks).take (128 - un.length)
        { pages := sortNats (keep ++ un ++ best.map (·.1)), scored := best.map (·.1), ranked := tiles with', unsummarised := tiles un }

end Sys2Proof.Machine
end

