-- ==== Sys2Proof/WellFormed.lean ====
section
/-!
DEFINITION. Sys2Proof/WellFormed.lean: which operands a command may carry. For a vector instruction these are the rules
R141 to R144; for the others the lengths of what they carry.
-/
namespace Sys2Proof

/-- An operand code that names a register v0–v63 or t0–t15 (R143). -/
def codeReg (c : BitVec 8) : Bool := decide (c < 0x50)

/-- An operand code that names p0–p7 (R143). -/
def codePred (c : BitVec 8) : Bool := decide (0x50 ≤ c ∧ c ≤ 0x57)

/-- An operand code that names p1–p7 (R141 item 3). -/
def codePredDst (c : BitVec 8) : Bool := decide (0x51 ≤ c ∧ c ≤ 0x57)

/-- An operand code that names a scalar c0–c63 (R143). -/
def codeScalar (c : BitVec 8) : Bool := decide (0x80 ≤ c ∧ c ≤ 0xBF)

/-- An operand code that a data source accepts (R143, log entry 28). -/
def codeSrc (c : BitVec 8) : Bool := codeReg c || codeScalar c || decide (c = 0xFE) || decide (c = 0xFF)

/-- An operand code that an address base accepts (R142, R143). -/
def codeBase (c : BitVec 8) : Bool := codeScalar c || decide (0x60 ≤ c ∧ c ≤ 0x63)

/-- An unused operand field (R143). -/
def codeNone (c : BitVec 8) : Bool := decide (c = 0xFF)

/-- MOD of an opcode that is neither LD nor ST: bits [19:17] reserved, and T clear for an FP32-only opcode (R142, R141). -/
def modOk (f : VF) (fpOnly : Bool) : Bool := decide (f.mod < 2) && !(fpOnly && f.mod.getLsbD 0)

/-- The fields of an instruction are legal for its opcode (R141 to R144). -/
def vfOk (op : Nat) (f : VF) : Bool :=
  let d1 := codeReg f.dst && codeSrc f.sa && codeNone f.sb && codeNone f.sc
  let d2 := codeReg f.dst && codeSrc f.sa && codeSrc f.sb && codeNone f.sc
  let noPred := decide (f.pred = 0)
  match op with
  | 0x00 => codeNone f.dst && codeNone f.sa && codeNone f.sb && codeNone f.sc && modOk f false
  | 0x01 => codeReg f.dst && codeBase f.sa && decide (f.sb ≤ 1) && codeNone f.sc && decide (f.mod.toNat % 8 < 4) &&
      !(decide (f.sb = 1) && decide (f.mod.toNat % 8 = 2))
  | 0x02 => codeNone f.dst && codeBase f.sa && decide (f.sb ≤ 1) && codeReg f.sc && decide (f.mod.toNat % 8 < 5) &&
      !(decide (f.sb = 1) && decide (f.mod.toNat % 8 = 2))
  | 0x10 | 0x11 | 0x12 | 0x14 | 0x15 => d2 && modOk f false
  | 0x13 => codeReg f.dst && codeSrc f.sa && codeSrc f.sb && codeSrc f.sc && modOk f false
  | 0x16 | 0x17 => d1 && modOk f false
  | 0x18 => d2 && modOk f true
  | 0x19 | 0x1A | 0x1B | 0x1C | 0x1D => d1 && modOk f true
  | 0x20 | 0x21 | 0x22 => codePredDst f.dst && codeSrc f.sa && codeSrc f.sb && codeNone f.sc && modOk f false
  | 0x23 => codeReg f.dst && codeSrc f.sa && codeSrc f.sb && codePred f.sc && modOk f false
  | 0x28 | 0x29 | 0x2A | 0x2B | 0x2C | 0x2D => d2 && modOk f false
  | 0x30 | 0x31 | 0x32 => d1 && modOk f false
  | 0x38 | 0x39 | 0x3A => d2 && modOk f false && decide (2 ≤ f.imm.toNat % 16) && decide (f.imm.toNat % 16 ≤ 8)
  | 0x40 => codeReg f.dst && codeNone f.sa && codeNone f.sb && codeNone f.sc && modOk f false
  | 0x41 | 0x42 => d1 && modOk f false && decide (1 ≤ f.imm.toNat) && decide (f.imm.toNat ≤ 1023)
  | 0x43 => d2 && modOk f false
  | 0x44 | 0x45 => d1 && modOk f false
  | 0x46 => decide (0x90 ≤ f.dst ∧ f.dst ≤ 0xBF) && codeSrc f.sa && codeNone f.sb && codeNone f.sc && modOk f false && noPred
  | 0x48 => codeNone f.dst && codePred f.sa && codeNone f.sb && codeNone f.sc && modOk f false && noPred
  | 0x49 => d1 && modOk f false && noPred
  | 0x4A => d2 && modOk f false && noPred
  | 0x4B => codeNone f.dst && codeNone f.sa && codeNone f.sb && codeNone f.sc && modOk f false && noPred
  | 0x4C => codeNone f.dst && codeSrc f.sa && codeNone f.sb && codeNone f.sc && modOk f false && noPred
  | 0x4D => codeReg f.dst && codePred f.sa && codeNone f.sb && codeNone f.sc && modOk f false && noPred
  | 0x50 | 0x51 | 0x52 => codePredDst f.dst && codePred f.sa && codePred f.sb && codeNone f.sc && modOk f false
  | 0x53 => codePredDst f.dst && codeNone f.sa && codeNone f.sb && codeNone f.sc && modOk f false
  | _ => false

/-! ## Commands -/

/-- A descriptor of a class and an operation (R29, R30). -/
def descOk (cls op : BitVec 8) (d : BitVec 512) : Bool := decide (d.extractLsb' 0 8 = cls) && decide (d.extractLsb' 8 8 = op)

/-- The operands of a command are such as the block can be given: a vector instruction has a legal encoding (R141 to R144), a
descriptor is of the command's class and operation (R30), and the buffers that a command carries have their lengths (R345, R35,
R373, R331). -/
def Instr.wellFormed : Instr → Bool
  | .admitSeq _ _ _ _ policy _ _ _ => decide (policy.length = 256)
  | .ingest _ _ _ _ => true
  | .importKv _ _ _ _ _ => true
  | .importComplete _ _ _ => true
  | .extend _ _ _ _ _ => true
  | .setPolicy _ _ keep policy _ _ => keep || decide (policy.length = 256)
  | .preempt _ _ _ => true
  | .resume _ _ _ _ => true
  | .cancel _ _ => true
  | .release _ _ => true
  | .modelInstall _ _ _ _ _ _ => true
  | .installCommit _ => true
  | .modelLoad _ _ _ _ => true
  | .loadComplete _ _ => true
  | .modelUnload _ _ => true
  | .modelErase _ _ => true
  | .tenantCreate _ _ _ _ _ _ _ _ => true
  | .tenantDestroy _ _ => true
  | .keyInstall _ _ _ wrapped => decide (wrapped.length = 512)
  | .pagePoolSet _ _ _ _ _ _ _ _ => true
  | .configStage _ _ => true
  | .configCommit _ _ => true
  | .configConfirm _ => true
  | .configRevert _ => true
  | .fwStage _ _ _ => true
  | .fwActivate _ _ => true
  | .sliceDefine _ _ _ _ _ _ _ list => decide (list.length = 528)
  | .sliceRemove _ _ _ => true
  | .sliceAgreementTimeout _ => true
  | .routeLoad _ _ _ _ _ _ _ => true
  | .funcReset _ _ => true
  | .loupeRead _ _ => true
  | .loupeSetFill _ _ _ => true
  | .loupeSetClear _ _ => true
  | .loupeSetPoison _ _ => true
  | .loupeSetScratch _ _ _ _ => true
  | .doorbellWrite _ _ _ _ => true
  | .takeEntry _ _ _ f => !f.ok || (decide (f.entry.length = 64) && decide (f.sealEntry.length = 64))
  | .sealLockExpiry _ => true
  | .irqCoalesceTimer _ _ _ => true
  | .ringEnable _ _ _ _ => true
  | .ringDisable _ _ _ _ => true
  | .registerWrite _ _ _ _ => true
  | .clearingRead _ _ _ => true
  | .kvLayerSelect _ _ => true
  | .localTimeRead _ _ _ => true
  | .errLogRead _ _ => true
  | .pldmCapSet _ => true
  | .bmeClear _ => true
  | .bmeSet _ => true
  | .flr _ => true
  | .vfEnableClear => true
  | .disableTimeout _ => true
  | .dlDown => true
  | .dlUp => true
  | .perstN => true
  | .resetN => true
  | .aon _ _ => true
  | .secureBoot _ _ => true
  | .dramTrain _ _ _ _ _ => true
  | .linkTrain _ => true
  | .linkTrainTimeout => true
  | .ready => true
  | .portTrain _ _ => true
  | .discoveryRecord _ _ => true
  | .portRetryTimer _ => true
  | .portRetrain _ _ => true
  | .portDown _ => true
  | .malnyFrame _ _ => true
  | .linkIdleTimer _ => true
  | .transitSend _ _ => true
  | .narrowMessage _ => true
  | .wideMessage _ => true
  | .rawMessage _ => true
  | .carriedFill _ _ => true
  | .heldFillApply _ => true
  | .cohortRecord _ => true
  | .tokenMessage _ _ _ => true
  | .cut _ _ => true
  | .leaving _ _ _ => true
  | .slicePacket _ _ _ _ => true
  | .relayPull _ _ => true
  | .relayBlock _ _ _ => true
  | .spillDone _ _ _ => true
  | .stepBoundary _ _ _ => true
  | .cowCopy _ _ => true
  | .lensSummary _ _ => true
  | .arrayMatmul _ d => descOk 1 1 d
  | .rescaleBlockWrite _ _ => true
  | .vectorRun _ d => descOk 2 1 d
  | .prismAttend _ d => descOk 3 1 d
  | .prismPartial _ d => descOk 3 2 d
  | .prismMerge _ d => descOk 3 3 d
  | .fetchStream _ d => descOk 4 1 d
  | .fetchStage _ d => descOk 4 2 d
  | .exchangeNarrow _ d => descOk 5 1 d
  | .exchangeWide _ d => descOk 5 2 d
  | .exchangeRaw _ d => descOk 5 3 d
  | .appendKv _ d => descOk 6 1 d
  | .loopEmbed _ d _ => descOk 7 1 d
  | .loopCandidates _ d => descOk 7 2 d
  | .loopSample _ d _ => descOk 7 3 d
  | .loopAccept _ d => descOk 7 4 d
  | .loopStopEmit _ d => descOk 7 5 d
  | .loopStepEnd _ d => descOk 7 6 d
  | .syncFill _ _ => true
  | .syncTake _ _ _ => true
  | .syncPeek _ _ _ => true
  | .syncClear _ => true
  | .syncPoison _ => true
  | .doneFillRetry _ => true
  | .watchRetry _ => true
  | .hangWatch _ _ _ => true
  | .windowFill _ => true
  | .windowTimeout _ _ => true
  | .flashUnitRead _ _ _ _ _ _ => true
  | .readRetry _ _ _ _ => true
  | .readDisturbScan _ _ _ => true
  | .blockRefresh _ _ _ => true
  | .staticWearMove _ _ _ => true
  | .blockErase _ _ => true
  | .scrubRead _ _ _ _ => true
  | .tileReread _ _ _ _ _ => true
  | .swapFlushDone _ _ => true
  | .swapRecordRead _ _ _ => true
  | .sramUncorrectable _ => true
  | .packageFatal _ => true
  | .watchdogExpiry => true
  | .powerInterval _ _ => true
  | .thermalInterval _ => true
  | .thermalTrip _ => true
  | .tripRestart _ => true
  | .pllOffTimer => true
  | .engineGate _ _ => true
  | .powerLoss => true
  | .railFault _ => true
  | .aonRefclkLoss => true
  | .mrefclkLoss => true
  | .refclkLoss => true
  | .i3cAddressAssign _ => true
  | .getVersion _ => true
  | .getCapabilities _ => true
  | .negotiateAlgorithms _ _ => true
  | .getDigests _ => true
  | .getCertificate _ _ _ _ => true
  | .challenge _ _ _ => true
  | .getMeasurements _ _ => true
  | .keyExchange _ _ => true
  | .finish _ _ => true
  | .heartbeat _ => true
  | .keyUpdate _ => true
  | .endSession _ => true
  | .ideKm _ _ _ => true
  | .jtagBypass _ => true
  | .jtagIdcode => true
  | .jtagSamplePreload _ _ => true
  | .jtagExtest _ _ => true
  | .vEnd _ f => vfOk 0x00 f
  | .vLd _ f => vfOk 0x01 f
  | .vSt _ f => vfOk 0x02 f
  | .vAdd _ f => vfOk 0x10 f
  | .vSub _ f => vfOk 0x11 f
  | .vMul _ f => vfOk 0x12 f
  | .vFma _ f => vfOk 0x13 f
  | .vMin _ f => vfOk 0x14 f
  | .vMax _ f => vfOk 0x15 f
  | .vAbs _ f => vfOk 0x16 f
  | .vNeg _ f => vfOk 0x17 f
  | .vDiv _ f => vfOk 0x18 f
  | .vSqrt _ f => vfOk 0x19 f
  | .vRsq _ f => vfOk 0x1A f
  | .vExp _ f => vfOk 0x1B f
  | .vLog _ f => vfOk 0x1C f
  | .vSig _ f => vfOk 0x1D f
  | .vCmplt _ f => vfOk 0x20 f
  | .vCmple _ f => vfOk 0x21 f
  | .vCmpeq _ f => vfOk 0x22 f
  | .vSel _ f => vfOk 0x23 f
  | .vAnd _ f => vfOk 0x28 f
  | .vOr _ f => vfOk 0x29 f
  | .vXor _ f => vfOk 0x2A f
  | .vShl _ f => vfOk 0x2B f
  | .vShr _ f => vfOk 0x2C f
  | .vShra _ f => vfOk 0x2D f
  | .vCvti _ f => vfOk 0x30 f
  | .vCvtf _ f => vfOk 0x31 f
  | .vRbf _ f => vfOk 0x32 f
  | .vQparam _ f => vfOk 0x38 f
  | .vQcode _ f => vfOk 0x39 f
  | .vQdeq _ f => vfOk 0x3A f
  | .vLaneid _ f => vfOk 0x40 f
  | .vShfx _ f => vfOk 0x41 f
  | .vShup _ f => vfOk 0x42 f
  | .vPerm _ f => vfOk 0x43 f
  | .vBcast _ f => vfOk 0x44 f
  | .vPad _ f => vfOk 0x45 f
  | .vMovc _ f => vfOk 0x46 f
  | .vCpush _ f => vfOk 0x48 f
  | .vCmpr _ f => vfOk 0x49 f
  | .vExpd _ f => vfOk 0x4A f
  | .vCpop _ f => vfOk 0x4B f
  | .vSetvl _ f => vfOk 0x4C f
  | .vPcnt _ f => vfOk 0x4D f
  | .vPand _ f => vfOk 0x50 f
  | .vPor _ f => vfOk 0x51 f
  | .vPandn _ f => vfOk 0x52 f
  | .vPflag _ f => vfOk 0x53 f
  | .perstNHigh => true
  | .vfEnableSet _ => true
  | .programPageDone _ _ _ => true
  | .mrefclkReturn _ => true
  | .trstN => true

end Sys2Proof
end

