-- ==== Sys2Proof/Machine/Operands.lean ====
section
/-!
DEFINITION. Sys2Proof/Machine/Operands.lean: the operand forms of the vector engine (R134, R136, R142, R143): registers,
temporaries, predicates, scalars, immediates, and the lanes an instruction acts on (R145).
-/
namespace Sys2Proof.Machine

/-- A number as a vector length, 1,024 at most (R134, R144). -/
def vlOf (n : Nat) : VLen := ⟨min n 1024, by omega⟩

/-- A scalar register of a tile's control core (R136, R137). -/
def State.scalar (s : State) (t : TileIx) (n : Nat) : BitVec 64 :=
  let v := s.tiles[t].vec
  let x := v.ctx
  match n with
  | 0 => 0
  | 1 => x.step
  | 2 => x.layer.zeroExtend 64
  | 3 => BitVec.ofNat 64 x.cur
  | 4 => BitVec.ofNat 64 x.iter
  | 5 => x.rowMask.zeroExtend 64
  | 6 => BitVec.ofNat 64 x.cohort.val
  | 7 => BitVec.ofNat 64 t.val
  | 8 => s.boot.slotId.zeroExtend 64
  | 9 => BitVec.ofNat 64 x.vl.val
  | 10 => BitVec.ofNat 64 (if x.ipr = 0 then 0 else x.cur / x.ipr)
  | 11 | 12 | 13 | 14 | 15 => 0
  | _ => if n < 64 then sget 0 v.c n else 0

/-- Index of a lane of a register in its store. -/
def laneKey (code : BitVec 8) (l : Nat) : Nat := 1024 * code.toNat + l

/-- One lane of a register v0–v63 or t0–t15 (R143, R156). -/
def Vec.lane (v : Vec) (code : BitVec 8) (l : Nat) : BitVec 32 :=
  if code < 0x38 then sget 0 v.v (laneKey code l)
  else match sget none v.hi (laneKey code l) with
    | some x => x
    | none => match (if code < 0x40 then v.hiMark else v.tMark) with
      | some n => Config.freeLane n (laneKey code l)
      | none => 0

/-- The vector engine with one lane of a register written. -/
def Vec.setLane (v : Vec) (code : BitVec 8) (l : Nat) (x : BitVec 32) : Vec :=
  if code < 0x38 then { v with v := sput 0 v.v (laneKey code l) x }
  else { v with hi := sput none v.hi (laneKey code l) (some x) }

/-- One bit of a predicate p0–p7 (R134): p0 holds "lane < VL". -/
def Vec.predBit (v : Vec) (code : BitVec 8) (l : Nat) : Bool :=
  if code = 0x50 then decide (l < v.vl.val)
  else if codePred code then (v.p[code.toNat - 0x50]?.getD 0).getLsbD l else false

/-- The vector engine with one bit of a predicate p1–p7 written. -/
def Vec.setPredBit (v : Vec) (code : BitVec 8) (l : Nat) (b : Bool) : Vec :=
  { v with p := vmod v.p (Fin.ofNat 8 (code.toNat - 0x50)) fun m => if b then setBit m l else clrBit m l }

/-- T of an arithmetic or lane opcode (R142): INT32. -/
def vfInt (f : VF) : Bool := f.mod.getLsbD 0

/-- The immediate as an operand (R143), whatever the opcode: BF16 widened when T is 0, sign-extended when T is 1. -/
def immValue (f : VF) : BitVec 32 := if vfInt f then f.imm.signExtend 32 else bfTo32 f.imm

/-- One lane of a source operand (R143). -/
def State.src (s : State) (t : TileIx) (f : VF) (code : BitVec 8) (l : Nat) : BitVec 32 :=
  if codeReg code then (s.tiles[t].vec).lane code l
  else if codeScalar code then (s.scalar t (code.toNat - 0x80)).extractLsb' 0 32
  else if code = 0xFE then immValue f
  else 0

/-- The instruction's predicate selects a lane (R142); PRED 0 names none, so PNEG then has no effect (log entry 28). -/
def Vec.selects (v : Vec) (f : VF) (l : Nat) : Bool :=
  if f.pred = 0 then true else v.predBit (BitVec.ofNat 8 (0x50 + f.pred.toNat)) l != f.pneg

/-- The lanes an instruction acts on (R145), ascending. -/
def Vec.active (v : Vec) (f : VF) : List Nat := (List.range v.vl.val).filter fun l => v.selects f l

/-- The state with a tile's vector engine replaced by g of it. -/
def State.modVec (s : State) (t : TileIx) (g : Vec → Vec) : State := s.modTile t fun x => { x with vec := g x.vec }

/-- The address base of a memory instruction with its immediate (R136, R140, R144). -/
def State.vecAddr (s : State) (t : TileIx) (f : VF) : Nat :=
  let x := s.tiles[t].vec.ctx
  let base :=
    if codeScalar f.sa then fld (s.scalar t (f.sa.toNat - 0x80)) 0 28
    else
      let k : Fin 4 := Fin.ofNat 4 (f.sa.toNat - 0x60)
      x.base[k] + x.cur * x.stride[k]
  base + f.imm.toNat * 64

/-- The span of memory that the running model's accesses must lie in (R138, R149): its base and its size. -/
def State.vecSpan (s : State) (t : TileIx) (cache : Bool) : Nat × Nat :=
  match s.tiles[t].vec.ctx.model with
  | none => (0, 0)
  | some m =>
    match s.load? m, s.programs? m with
    | some l, some p => if cache then (l.opcBase[t], p.opcSpan[t] * 4096) else (l.spBase[t], p.spSpan[t])
    | _, _ => (0, 0)

/-- Bytes of the scratchpad or of the operand cache of a tile. -/
def State.vecGet (s : State) (t : TileIx) (cache : Bool) (a n : Nat) : Bytes :=
  if cache then getBytes s.tiles[t].vec.opc a n else getBytes s.tiles[t].scratch a n

/-- The state with bytes written to the scratchpad or to the operand cache of a tile. -/
def State.vecPut (s : State) (t : TileIx) (cache : Bool) (a : Nat) (b : Bytes) : State :=
  if cache then s.modVec t fun v => { v with opc := putBytes v.opc a b } else s.scrPut t a b

/-- The row of the current iteration is masked for FLAT accesses (R140, R148). -/
def Vec.rowMasked (v : Vec) : Bool :=
  if v.ctx.ipr = 0 then false
  else
    let r := v.ctx.cur / v.ctx.ipr
    decide (32 ≤ r) || !v.ctx.rowMask.getLsbD r

/-- Row i of a ROWS access is masked (R148). -/
def Vec.laneRowMasked (v : Vec) (i : Nat) : Bool := !v.ctx.rowMask.getLsbD i

end Sys2Proof.Machine
end

