-- ==== Sys2Proof/Machine/Flags.lean ====
section
/-!
DEFINITION. Sys2Proof/Machine/Flags.lean: the lane flags of the vector engine, and what becomes of them at a descriptor's
last write (R150 to R152).
-/
namespace Sys2Proof.Machine

/-- NUMERIC_NAN (R150). -/
def lfNan : BitVec 5 := 0x01
/-- OVERFLOW. -/
def lfOverflow : BitVec 5 := 0x02
/-- DIV_ZERO. -/
def lfDivZero : BitVec 5 := 0x04
/-- PERM_RANGE. -/
def lfPerm : BitVec 5 := 0x08
/-- ADDR_RANGE. -/
def lfAddr : BitVec 5 := 0x10

/-- The flag if the condition holds. -/
def flagIf (b : Bool) (f : BitVec 5) : BitVec 5 := if b then f else 0

/-- The lane flags an instruction raises: ORed into the lanes' flags, and the descriptor's first flagged place kept
(R150, R152). The list is (lane, flags) in ascending lane order. -/
def Vec.raise (v : Vec) (l : List (Nat × BitVec 5)) : Vec :=
  let hit := l.filter fun e => e.2 ≠ 0
  match hit with
  | [] => v
  | e :: _ => { v with
      flags := hit.foldl (fun a e => sput 0 a e.1 (sget 0 a e.1 ||| e.2)) v.flags
      first := match v.first with
        | some x => some x
        | none => some (v.ctx.cur, v.ctx.slot, e.1) }

/-- All lane flags of a descriptor, ORed (R151). -/
def Vec.allFlags (v : Vec) : BitVec 5 := v.flags.foldl (fun a e => a ||| e.2) 0

/-- TILE_STICKY bits of lane flags (R150, R151). -/
def stickyOf (f : BitVec 5) : BitVec 64 :=
  pack 64 [(1, 1, b2n (f.getLsbD 0)), (2, 1, b2n (f.getLsbD 1)), (3, 1, b2n (f.getLsbD 2)), (4, 1, b2n (f.getLsbD 3)),
    (8, 1, b2n (f.getLsbD 4))]

/-- TILE_VEC_FIRST of the running descriptor (R152). -/
def vecFirstOf (v : Vec) : BitVec 64 :=
  let p := v.first.getD (0, 0, 0)
  pack 64 [(63, 1, 1), (58, 5, v.allFlags.toNat), (50, 8, v.ctx.layer.toNat), (40, 10, v.ctx.prog.toNat),
    (37, 3, v.ctx.cohort.val), (36, 1, b2n v.ctx.isLoop), (16, 16, p.1), (10, 6, p.2.1), (0, 10, p.2.2)]

/-- A descriptor's last write (R151, R152): its flags go to TILE_STICKY, the first flagged descriptor to TILE_VEC_FIRST
while VALID is clear, and the lane flags are cleared. -/
def State.gatherFlags (s : State) (t : TileIx) : State :=
  let v := s.tiles[t].vec
  let f := v.allFlags
  s.modTile t fun x => { x with
    sticky := x.sticky ||| stickyOf f
    vecFirst := if f ≠ 0 && !bit x.vecFirst 63 then vecFirstOf v else x.vecFirst
    vec := { x.vec with flags := [], first := none } }

end Sys2Proof.Machine
end

