-- ==== Sys2Proof/Machine/VecCore.lean ====
section
/-!
DEFINITION. Sys2Proof/Machine/VecCore.lean: the effect of each vector instruction on a tile (R144 to R155), as one
function per shape of instruction.
-/
namespace Sys2Proof.Machine

/-- The instruction counter of the running program after one instruction (R152). -/
def State.vecNext (s : State) (t : TileIx) : State :=
  s.modVec t fun v => { v with ctx := { v.ctx with slot := v.ctx.slot + 1 } }

/-- Writes lanes of DST and raises their flags; the list is (lane, value, flags) in ascending lane order. -/
def State.writeLanes (s : State) (t : TileIx) (dst : BitVec 8) (l : List (Nat × BitVec 32 × BitVec 5)) : State :=
  s.modVec t fun v => (l.foldl (fun a e => a.setLane dst e.1 e.2.1) v).raise (l.map fun e => (e.1, e.2.2))

/-- An instruction that writes DST in the lanes it acts on (R145). -/
def State.laneOp (s : State) (t : TileIx) (f : VF) (g : Nat → BitVec 32 × BitVec 5) : State :=
  let ls := (s.tiles[t].vec).active f
  (s.writeLanes t f.dst (ls.map fun l => (l, g l))).vecNext t

/-- An instruction that writes a predicate in the lanes it acts on (R144, R145). -/
def State.predOp (s : State) (t : TileIx) (f : VF) (g : Nat → Bool) : State :=
  let ls := (s.tiles[t].vec).active f
  let bs := ls.map fun l => (l, g l)
  (s.modVec t fun v => bs.foldl (fun a e => a.setPredBit f.dst e.1 e.2) v).vecNext t

/-! ## Arithmetic -/

/-- Flags of a result computed from finite or infinite inputs (R150): an invalid operation, and an overflow. -/
def resultFlags (ins : List Num) (r : Num) (ov : Bool) : BitVec 5 :=
  flagIf (r.isNan && !ins.any Num.isNan) lfNan ||| flagIf (ov && ins.all Num.isFin) lfOverflow

/-- An FP32 result rounded once, with its flags. -/
def fpResult (ins : List Num) (r : Num) : BitVec 32 × BitVec 5 :=
  let b := toFp32 r
  (b.1, resultFlags ins r b.2)

/-- ADD (R144). -/
def alAdd (int : Bool) (a b : BitVec 32) : BitVec 32 × BitVec 5 :=
  if int then (a + b, 0) else fpResult [fp32 a, fp32 b] ((fp32 a).add (fp32 b))

/-- SUB (R144). -/
def alSub (int : Bool) (a b : BitVec 32) : BitVec 32 × BitVec 5 :=
  if int then (a - b, 0) else fpResult [fp32 a, fp32 b] ((fp32 a).sub (fp32 b))

/-- MUL (R144). -/
def alMul (int : Bool) (a b : BitVec 32) : BitVec 32 × BitVec 5 :=
  if int then (a * b, 0) else fpResult [fp32 a, fp32 b] ((fp32 a).mul (fp32 b))

/-- FMA (R144): one rounding. -/
def alFma (int : Bool) (a b c : BitVec 32) : BitVec 32 × BitVec 5 :=
  if int then (a * b + c, 0) else fpResult [fp32 a, fp32 b, fp32 c] ((fp32 a).fma (fp32 b) (fp32 c))

/-- The FP32 order in which −0 lies below +0 (R144). -/
def fpBelow (a b : BitVec 32) : Bool :=
  (fp32 a).lt (fp32 b) || ((fp32 a).eqv (fp32 b) && bit a 31 && !bit b 31)

/-- MIN (R144). -/
def alMin (int : Bool) (a b : BitVec 32) : BitVec 32 × BitVec 5 :=
  if int then (if a.slt b then a else b, 0)
  else if (fp32 a).isNan || (fp32 b).isNan then ((toFp32 (nanOf [fp32 a, fp32 b])).1, 0)
  else (if fpBelow b a then b else a, 0)

/-- MAX (R144). -/
def alMax (int : Bool) (a b : BitVec 32) : BitVec 32 × BitVec 5 :=
  if int then (if a.slt b then b else a, 0)
  else if (fp32 a).isNan || (fp32 b).isNan then ((toFp32 (nanOf [fp32 a, fp32 b])).1, 0)
  else (if fpBelow a b then b else a, 0)

/-- ABS (R144). -/
def alAbs (int : Bool) (a : BitVec 32) : BitVec 32 × BitVec 5 :=
  if int then (if a.slt 0 then -a else a, 0) else ((toFp32 (fp32 a).abs).1, 0)

/-- NEG (R144). -/
def alNeg (int : Bool) (a : BitVec 32) : BitVec 32 × BitVec 5 :=
  if int then (-a, 0) else ((toFp32 (fp32 a).neg).1, 0)

/-- A finite non-zero value. -/
def Num.nonZero : Num → Bool
  | .fin _ m _ => decide (m ≠ 0)
  | _ => false

/-- A zero of either sign. -/
def Num.isZero : Num → Bool
  | .fin _ m _ => decide (m = 0)
  | _ => false

/-- DIV (R144, R150). -/
def alDiv (a b : BitVec 32) : BitVec 32 × BitVec 5 :=
  let x := fp32 a
  let y := fp32 b
  let r := fpResult [x, y] (x.div y)
  (r.1, if x.nonZero && y.isZero then lfDivZero else r.2)

/-- SQRT (R144, R150). -/
def alSqrt (a : BitVec 32) : BitVec 32 × BitVec 5 := fpResult [fp32 a] (fp32 a).sqrt

/-- RSQ (R144, R150): the reciprocal of a zero root is a division by zero (log entry 28). -/
def alRsq (a : BitVec 32) : BitVec 32 × BitVec 5 :=
  let r := rsq32 1 a
  (r, flagIf (fp32 a).isZero lfDivZero ||| flagIf ((fp32 r).isNan && !(fp32 a).isNan) lfNan)

/-- EXP (R144, R150). -/
def alExp (a : BitVec 32) : BitVec 32 × BitVec 5 := let r := exp32 2 a; (r.1, flagIf r.2 lfOverflow)

/-- LOG (R144, R150). -/
def alLog (a : BitVec 32) : BitVec 32 × BitVec 5 :=
  let r := log32 3 a
  (r, flagIf (fp32 a).isZero lfDivZero ||| flagIf ((fp32 r).isNan && !(fp32 a).isNan) lfNan)

/-- SIG (R144). -/
def alSig (a : BitVec 32) : BitVec 32 × BitVec 5 := (sig32 4 a, 0)

/-- CMPLT (R144). -/
def alLt (int : Bool) (a b : BitVec 32) : Bool := if int then a.slt b else (fp32 a).lt (fp32 b)

/-- CMPLE (R144). -/
def alLe (int : Bool) (a b : BitVec 32) : Bool := if int then a.sle b else (fp32 a).le (fp32 b)

/-- CMPEQ (R144). -/
def alEq (int : Bool) (a b : BitVec 32) : Bool := if int then decide (a = b) else (fp32 a).eqv (fp32 b)

/-- CVTI (R144, R150). -/
def alCvti (a : BitVec 32) : BitVec 32 × BitVec 5 :=
  match fp32 a with
  | .nan _ => (0, lfNan)
  | .inf s => (if s then 0x80000000 else 0x7FFFFFFF, lfOverflow)
  | .fin s m e =>
    let k := rneScaled s m e 0
    if k < -(2 ^ 31 : Int) then (0x80000000, lfOverflow)
    else if (2 ^ 31 : Int) ≤ k then (0x7FFFFFFF, lfOverflow)
    else (BitVec.ofInt 32 k, 0)

/-- CVTF (R144). -/
def alCvtf (a : BitVec 32) : BitVec 32 × BitVec 5 := ((toFp32 (Num.ofInt a.toInt 0)).1, 0)

/-- RBF (R144). -/
def alRbf (a : BitVec 32) : BitVec 32 × BitVec 5 :=
  let r := toBf16 (fp32 a)
  (bfTo32 r.1, flagIf (r.2 && (fp32 a).isFin) lfOverflow)

/-! ## Channel quantisation (R155) -/

/-- QPARAM (R155): the parameter word of a channel. -/
def alQparam (b : Nat) (lo hi : BitVec 32) : BitVec 32 × BitVec 5 :=
  let x := fp32 lo
  let y := fp32 hi
  if !x.isFin || !y.isFin then
    let poison := x.isPoison || y.isPoison
    let inf := (!x.isFin && !x.isNan) || (!y.isFin && !y.isNan)
    (pack 32 [(0, 8, 0xFF), (16, 2, if poison then 3 else 2)], flagIf inf lfNan)
  else
    let p := if y.lt x then quantParam b y x else quantParam b x y
    (pack 32 [(0, 8, (p.1 + 127).toNat), (8, 8, unsigned 8 p.2)], 0)

/-- Kind of a parameter word (R155). -/
def qKind (w : BitVec 32) : Nat := fld w 16 2

/-- X of a parameter word. -/
def qX (w : BitVec 32) : Int := (fld w 0 8 : Int) - 127

/-- z of a parameter word. -/
def qZ (w : BitVec 32) : Int := signed 8 (fld w 8 8)

/-- QCODE of one lane under a normal parameter (R155): the code, its flags, and the squared error and signal; an infinite
x takes the code at its end of the range. -/
def alQcode (b : Nat) (x w : BitVec 32) : Int × BitVec 5 × BitVec 32 × BitVec 32 :=
  let half : Int := (2 ^ (b - 1) : Nat)
  let q : Int := match fp32 x with
    | .nan _ => 0
    | .inf s => if s then -half else half - 1
    | .fin .. => quantCode b (qX w) (qZ w) (fp32 x)
  let back := Num.ofInt (q - qZ w) (qX w)
  let e := groupError [fp32 x] [back]
  (q, flagIf (fp32 x).isNan lfNan, e.1, e.2)

/-- QDEQ (R155). -/
def alQdeq (q w : BitVec 32) : BitVec 32 × BitVec 5 :=
  if qKind w ≥ 2 then ((toFp32 (.nan (qKind w = 3))).1, 0)
  else fpResult [] (Num.ofInt (q.toInt - qZ w) (qX w))

/-- QCODE on a tile (R155): the lanes under a normal parameter add their error and signal to TILE_VQ_ERR. -/
def State.qcodeOp (s : State) (t : TileIx) (f : VF) : State :=
  let b := f.imm.toNat % 16
  let ls := (s.tiles[t].vec).active f
  let rs := ls.map fun l =>
    let x := s.src t f f.sa l
    let w := s.src t f f.sb l
    if qKind w ≥ 2 then (l, BitVec.ofNat 32 (b2n (decide (qKind w = 3) && decide (some l = ls.head?))), (0 : BitVec 5), none)
    else let r := alQcode b x w; (l, BitVec.ofInt 32 r.1, r.2.1, some r.2.2)
  let err := rs.foldl (fun a e => match e.2.2.2 with
    | some p => (add32 a.1 p.1, add32 a.2 p.2)
    | none => a) ((s.tiles[t].vqErr).extractLsb' 0 32, (s.tiles[t].vqErr).extractLsb' 32 32)
  let s := s.modTile t fun x => { x with vqErr := err.2 ++ err.1 }
  (s.writeLanes t f.dst (rs.map fun e => (e.1, e.2.1, e.2.2.1))).vecNext t

/-! ## Lanes (R153, R154) -/

/-- A source lane of a shuffle (R153): +0 with PERM_RANGE at or beyond VL. -/
def State.pick (s : State) (t : TileIx) (f : VF) (code : BitVec 8) (l : Nat) : BitVec 32 × BitVec 5 :=
  if l < (s.tiles[t].vec).vl.val then (s.src t f code l, 0) else (0, lfPerm)

/-- SHUP of one lane (R144, R153). -/
def State.shiftUp (s : State) (t : TileIx) (f : VF) (l : Nat) : BitVec 32 × BitVec 5 :=
  if l < f.imm.toNat then (0, 0) else (s.src t f f.sa (l - f.imm.toNat), 0)

/-- BCAST (R144, R145, R153): every lane below VL. -/
def State.bcastOp (s : State) (t : TileIx) (f : VF) : State :=
  let r := s.pick t f f.sa f.imm.toNat
  (s.writeLanes t f.dst ((List.range (s.tiles[t].vec).vl.val).map fun l => (l, r))).vecNext t

/-- PAD (R144, R145): the lanes from VL up. -/
def State.padOp (s : State) (t : TileIx) (f : VF) : State :=
  let v := s.tiles[t].vec
  (s.writeLanes t f.dst ((List.range (1024 - v.vl.val)).map fun i =>
    (v.vl.val + i, s.src t f f.sa (v.vl.val + i), 0))).vecNext t

/-- MOVC (R144, R145, R153): one lane into a scalar c16–c63. -/
def State.movcOp (s : State) (t : TileIx) (f : VF) : State :=
  let v := s.tiles[t].vec
  if v.vl = 0 then s.vecNext t
  else
    let r := s.pick t f f.sa f.imm.toNat
    let s := s.modVec t fun v => { v with c := sput 0 v.c (f.dst.toNat - 0x80) (r.1.zeroExtend 64) }
    (s.modVec t fun v => v.raise [(0, r.2)]).vecNext t

/-- A predicate as a mask of its lanes below VL. -/
def Vec.predMask (v : Vec) (code : BitVec 8) : BitVec 1024 :=
  ((List.range v.vl.val).filter fun l => v.predBit code l).foldl (fun m l => setBit m l) 0

/-- CPUSH (R154); at VL 0 nothing changes (R145), and a third entry has no place (R134). -/
def State.cpushOp (s : State) (t : TileIx) (f : VF) : State :=
  let v := s.tiles[t].vec
  if v.vl = 0 ∨ 2 ≤ v.stack.length then s.vecNext t
  else
    let m := v.predMask f.sa
    (s.modVec t fun v => { v with stack := (m, v.vl) :: v.stack, vl := vlOf (popcount m) }).vecNext t

/-- The lanes of the top mask, ascending. -/
def topLanes (m : BitVec 1024) : List Nat := (List.range 1024).filter fun l => m.getLsbD l

/-- CMPR (R154): the survivors packed to the bottom, +0 above; at VL 0 nothing changes (R145). -/
def State.cmprOp (s : State) (t : TileIx) (f : VF) : State :=
  let v := s.tiles[t].vec
  match v.stack with
  | [] => s.vecNext t
  | top :: _ =>
    if v.vl = 0 then s.vecNext t
    else
      let xs := (topLanes top.1).map fun l => s.src t f f.sa l
      (s.writeLanes t f.dst ((List.range 1024).map fun k => (k, xs.getD k 0, 0))).vecNext t

/-- Index of the first place of x in an ascending list. -/
def idxIn (l : List Nat) (x : Nat) : Option Nat := l.findIdx? fun y => decide (y = x)

/-- EXPD (R154): packed lanes back to their places, SB elsewhere below the saved VL; at VL 0 nothing changes (R145). -/
def State.expdOp (s : State) (t : TileIx) (f : VF) : State :=
  let v := s.tiles[t].vec
  match v.stack with
  | [] => s.vecNext t
  | top :: _ =>
    if v.vl = 0 then s.vecNext t
    else
      let ls := topLanes top.1
      (s.writeLanes t f.dst ((List.range top.2.val).map fun l =>
        match idxIn ls l with
        | some k => (l, s.pick t f f.sa k)
        | none => (l, s.src t f f.sb l, 0))).vecNext t

/-- CPOP (R154). -/
def State.cpopOp (s : State) (t : TileIx) : State :=
  (s.modVec t fun v => match v.stack with
    | [] => v
    | top :: r => { v with vl := top.2, stack := r }).vecNext t

/-- SETVL (R144): a register source gives its lane 0 (log entry 28). -/
def State.setvlOp (s : State) (t : TileIx) (f : VF) : State :=
  let n := (s.src t f f.sa 0).toNat
  (s.modVec t fun v => { v with vl := vlOf n }).vecNext t

/-- PCNT (R144, R145): every lane below VL receives the count. -/
def State.pcntOp (s : State) (t : TileIx) (f : VF) : State :=
  let v := s.tiles[t].vec
  let n := popcount (v.predMask f.sa)
  (s.writeLanes t f.dst ((List.range v.vl.val).map fun l => (l, BitVec.ofNat 32 n, 0))).vecNext t

/-! ## Memory (R146 to R149) -/

/-- Bits of one element of a FORM (R146). -/
def formBits (form : Nat) : Nat := match form with | 0 => 32 | 1 => 16 | 3 => 8 | _ => 4

/-- The byte address of an element of a lane, relative to the model's span (R148), for forms other than PLORYN. -/
def laneAddr (base rowStride form : Nat) (rows : Bool) (l : Nat) : Nat :=
  if rows then base + l / 32 * rowStride + l % 32 * formBits form / 8 else base + l * formBits form / 8

/-- The lanes of a memory instruction that touch memory: those it acts on, less the masked rows (R148). -/
def Vec.touching (v : Vec) (f : VF) (rows : Bool) : List Nat :=
  if rows then (v.active f).filter fun l => !v.laneRowMasked (l / 32)
  else if v.rowMasked then [] else v.active f

/-- Every byte an access touches lies in the span (R149). -/
def inSpan (size base rowStride form : Nat) (rows : Bool) (ls : List Nat) : Bool :=
  ls.all fun l => decide (laneAddr base rowStride form rows l + (formBits form + 7) / 8 ≤ size)

/-- The value a load gives a lane (R147). -/
def loadValue (form : Nat) (b : Bytes) : BitVec 32 :=
  match form with
  | 0 => BitVec.ofNat 32 (leNat b)
  | 1 => bfTo32 (BitVec.ofNat 16 (leNat b))
  | _ => (BitVec.ofNat 8 (leNat b)).signExtend 32

/-- Decodes the blocks of a PLORYN load in order (R147, R123). -/
def State.loadBlocks (s : State) (t : TileIx) (cache : Bool) : Nat → Nat → List (BitVec 16) × State
  | 0, _ => ([], s)
  | n + 1, a =>
    let x := s.tiles[t].vec.ctx
    let owner := match x.model with | some m => s.ownerOf m | none => 0
    let b : BlockCtx := { tile := t, model := x.model, layer := x.layer.toNat,
                          row := if x.ipr = 0 then 0 else x.cur / x.ipr, source := 1, owner := owner }
    let r := s.decodeBlock b a (s.vecGet t cache a 56) x.malformed
    let s := r.2.2.modVec t fun v => { v with ctx := { v.ctx with malformed := r.2.1 } }
    let rest := s.loadBlocks t cache n (a + 56)
    (r.1 ++ rest.1, rest.2)

/-- A PLORYN access decodes or encodes its blocks whatever its predicate selects (R147), unless its row is masked or VL
is 0 (R145, R148). -/
def Vec.plorynRuns (v : Vec) (form : Nat) : Bool := decide (form = 2) && decide (0 < v.vl.val) && !v.rowMasked

/-- LD (R147 to R149). -/
def State.loadOp (s : State) (t : TileIx) (f : VF) : State :=
  let v := s.tiles[t].vec
  let cache := f.mod.getLsbD 3
  let form := f.mod.toNat % 8
  let rows := decide (f.sb = 1)
  let base := s.vecAddr t f
  let span := s.vecSpan t cache
  let act := v.active f
  let touch := v.touching f rows
  let idle := touch.isEmpty && !v.plorynRuns form
  let zero (l : Nat) : Nat × BitVec 32 × BitVec 5 := (l, 0, 0)
  let bad := act.map fun l => (l, nan32, lfAddr)
  if idle then (s.writeLanes t f.dst (act.map zero)).vecNext t
  else if form = 2 then
    if base + 896 ≤ span.2 then
      let r := s.loadBlocks t cache 16 (span.1 + base)
      (r.2.writeLanes t f.dst (act.map fun l => (l, bfTo32 (r.1.getD l 0), 0))).vecNext t
    else (s.writeLanes t f.dst bad).vecNext t
  else if inSpan span.2 base v.ctx.rowStride form rows touch then
    (s.writeLanes t f.dst (act.map fun l =>
      if rows && v.laneRowMasked (l / 32) then zero l
      else (l, loadValue form (s.vecGet t cache (span.1 + laneAddr base v.ctx.rowStride form rows l) (formBits form / 8)),
        0))).vecNext t
  else (s.writeLanes t f.dst bad).vecNext t

/-- Flags of a store that rounds to BF16 (R147, R53). -/
def storeFlags (xs : List (Nat × BitVec 32)) : List (Nat × BitVec 5) :=
  xs.map fun e => (e.1, flagIf ((toBf16 (fp32 e.2)).2 && (fp32 e.2).isFin) lfOverflow)

/-- The bytes a store writes for a lane, other than I4 and PLORYN (R147). -/
def storeValue (form : Nat) (x : BitVec 32) : Bytes :=
  match form with
  | 0 => toLE 4 x.toNat
  | 1 => toLE 2 (to16 x).toNat
  | _ => toLE 1 x.toNat

/-- Stores one lane's nibble, keeping the other of its byte (R147). -/
def State.storeNibble (s : State) (t : TileIx) (cache : Bool) (a : Nat) (high : Bool) (x : BitVec 32) : State :=
  let old := leNat (s.vecGet t cache a 1)
  let n := x.toNat % 16
  s.vecPut t cache a (toLE 1 (if high then old % 16 + 16 * n else old / 16 * 16 + n))

/-- Encodes and stores the blocks of a PLORYN store in order (R147, R120). -/
def State.storeBlocks (s : State) (t : TileIx) (cache : Bool) (val : Nat → BitVec 16) : Nat → Nat → Nat → State
  | 0, _, _ => s
  | n + 1, k, a =>
    let r := s.encodeBlock t ((List.range 64).map fun i => val (64 * k + i))
    (r.2.vecPut t cache a r.1).storeBlocks t cache val n (k + 1) (a + 56)

/-- ST (R147 to R149). -/
def State.storeOp (s : State) (t : TileIx) (f : VF) : State :=
  let v := s.tiles[t].vec
  let cache := f.mod.getLsbD 3
  let form := f.mod.toNat % 8
  let rows := decide (f.sb = 1)
  let base := s.vecAddr t f
  let span := s.vecSpan t cache
  let touch := v.touching f rows
  let bad := (v.active f).map fun l => (l, lfAddr)
  let xs := touch.map fun l => (l, v.lane f.sc l)
  if touch.isEmpty && !v.plorynRuns form then s.vecNext t
  else if form = 2 then
    let n := cdiv v.vl.val 64
    if base + 56 * n ≤ span.2 then
      let val (l : Nat) : BitVec 16 := if touch.contains l then to16 (v.lane f.sc l) else 0
      let s := s.storeBlocks t cache val n 0 (span.1 + base)
      (s.modVec t fun v => v.raise (storeFlags xs)).vecNext t
    else (s.modVec t fun v => v.raise bad).vecNext t
  else if inSpan span.2 base v.ctx.rowStride form rows touch then
    let s := xs.foldl (fun a e =>
      let p := span.1 + laneAddr base v.ctx.rowStride form rows e.1
      if form = 4 then a.storeNibble t cache p (e.1 % 2 = 1) e.2 else a.vecPut t cache p (storeValue form e.2)) s
    (s.modVec t fun v => if form = 1 then v.raise (storeFlags xs) else v).vecNext t
  else (s.modVec t fun v => v.raise bad).vecNext t

/-! ## Programs (R139, R140, R142) -/

/-- END (R140, R142): the iteration ends; the next one begins with VL of the descriptor and an empty stack, or, after
the last, the descriptor has made its last write (R151). -/
def State.endOp (s : State) (t : TileIx) : State :=
  let x := s.tiles[t].vec.ctx
  if x.cur + 1 < x.iter then
    s.modVec t fun v => { v with vl := v.ctx.vl, stack := [], ctx := { v.ctx with cur := v.ctx.cur + 1, slot := 0 } }
  else (s.gatherFlags t).modVec t fun v => { v with ctx := { v.ctx with slot := 0 } }

end Sys2Proof.Machine
end

