-- ==== Sys2Proof/Machine/Sampler.lean ====
section
/-!
DEFINITION. Sys2Proof/Machine/Sampler.lean: the policy block, the random generator, sampling, stop rules and the n-gram
table as functions of their inputs (R35 to R41, R239, R244, R445).
-/
namespace Sys2Proof.Machine

/-! ## The policy block (R35) -/

/-- TEMPERATURE. -/
def polTemp (p : Policy) : BitVec 32 := BitVec.ofNat 32 (leAt p.block 0 4)
/-- TOP_P. -/
def polTopP (p : Policy) : BitVec 32 := BitVec.ofNat 32 (leAt p.block 4 4)
/-- MIN_P. -/
def polMinP (p : Policy) : BitVec 32 := BitVec.ofNat 32 (leAt p.block 8 4)
/-- TOP_K, 1,024 for 0. -/
def polTopK (p : Policy) : Nat := let k := bits (leAt p.block 12 4) 0 11; if k = 0 then 1024 else k
/-- LOGPROB_EN. -/
def polLogprob (p : Policy) : Bool := bits (leAt p.block 12 4) 11 1 = 1
/-- The stop ids in use. -/
def polStopIds (p : Policy) : List Nat :=
  (List.range (bits (leAt p.block 12 4) 12 4)).map fun j => leAt p.block (0x20 + 4 * j) 4 % 2 ^ 18
/-- The stop sequences in use. -/
def polStopSeqs (p : Policy) : List (List Nat) :=
  (List.range (bits (leAt p.block 12 4) 16 3)).map fun j =>
    (List.range (leAt p.block (0x1C + j) 1)).map fun i => leAt p.block (0x40 + 32 * j + 4 * i) 4 % 2 ^ 18
/-- SEED. -/
def polSeed (p : Policy) : Nat := leAt p.block 0x10 8
/-- MAX_NEW. -/
def polMaxNew (p : Policy) : Nat := leAt p.block 0x18 4 % 2 ^ 28

/-- Greedy decoding (R35). -/
def polGreedy (p : Policy) : Bool := (fp32 (polTemp p)).isZero

/-! ## Limits of a policy and its lists (R35, R205, R445) -/

/-- A word's reserved high bits are clear. -/
def tokenWord (x : Nat) : Bool := decide (x < 2 ^ 18)

/-- BIAS_COUNT of a policy block. -/
def biasCount (b : Bytes) : Nat := bits (leAt b 12 4) 19 9

/-- The entries of the bias list that the policy block counts: entries beyond BIAS_COUNT are no part of it (R35, R445). -/
def usedBias (b : Bytes) (l : List (BitVec 64)) : List (BitVec 64) := l.take (biasCount b)

/-- A policy block keeps the limits of R35. Its table names only 0.0 for greedy decoding and for a disabled MIN_P: that −0.0 stands for
the same value is the model's choice (DESIGN CHOICE, log entry 123). -/
def policyOk (b : Bytes) : Bool :=
  let w := leAt b 12 4
  let temp := fp32 (BitVec.ofNat 32 (leAt b 0 4))
  let topP := fp32 (BitVec.ofNat 32 (leAt b 4 4))
  let minP := fp32 (BitVec.ofNat 32 (leAt b 8 4))
  let nIds := bits w 12 4
  let nSeqs := bits w 16 3
  let one : Num := .fin false 1 0
  let len (j : Nat) : Nat := leAt b (0x1C + j) 1
  decide (b.length = 256) && (temp.isZero || (temp.isFin && Num.zero.lt temp)) && Num.zero.lt topP && topP.le one &&
  Num.zero.le minP && minP.lt one && decide (bits w 0 11 ≤ 1024) && decide (nIds ≤ 8) && decide (nSeqs ≤ 4) &&
  decide (bits w 19 9 ≤ 256) && decide (bits w 28 4 = 0) && decide (1 ≤ leAt b 0x18 4) && decide (leAt b 0x18 4 < 2 ^ 28) &&
  ((List.range nIds).all fun j => tokenWord (leAt b (0x20 + 4 * j) 4)) &&
  ((List.range nSeqs).all fun j => decide (1 ≤ len j) && decide (len j ≤ 8) &&
    ((List.range (len j)).all fun i => tokenWord (leAt b (0x40 + 32 * j + 4 * i) 4))) &&
  (decide (bits w 19 9 = 0) || decide (leAt b 0xC0 8 % 8 = 0)) && decide (leAt b 0xC8 56 = 0)

/-- A bias-list entry keeps R445. -/
def biasOk (e : BitVec 64) : Bool := decide (fld e 18 14 = 0) && !(fp32 (e.extractLsb' 32 32)).isNan

/-- An attention bias entry keeps R205. -/
def abiasOk (e : BitVec 128) : Bool :=
  let b := fp32 (e.extractLsb' 64 32)
  decide (fld e 28 4 = 0) && decide (fld e 60 4 = 0) && decide (fld e 96 32 = 0) && decide (fld e 0 28 ≤ fld e 32 28) &&
  (b.isFin || decide (b = .inf true))

/-- Policy block, bias list and attention bias list keep their limits. -/
def policyAllOk (b : Bytes) (bias : List (BitVec 64)) (abias : List (BitVec 128)) : Bool :=
  policyOk b && (usedBias b bias).all biasOk && abias.all abiasOk

/-! ## Philox-4×32-10 (R38) -/

/-- One round. -/
def philoxRound (c : Nat × Nat × Nat × Nat) (k0 k1 : Nat) : Nat × Nat × Nat × Nat :=
  let p0 := 0xD2511F53 * c.1
  let p1 := 0xCD9E8D57 * c.2.2.1
  ((p1 / 2 ^ 32) ^^^ c.2.1 ^^^ k0, p1 % 2 ^ 32, (p0 / 2 ^ 32) ^^^ c.2.2.2 ^^^ k1, p0 % 2 ^ 32)

/-- n rounds. -/
def philoxRounds : Nat → Nat × Nat × Nat × Nat → Nat → Nat → Nat × Nat × Nat × Nat
  | 0, c, _, _ => c
  | n + 1, c, k0, k1 => philoxRounds n (philoxRound c k0 k1) ((k0 + 0x9E3779B9) % 2 ^ 32) ((k1 + 0xBB67AE85) % 2 ^ 32)

/-- The draw u of a seed, position, index and stream (R38). -/
def philoxU (seed position index stream : Nat) : BitVec 32 :=
  let w := (philoxRounds 10 (position % 2 ^ 32, index, stream, 0) (seed % 2 ^ 32) (seed / 2 ^ 32 % 2 ^ 32)).1
  (toFp32 (.fin false (w / 256) (-24))).1

/-! ## Candidates (R36 steps 1 to 3) -/

/-- An FP32 value with the lane flags that the steps up to it raised (R150, R156). -/
abbrev Flagged := BitVec 32 × BitVec 5

/-- A sum, with its flags. -/
def fAdd (a b : Flagged) : Flagged := let r := alAdd false a.1 b.1; (r.1, a.2 ||| b.2 ||| r.2)

/-- A difference, with its flags. -/
def fSub (a b : Flagged) : Flagged := let r := alSub false a.1 b.1; (r.1, a.2 ||| b.2 ||| r.2)

/-- An exponential of the draw op, with its flags. -/
def fExp (op : Nat) (a : Flagged) : Flagged := let r := exp32 op a.1; (r.1, a.2 ||| flagIf r.2 lfOverflow)

/-- The summed bias of a token id (R445): none when no entry names it. -/
def biasSum (l : List (BitVec 64)) (id : Nat) : Option Flagged :=
  match l.filter fun e => decide (fld e 0 18 = id) with
  | [] => none
  | e :: r => some (r.foldl (fun a x => fAdd a (x.extractLsb' 32 32, 0)) (e.extractLsb' 32 32, 0))

/-- A logit biased and scaled, with the lane flags this raised. -/
def scaledLogit (p : Policy) (id : Nat) (x : BitVec 32) : Flagged :=
  let b := match biasSum p.bias id with
    | some v => fAdd (x, 0) v
    | none => (x, 0)
  if polGreedy p then b else let r := alDiv b.1 (polTemp p); (r.1, b.2 ||| r.2)

/-- Candidate a comes before b: the larger logit, ties to the lower id. -/
def candBefore (a b : Nat × BitVec 32) : Bool := lt32 b.2 a.2 || (!lt32 a.2 b.2 && decide (a.1 < b.1))

/-- The log-sum-exp of a list of logits (R36 step 3; log entry 36), with the lane flags raised. -/
def logSumExp (xs : List (BitVec 32)) : Flagged :=
  let mx := xs.foldl (fun a x => if lt32 a x then x else a) 0xFF800000
  if mx = 0xFF800000 ∨ mx = 0x7F800000 then (mx, 0)
  else
    let sum := xs.foldl (fun a x => fAdd a (fExp 7 (fSub (x, 0) (mx, 0)))) (0, 0)
    fAdd (mx, 0) (log32 8 sum.1, sum.2)

/-- 0 no NaN among the logits, 1 an ordinary one, 2 a poison one (R37). -/
def nanKind (xs : List (BitVec 32)) : Nat :=
  if xs.any fun x => (fp32 x).isPoison then 2 else if xs.any fun x => (fp32 x).isNan then 1 else 0

/-! ## Drawing (R36 steps 4 to 8) -/

/-- The weights of the merged candidates (R36 step 5), with the lane flags raised. -/
def weights (l : List (Nat × BitVec 32)) : List (Nat × Flagged) :=
  let mx := (l.head?.map (·.2)).getD 0xFF800000
  if mx = 0x7F800000 then l.map fun c => (c.1, if c.2 = 0x7F800000 then 0x3F800000 else 0, 0)
  else l.map fun c => (c.1, fExp 7 (fSub (c.2, 0) (mx, 0)))

/-- The lane flags of a list of weights. -/
def weightFlags (l : List (Nat × Flagged)) : BitVec 5 := l.foldl (fun a c => a ||| c.2.2) 0

/-- The sum of weights in list order. -/
def sumW (l : List (Nat × BitVec 32)) : BitVec 32 := l.foldl (fun a c => add32 a c.2) 0

/-- The shortest prefix whose running sum reaches a bound; at least one element. -/
def prefixReach (bound : BitVec 32) : BitVec 32 → List (Nat × BitVec 32) → List (Nat × BitVec 32)
  | _, [] => []
  | a, c :: r => let s := add32 a c.2; if lt32 s bound then c :: prefixReach bound s r else [c]

/-- The kept candidates with their weights (R36 steps 6 and 7). Weights lie between 0 and 1, so these steps raise no lane flag. -/
def keptOf (p : Policy) (l : List (Nat × Flagged)) : List (Nat × BitVec 32) :=
  let w := l.map fun c => (c.1, c.2.1)
  let mx := w.foldl (fun a c => if lt32 a c.2 then c.2 else a) 0
  let m := w.filter fun c => !lt32 c.2 (mul32 (polMinP p) mx)
  let o := sortBy candBefore m
  if polTopP p = 0x3F800000 then o else prefixReach (mul32 (polTopP p) (sumW o)) 0 o

/-- The first candidate whose running sum exceeds a bound, or the last (R36 step 8). -/
def pickOver (bound : BitVec 32) : BitVec 32 → List (Nat × BitVec 32) → Option Nat
  | _, [] => none
  | a, [c] => if lt32 bound (add32 a c.2) then some c.1 else some c.1
  | a, c :: r => let s := add32 a c.2; if lt32 bound s then some c.1 else pickOver bound s r

/-! ## Stop rules (R40, R41) -/

/-- The END_CAUSE of a token, or 0 (R40 to R42): toks are the tokens under the generating request, this one included. -/
def endCause (p : Policy) (toks : List Nat) (lastPos : Bool) : Nat :=
  let t := toks.getLast?.getD 0
  if (polStopIds p).contains t then 1
  else if (polStopSeqs p).any fun s => decide (toks.drop (toks.length - s.length) = s) && decide (s.length ≤ toks.length) then 2
  else if polMaxNew p ≤ toks.length then 3
  else if lastPos then 4 else 0

/-- The tokens of a pass up to the one that ends the request, with each END_CAUSE (R40). -/
def emitList (p : Policy) (lastAt : Nat → Bool) : List Nat → Nat → List (Nat × Fin 32 × Bool) →
    List (Nat × Fin 32 × Bool × Nat × Nat)
  | _, _, [] => []
  | toks, pos, (t, r, dr) :: rest =>
    let ts := toks ++ [t]
    let c := endCause p ts (lastAt pos)
    (t, r, dr, pos, c) :: if c = 0 then emitList p lastAt ts (pos + 1) rest else []

/-! ## The n-gram table (R238, R239) -/

/-- The hash of three token ids (R239). -/
def ngramHash (a b c : Nat) : Nat :=
  ((a * 0x9E3779B1) % 2 ^ 32) ^^^ ((b * 0x85EBCA77) % 2 ^ 32) ^^^ ((c * 0xC2B2AE3D) % 2 ^ 32)

/-- The table after the last token of a list commits (R239). -/
def ngramPut (t : Sparse (BitVec 128)) (toks : List (Option (BitVec 18))) : Sparse (BitVec 128) :=
  match (toks.drop (toks.length - 7)) with
  | [some a, some b, some c, some n0, some n1, some n2, some n3] =>
    let h := ngramHash a.toNat b.toNat c.toNat
    sput 0 t (h / 2 ^ 22) (pack 128 [(0, 32, h), (32, 18, n0.toNat), (50, 18, n1.toNat), (68, 18, n2.toNat), (86, 18, n3.toNat),
      (104, 3, 4)])
  | _ => t

/-- The continuation a lookup gives, when it hits (R239). -/
def ngramFind (t : Sparse (BitVec 128)) (toks : List (Option (BitVec 18))) : Option (List Nat) :=
  match toks.drop (toks.length - 3) with
  | [some a, some b, some c] =>
    let h := ngramHash a.toNat b.toNat c.toNat
    let e := sget 0 t (h / 2 ^ 22)
    if fld e 104 3 ≠ 0 ∧ fld e 0 32 = h then some ((List.range (fld e 104 3)).map fun i => fld e (32 + 18 * i) 18) else none
  | _ => none

/-- A sequence commits a token (R239). -/
def Seq.commit (q : Seq) (ngram : Bool) (t : Option (BitVec 18)) : Seq :=
  let ts := q.tokens ++ [t]
  { q with tokens := ts, ngram := if ngram then ngramPut q.ngram ts else q.ngram }

/-! ## Draft trees (R240, R241) -/

/-- A path inserted below a node, the tree held to a number of nodes (R240): nodes are (token, parent), numbered from 1. -/
def insertPath (mx : Nat) : List (Nat × Nat) → Nat → List Nat → List (Nat × Nat)
  | ns, _, [] => ns
  | ns, cur, t :: r =>
    match ns.findIdx? fun n => decide (n = (t, cur)) with
    | some i => insertPath mx ns (i + 1) r
    | none => if ns.length < mx then insertPath mx (ns ++ [(t, cur)]) (ns.length + 1) r else ns

/-- The nodes below cur in preorder (R241). -/
def preorder (ns : List (Nat × Nat)) : Nat → Nat → List Nat
  | 0, _ => []
  | f + 1, cur =>
    (((List.range ns.length).map (· + 1)).filter fun i => decide ((ns.getD (i - 1) (0, 0)).2 = cur)).flatMap fun i =>
      i :: preorder ns f i

/-- The tree in preorder: token, parent and depth of each node (R241). -/
def preorderTree (ns : List (Nat × Nat)) : List Draft :=
  let o := preorder ns 32 0
  let place (i : Nat) : Nat := if i = 0 then 0 else (o.findIdx? fun x => decide (x = i)).getD 0 + 1
  o.foldl (fun (a : List Draft) i =>
    let n := ns.getD (i - 1) (0, 0)
    let pp := place n.2
    let dp := if pp = 0 then 0 else ((a.getD (pp - 1) default).depth)
    a ++ [{ token := BitVec.ofNat 18 n.1, parent := pp, depth := dp + 1 }]) []

end Sys2Proof.Machine
end

