-- ==== Sys2Proof/Machine/Pages.lean ====
section
/-!
DEFINITION. Sys2Proof/Machine/Pages.lean: the allocator's frames, the guard, the prefix tree and copies of shared frames
(R157 to R187, R222).
-/
namespace Sys2Proof.Machine

/-! ## Counts (R169, R173, R178, R182) -/

/-- Frames that a sequence's page list names. -/
def Seq.frames (q : Seq) : List Nat := (q.pages.filter fun e => !peSwapped e).map peFrame

/-- The sequences of a model. -/
def State.seqsOf (s : State) (m : SlotIx) : List Seq := s.seqs.filter fun q => decide (q.model = m)

/-- Frames named by the lists and Relay spans of a model, repeats included. -/
def State.listFrames (s : State) (m : SlotIx) : List Nat :=
  ((s.seqsOf m).flatMap Seq.frames) ++ (s.spans.filter fun x => decide (x.model = m)).flatMap fun x => x.pages.map (·.2)

/-- Page lists that name a frame. -/
def State.listRefs (s : State) (m : SlotIx) (f : Nat) : Nat := ((s.listFrames m).filter fun x => decide (x = f)).length

/-- Nodes that name a frame. -/
def State.nodeRefs (s : State) (m : SlotIx) (f : Nat) : Nat :=
  (s.models[m].pool.nodes.filter fun n => decide (n.frame = f)).length

/-- Reference count of a frame (R182). -/
def State.refs (s : State) (m : SlotIx) (f : Nat) : Nat := s.listRefs m f + s.nodeRefs m f

/-- A node's frame is cached: its only reference is the node (R182). -/
def State.isCached (s : State) (m : SlotIx) (n : Node) : Bool := decide (s.refs m n.frame = 1)

/-- CACHED of PAGE_POOL_CACHED (R178). -/
def State.cachedCount (s : State) (m : SlotIx) : Nat := (s.models[m].pool.nodes.filter (s.isCached m)).length

/-- RESERVED of PAGE_POOL_CACHED (R178). -/
def State.reservedCount (s : State) (m : SlotIx) : Nat := ((s.seqsOf m).filter fun q => q.reserve.isSome).length

/-- TARGET: guard entitlements (R173, R174). -/
def State.target (s : State) (m : SlotIx) : Nat := ((s.seqsOf m).filter fun q => decide (q.ent ≠ .none)).length

/-- Intact entitlements (R175). -/
def State.intact (s : State) (m : SlotIx) : Nat := ((s.seqsOf m).filter fun q => decide (q.ent = .intact)).length

/-- PARKED of PAGE_POOL_GUARD (R178). -/
def State.parkedCount (s : State) (m : SlotIx) : Nat :=
  ((s.seqsOf m).filter fun q => decide (q.ent = .consumed) && decide (q.state = .parkedPages)).length

/-- A function's use of a pool (R169). -/
def State.fnUse (s : State) (m : SlotIx) (f : Fn) : Nat :=
  let qs := (s.seqsOf m).filter fun q => decide (q.handle.fn = f)
  let sp := s.spans.filter fun x => decide (x.model = m) && decide (handleFn x.handle = f)
  (qs.map fun q => q.frames.length + b2n q.reserve.isSome + b2n (decide (q.ent ≠ .none))).sum + (sp.map fun x => x.pages.length).sum

/-- An allocation of n frames would take the function's use past its LIMIT (R169). -/
def State.overLimit (s : State) (m : SlotIx) (f : Fn) (n : Nat) : Bool :=
  let l := s.models[m].pool.limit[f]
  decide (l ≠ 0) && decide (l < s.fnUse m f + n)

/-! ## The free pool (R160, R170, R182) -/

/-- A frame put among the free ones, ascending. -/
def insFrame (f : Nat) (l : List Nat) : List Nat := insertBy (fun a b => decide (a < b)) f l

/-- What is known of a frame's contents, its summaries (R222) and its marks (R256), is dropped when the frame leaves a page. -/
def Pool.forget (p : Pool) (f : Nat) : Pool :=
  { p with marked := p.marked.filter fun x => !decide (x = f), summaries := p.summaries.filter fun x => !decide (x.frame = f) }

/-- A frame that carries no reference returns to the free pool at once (R182). -/
def State.giveBack (s : State) (m : SlotIx) (f : Nat) : State :=
  s.modPool m fun p => { p.forget f with free := insFrame f p.free }

/-- Frames return to the free pool at once. -/
def State.giveBackAll (s : State) (m : SlotIx) (fs : List Nat) : State := fs.foldl (fun s f => s.giveBack m f) s

/-- The free frame of the first tile from t on that has one (R160); the lowest of the tile. -/
def pickFree (l : List Nat) (t : Nat) : Option Nat :=
  ((List.range 4).map fun i => (t + i) % 4).findSome? fun u => l.find? fun f => decide ((frameTile f).val = u)

/-- A frame of the free pool taken for a tile. -/
def State.takeFree (s : State) (m : SlotIx) (t : Nat) : Option (Nat × State) :=
  (pickFree s.models[m].pool.free t).map fun f => (f, s.modPool m fun p => { p with free := p.free.filter fun x => !decide (x = f) })

/-- A node is a leaf (R185). -/
def State.isLeaf (s : State) (m : SlotIx) (n : Node) : Bool :=
  !s.models[m].pool.nodes.any fun x => decide (x.parent = some n.id)

/-- Adds to a field of PAGE_POOL_EVENTS (R178). -/
def State.poolEvent (s : State) (m : SlotIx) (lo : Nat) : State := s.modPool m fun p => { p with events := bump p.events lo 16 1 }

/-- The node with the oldest LAST_USE, ties to the lower slot. -/
def oldestNode (l : List Node) : Option Node :=
  (sortBy (fun (a b : Node) => decide (a.lastUse < b.lastUse) || (decide (a.lastUse = b.lastUse) && decide (a.id < b.id))) l).head?

/-- The package is a model's cohort leader, member 0 of its slice (R26). -/
def State.leads (s : State) (m : SlotIx) : Bool := decide (s.ownMember m = 0)

/-- A decision of the cohort leader on the prefix tree, kept for the next cohort record (R181; log entry 128). -/
def State.treeOp (s : State) (m : SlotIx) (o : TreeOp) : State :=
  if s.leads m then { s with treeOps := s.treeOps ++ [(m, o)] } else s

/-- A node is removed, its frame taken at once or not; EVICTIONS counts it (R178, R185). -/
def State.dropNode (s : State) (m : SlotIx) (id : Nat) (taken : Bool) : State :=
  ((s.modPool m fun p => { p with nodes := p.nodes.filter fun n => !decide (n.id = id) }).poolEvent m 16).treeOp m (.evict id taken)

/-- A node evicted whatever references its frame holds: a frame that nothing names then waits for the boundary (R182). -/
def State.evictNode (s : State) (m : SlotIx) (n : Node) : State :=
  let s := s.dropNode m n.id false
  if s.refs m n.frame = 0 then s.modPool m fun p => { p with freed := p.freed ++ [n.frame] } else s

/-- Source 3 of R170: the cached leaf with the oldest LAST_USE is evicted together with its frame (R185). The cohort leader alone
decides an eviction (R181), so another package has source 3 only in the evictions the leader sends (log entry 128). -/
def State.evict (s : State) (m : SlotIx) : Option (Nat × State) :=
  if s.leads m then
    (oldestNode (s.models[m].pool.nodes.filter fun n => s.isCached m n && s.isLeaf m n)).map fun n =>
      (n.frame, (s.dropNode m n.id true).modPool m fun p => p.forget n.frame)
  else none

/-- A frame from sources 2 and 3 of R170 for a preferred tile (R160), whatever LIMIT says: a copy of R184 replaces the frame that
its entry names, and raises no use (R169). -/
def State.anyFrame (s : State) (m : SlotIx) (t : Nat) : Option (Nat × State) :=
  match s.takeFree m t with
  | some r => some r
  | none => s.evict m

/-- A frame from sources 2 and 3 of R170, for a function and a preferred tile (R160, R169). -/
def State.takeFrame (s : State) (m : SlotIx) (f : Fn) (t : Nat) : Option (Nat × State) :=
  if s.overLimit m f 1 then none else s.anyFrame m t

/-- Frames from sources 2 and 3 for the pages of a sequence in a slot (R160); none is taken when one fails. -/
def State.takeFrames (s : State) (m : SlotIx) (f : Fn) (slot : Nat) : List Nat → Option (List Nat × State)
  | [] => some ([], s)
  | j :: r =>
    if s.overLimit m f (r.length + 1) then none
    else match s.takeFrame m f (j + slot) with
      | none => none
      | some (x, s) => (s.takeFrames m f slot r).map fun y => (x :: y.1, y.2)

/-! ## List segments (R162, R168, R170; log entry 126) -/

/-- List segments that the page lists of a model fill (R162). -/
def State.segments (s : State) (m : SlotIx) : Nat := ((s.seqsOf m).map fun q => cdiv q.pages.length 256).sum

/-- Some segment of the pool is neither in a list nor held for a guard entitlement (R168, R170). -/
def State.segmentFree (s : State) (m : SlotIx) : Bool :=
  let p := s.models[m].pool
  decide (s.segments m + s.target m < 2 * cdiv p.frames 256 + p.maxSeq)

/-- The next entry of a page list begins a segment (R170). -/
def Seq.beginsSegment (q : Seq) : Bool := decide (q.pages.length % 256 = 0)

/-- Frames that lost a reference: those that nothing names now wait for the next boundary (R182). -/
def State.release (s : State) (m : SlotIx) (fs : List Nat) : State :=
  fs.foldl (fun s f =>
    if s.refs m f = 0 && !s.models[m].pool.freed.contains f then s.modPool m fun p => { p with freed := p.freed ++ [f] } else s) s

/-- The Relay spans held for other packages that a test picks are dropped, with their frames' references (R187, R234). -/
def State.dropSpans (s : State) (gone : Span → Bool) : State :=
  let out := s.spans.filter gone
  let s := { s with spans := s.spans.filter fun x => !gone x }
  out.foldl (fun s x => s.release x.model (x.pages.map (·.2))) s

/-! ## The guard (R173 to R176) -/

/-- One guard frame returns when the guard holds more frames than TARGET (R173). -/
def State.trimGuard (s : State) (m : SlotIx) : State :=
  let p := s.models[m].pool
  if s.target m < p.guard.length then
    match p.guard with
    | f :: r => (s.modPool m fun p => { p with guard := r }).giveBack m f
    | [] => s
  else s

/-- A sequence's entitlement ends (R173). -/
def State.endEntitlement (s : State) (h : Key) : State :=
  match s.seq? h with
  | some q =>
    if q.ent = .none then s
    else (s.modSeq h fun q => { q with ent := .none }).trimGuard q.model
  | none => s

/-- One frame into the guard for a new entitlement of a function (R173): none when sources 2 and 3 have none. -/
def State.growGuard (s : State) (m : SlotIx) (f : Fn) : Option State :=
  (s.takeFrame m f 0).map fun r => r.2.modPool m fun p => { p with guard := p.guard ++ [r.1] }

/-- A guard frame taken by a crossing or a copy (R174); GUARD_USES counts the crossings (R178). -/
def State.useGuard (s : State) (h : Key) (crossing : Bool) : Option (Nat × State) :=
  match s.seq? h with
  | some q =>
    match s.models[q.model].pool.guard with
    | f :: r =>
      if q.ent = .intact then
        let s := s.modPool q.model fun p => { p with guard := r }
        some (f, (if crossing then s.poolEvent q.model 48 else s).modSeq h fun q => { q with ent := .consumed })
      else none
    | [] => none
  | none => none

/-- A sequence's reserve frame returns (R171). -/
def State.dropReserve (s : State) (h : Key) : State :=
  match s.seq? h with
  | some q => match q.reserve with
    | some f => (s.modSeq h fun q => { q with reserve := none }).giveBack q.model f
    | none => s
  | none => s

/-- The sequence takes a reserve frame at a boundary (R171). -/
def Seq.wantsReserve (q : Seq) : Bool :=
  (decide (q.state = .admitted) || decide (q.state = .ingesting) || decide (q.state = .running) || decide (q.state = .parkedPages)) &&
  q.reserve.isNone && decide (0 < q.written) && decide (0 < q.pages.length) && decide (q.pages.length < 65536) &&
  decide (256 * q.pageCount ≤ q.written + 31)

/-- The reservation of R171 for one sequence. -/
def State.reserveFor (s : State) (h : Key) : State :=
  match s.seq? h with
  | some q =>
    if q.wantsReserve then
      match s.takeFrame q.model h.fn (q.pageCount + h.slot) with
      | some (f, s) => s.modSeq h fun q => { q with reserve := some f }
      | none => s
    else s
  | none => s

/-- PAGE_LOW (R177). -/
def State.pageLow (s : State) (m : SlotIx) : State :=
  let p := s.models[m].pool
  let n := p.free.length + s.cachedCount m
  if p.lowWater = 0 then s
  else if !p.lowSent && decide (n < p.lowWater) then
    (s.event 0 0x01 4 [(0, 16, m.val), (32, 24, p.free.length), (64, 24, s.cachedCount m)]).modPool m fun p => { p with lowSent := true }
  else if p.lowSent && decide (p.lowWater + 64 ≤ n) then s.modPool m fun p => { p with lowSent := false }
  else s

/-- Step 2 of R175: the guard is refilled up to TARGET, from the free pool and then by eviction. -/
def State.refillGuard (s : State) (m : SlotIx) : Nat → State
  | 0 => s
  | n + 1 =>
    if s.models[m].pool.guard.length < s.target m then
      match (match s.takeFree m 0 with | some r => some r | none => s.evict m) with
      | some (f, s) => (s.modPool m fun p => { p with guard := p.guard ++ [f] }).refillGuard m n
      | none => s
    else s

/-- Step 3 of R175: consumed entitlements of parked sequences restored, oldest parking first. -/
def State.restoreGuard (s : State) (m : SlotIx) : State :=
  let qs := sortBy (fun (a b : Seq) => decide (a.parkedAt < b.parkedAt))
    ((s.seqsOf m).filter fun q => decide (q.ent = .consumed) && decide (q.state = .parkedPages))
  qs.foldl (fun s q =>
    if s.intact m < s.models[m].pool.guard.length then s.modSeq q.handle fun q => { q with ent := .intact } else s) s

/-- Steps 1 to 3 of R175. -/
def State.allocatorBoundary (s : State) (m : SlotIx) : State :=
  let fs := s.models[m].pool.freed
  let s := (s.modPool m fun p => { p with freed := [] }).giveBackAll m fs
  (s.refillGuard m (s.target m)).restoreGuard m

/-! ## The prefix tree (R179 to R187) -/

/-- The tenant of a function (R378). -/
def State.tenant? (s : State) (f : Fn) : Option Tenant := s.um.live.tenants[f]

/-- The prefix key a function's blocks are hashed under, and whether it is the model's shared key; none for OFF (R179). -/
def State.prefixKey? (s : State) (m : SlotIx) (f : Fn) : Option (BitVec 256 × Bool) :=
  match s.tenant? f with
  | some t =>
    if t.pfx = 1 then s.um.prefixKey[f].map fun k => (k, false)
    else if t.pfx = 2 then (s.load? m).map fun l => (l.prefixKey, true)
    else none
  | none => none

/-- The hash of a block (R180). -/
def blockHash (key : BitVec 256) (parent : BitVec 64) (toks : List (BitVec 18)) : BitVec 64 :=
  BitVec.ofNat 64 (leNat ((hmac512 (toLE 32 key.toNat)
    (toLE 8 parent.toNat ++ toLE 2 toks.length ++ toks.flatMap fun t => toLE 4 t.toNat)).take 8))

/-- The node of an identifier. -/
def State.node? (s : State) (m : SlotIx) (id : Nat) : Option Node := s.models[m].pool.nodes.find? fun n => decide (n.id = id)

/-- Hash of the parent of a block: 0 at position 0 (R180). -/
def State.parentHash (s : State) (m : SlotIx) (parent : Option Nat) : BitVec 64 :=
  match parent with
  | some i => (s.node? m i).elim 0 fun n => n.hash
  | none => 0

/-- Nodes below a parent that a key may see (R183). -/
def State.children (s : State) (m : SlotIx) (parent : Option Nat) (f : Fn) (cross : Bool) : List Node :=
  s.models[m].pool.nodes.filter fun n => decide (n.parent = parent) && (n.cross == cross) && (cross || decide (n.tenant = f))

/-- The STEP of a match or an insertion for a sequence (R181): that of the cohort that holds it; of a sequence in no cohort the
greatest STEP of its model's cohorts (log entry 125). -/
def State.useStep (s : State) (m : SlotIx) (h : Key) : BitVec 64 :=
  match s.cohorts.find? fun k => decide (k.model = m) && (rowHandles k 0xFFFFFFFF).contains h with
  | some k => k.step
  | none => (List.finRange 8).foldl (fun a c => if a < s.stepOf m c then s.stepOf m c else a) 0

/-- LAST_USE of a node (R181, R183). -/
def State.touch (s : State) (m : SlotIx) (id : Nat) (step : BitVec 64) : State :=
  s.modPool m fun p => { p with nodes := updFirst (fun n => decide (n.id = id)) (fun n => { n with lastUse := step }) p.nodes }

/-- COLLISIONS (R178). -/
def State.collision (s : State) (m : SlotIx) : State := s.poolEvent m 0

/-- A matched node linked as a sequence's next page (R183 steps 1 and 2); a full one belongs to its chain (R185). Its entry has
SUMMARY_VALID set when the page is full and the model keeps summaries (R222). -/
def State.linkNode (s : State) (h : Key) (n : Node) (ngram : Bool) (step : BitVec 64) : State :=
  match s.seq? h with
  | some q =>
    let e := pack 32 [(0, 24, n.frame), (24, 1, 1), (27, 1, b2n (n.full && (s.lens? q.model).isSome))]
    ((s.treeOp q.model (.link (s.homeOf q.model h) h.handle n.id step)).touch q.model n.id step).modSeq h fun q =>
      let q := n.tokens.foldl (fun (q : Seq) t =>
        let ts := q.tokens ++ [some t]
        { q with tokens := ts, ngram := if ngram then ngramPut q.ngram ts else q.ngram }) q
      { q with pages := q.pages ++ [e], written := q.written + n.tokens.length
               chain := if n.full then q.chain ++ [n.id] else q.chain, offered := if n.full then q.offered + 1 else q.offered }
  | none => s

/-- Full blocks matched from a sequence's next page (R183 steps 1, 3 and 4): the last node matched, and the tokens left. -/
def State.matchFull (s : State) (h : Key) (m : SlotIx) (f : Fn) (key : BitVec 256) (cross ngram fin : Bool) :
    Nat → Option Nat → List (BitVec 18) → Option Nat × List (BitVec 18) × State
  | 0, parent, toks => (parent, toks, s)
  | k + 1, parent, toks =>
    if toks.length < 256 + b2n fin then (parent, toks, s)
    else
      let block := toks.take 256
      let hash := blockHash key (s.parentHash m parent) block
      match (s.children m parent f cross).find? fun n => n.full && decide (n.hash = hash) with
      | none => (parent, toks, s)
      | some n =>
        if n.tokens = block then (s.linkNode h n ngram (s.useStep m h)).matchFull h m f key cross ngram fin k (some n.id) (toks.drop 256)
        else (parent, toks, s.collision m)

/-- The longest partial child whose tokens all match and that is shorter than what remains (R183 step 2). -/
def State.matchPartial (s : State) (m : SlotIx) (f : Fn) (cross : Bool) (parent : Option Nat) (toks : List (BitVec 18)) : Option Node :=
  ((s.children m parent f cross).filter fun n =>
    !n.full && decide (n.tokens.length < toks.length) && decide (toks.take n.tokens.length = n.tokens)).foldl
    (fun (a : Option Node) n => match a with
      | some b => if b.tokens.length < n.tokens.length then some n else a
      | none => some n) none

/-- Matching of an accepted chunk by the cohort leader (R183): the tokens that still need rows. -/
def State.matchChunk (s : State) (h : Key) (ngram fin : Bool) (toks : List (BitVec 18)) : List (BitVec 18) × State :=
  match s.seq? h with
  | none => (toks, s)
  | some q =>
    match s.prefixKey? q.model h.fn with
    | none => (toks, s)
    | some (key, cross) =>
      if !s.leads q.model || !q.matching || q.written % 256 ≠ 0 then (toks, s)
      else
        let r := s.matchFull h q.model h.fn key cross ngram fin (toks.length / 256 + 1) q.chain.getLast? toks
        match r.2.2.matchPartial q.model h.fn cross r.1 r.2.1 with
        | some n => (r.2.1.drop n.tokens.length, r.2.2.linkNode h n ngram (s.useStep q.model h))
        | none => (r.2.1, r.2.2)

/-- A node inserted (R181, R185): the frame's entries have SHARED set from now on (R182). -/
def State.addNode (s : State) (m : SlotIx) (n : Node) : State :=
  let s := s.modPool m fun p => { p with nodes := p.nodes ++ [n], nextNode := p.nextNode + 1 }
  { s with seqs := s.seqs.map fun q =>
      if q.model = m ∧ !q.listBad then { q with pages := q.pages.map fun e => if !peSwapped e && decide (peFrame e = n.frame) then setBit e 24 else e }
      else q }

/-- Tokens of page j of a sequence, when every one is known. -/
def Seq.pageTokens (q : Seq) (j n : Nat) : Option (List (BitVec 18)) := ((q.tokens.drop (256 * j)).take n).mapM id

/-- A page that is neither speculative nor swapped, with its frame. -/
def Seq.ownFrame (q : Seq) (j : Nat) : Option Nat :=
  (q.page? j).bind fun e => if peSpec e || peSwapped e then none else some (peFrame e)

/-- A node of a page of a sequence inserted by the cohort leader, and sent to the other packages (R181, R185): its slot. -/
def State.insertNode (s : State) (h : Key) (q : Seq) (page : Nat) (hash : BitVec 64) (cross : Bool) (f : Nat) (toks : List (BitVec 18)) :
    Nat × State :=
  let id := s.models[q.model].pool.nextNode
  let n : Node := { id := id, hash := hash, parent := q.chain.getLast?, frame := f, tenant := h.fn, cross := cross,
                    lastUse := s.useStep q.model h, tokens := toks }
  (id, (s.addNode q.model n).treeOp q.model (.insert (s.homeOf q.model h) h.handle page n))

/-- A full page offered to the prefix tree (R185): the chain grows by its node, or breaks. -/
def State.insertFull (s : State) (h : Key) (j : Nat) : State :=
  match s.seq? h with
  | none => s
  | some q =>
    let s := s.modSeq h fun q => { q with offered := j + 1 }
    match s.prefixKey? q.model h.fn, q.pageTokens j 256, q.ownFrame j with
    | some (key, cross), some toks, some f =>
      if q.chain.length ≠ j ∨ toks.length ≠ 256 then s
      else
        let parent := q.chain.getLast?
        let hash := blockHash key (s.parentHash q.model parent) toks
        match (s.children q.model parent h.fn cross).find? fun n => n.full && decide (n.hash = hash) with
        | some n =>
          if n.tokens = toks then s.modSeq h fun q => { q with chain := q.chain ++ [n.id] } else s.collision q.model
        | none =>
          let r := s.insertNode h q j hash cross f toks
          r.2.modSeq h fun q => { q with chain := q.chain ++ [r.1] }
    | _, _, _ => s

/-- The cohort leader may put pages of the sequence into the prefix tree (R163, R181). -/
def State.mayInsert (s : State) (q : Seq) : Bool := s.leads q.model && !q.listBad

/-- Full pages of a sequence that are now written with accepted tokens, inserted in order (R185). -/
def State.insertPages (s : State) (h : Key) : State :=
  match s.seq? h with
  | some q => if !s.mayInsert q then s else ((List.range (q.written / 256)).filter fun j => decide (q.offered ≤ j)).foldl (fun s j => s.insertFull h j) s
  | none => s

/-- The last partial page inserted as a PARTIAL child when the sequence enters ENDED (R185). -/
def State.insertPartial (s : State) (h : Key) : State :=
  match s.seq? h with
  | none => s
  | some q =>
    let j := q.written / 256
    let n := q.written % 256
    match s.prefixKey? q.model h.fn, q.pageTokens j n, q.ownFrame j with
    | some (key, cross), some toks, some f =>
      if n = 0 ∨ q.chain.length ≠ j ∨ toks.length ≠ n ∨ !s.mayInsert q then s
      else
        let parent := q.chain.getLast?
        let hash := blockHash key (s.parentHash q.model parent) toks
        let kids := (s.children q.model parent h.fn cross).filter fun x => !x.full
        match kids.find? fun x => decide (x.hash = hash) with
        | some x => if x.tokens = toks then s else s.collision q.model
        | none =>
          let all := if parent.isSome then s.models[q.model].pool.nodes.filter fun x => decide (x.parent = parent) && !x.full else kids
          let s := if 4 ≤ all.length then (match oldestNode all with | some x => s.evictNode q.model x | none => s) else s
          (s.insertNode h q j hash cross f toks).2
    | _, _, _ => s

/-- Nodes of a function's own key that are cached leaves go, as often as that frees more of them (R187). -/
def State.sweepTenant (s : State) (m : SlotIx) (gone : Fn → Bool) : Nat → State
  | 0 => s
  | k + 1 =>
    match s.models[m].pool.nodes.find? fun n => !n.cross && gone n.tenant && s.isLeaf m n && s.isCached m n with
    | some n => (s.evictNode m n).sweepTenant m gone k
    | none => s

/-! ## Pages for a step (R172, R184) -/

/-- The page a position falls in needs a copy before it is written (R184). -/
def State.needsCopy (s : State) (q : Seq) (j : Nat) : Bool :=
  match q.page? j with
  | some e => peShared e && decide (1 < s.refs q.model (peFrame e))
  | none => false

/-- A frame for a copy of a shared page: sources 2 and 3, then the guard when allowed (R170, R172, R184). -/
def State.frameForCopy (s : State) (q : Seq) (t : Nat) (guard : Bool) : Option (Nat × State) :=
  match s.anyFrame q.model t with
  | some r => some r
  | none => if guard then s.useGuard q.handle false else none

/-- A frame for a crossing, and a list segment when its entry begins one: sources 2 and 3, then the guard when allowed (R170,
R172). -/
def State.frameForCrossing (s : State) (q : Seq) (t : Nat) (guard : Bool) : Option (Nat × State) :=
  let own := if q.beginsSegment && !s.segmentFree q.model then none else s.takeFrame q.model q.handle.fn t
  match own with
  | some r => some r
  | none => if guard then s.useGuard q.handle true else none

/-- Page j is made writable (R184): a shared frame with other references is to be copied into a new frame; SHARED of a frame
with one reference is cleared. False: no frame can be had. -/
def State.ensureOwn (s : State) (h : Key) (j : Nat) (guard : Bool) : Bool × State :=
  match s.seq? h with
  | none => (true, s)
  | some q =>
    match q.page? j with
    | none => (true, s)
    | some e =>
      if !peShared e then (true, s)
      else if s.needsCopy q j then
        if q.cow.any fun y => decide (y.1 = j) then (true, s)
        else match s.frameForCopy q (frameTile (peFrame e)).val guard with
          | some (f, s) => (true, s.modSeq h fun q => { q with cow := q.cow ++ [(j, f)] })
          | none => (false, s)
      else (true, s.modSeq h fun q => q.modPage j fun e => clrBit e 24)

/-- The list of a sequence gets page j (R170, R172): the reserve frame, then sources 2 and 3, then the guard when allowed. -/
def State.ensurePage (s : State) (h : Key) (j : Nat) (draft : Bool) : Bool × State :=
  match s.seq? h with
  | none => (true, s)
  | some q =>
    if j < q.pageCount then (true, s)
    else if 65536 ≤ q.pages.length then (false, s)
    else
      let entry (f : Nat) : BitVec 32 := pack 32 [(0, 24, f), (26, 1, b2n draft)]
      match q.reserve with
      | some f => (true, s.modSeq h fun q => { q with reserve := none, pages := q.pages ++ [entry f] })
      | none => match s.frameForCrossing q (j + h.slot) (!draft) with
        | some (f, s) => (true, s.modSeq h fun q => { q with pages := q.pages ++ [entry f] })
        | none => (false, s)

/-- The pages of positions a to b of a sequence are there and writable (R172). -/
def State.ensure (s : State) (h : Key) (a b : Nat) (draft : Bool) : Bool × State :=
  let r := s.ensureOwn h (a / 256) (!draft)
  if !r.1 then r
  else if b / 256 = a / 256 then r.2.ensurePage h (b / 256) draft
  else
    let r := r.2.ensurePage h (a / 256) draft
    if !r.1 then r
    else
      let r := r.2.ensureOwn h (b / 256) (!draft)
      if !r.1 then r else r.2.ensurePage h (b / 256) draft

/-! ## COW_COPY (R184) -/

/-- The bytes of a frame copied to another of the pool. -/
def copyFrame (p : Pool) (src dst : Nat) : Pool :=
  let mine := p.data.filter fun c => decide (frameBase src ≤ c.1) && decide (c.1 < frameBase (src + 1))
  let rest := sdrop (fun a => decide (frameBase dst ≤ a) && decide (a < frameBase (dst + 1))) p.data
  { p with data := mine.foldl (fun d c => putByte d (c.1 - frameBase src + frameBase dst) c.2) rest }

/-- COW_COPY (R184): the copy of a shared frame is complete: the entry names the new frame with SHARED clear, and the old
frame loses a reference. -/
def execCowCopy (handle : Key) (page : Nat) (s : State) : Host.Outcome State Fault Refusal :=
  match s.seq? handle with
  | none => done s s
  | some q =>
    match q.cow.find? fun y => decide (y.1 = page), q.page? page with
    | some (_, f), some e =>
      let s1 := s.modPool q.model fun p => copyFrame p (peFrame e) f
      let s1 := s1.modSeq handle fun q =>
        { (q.modPage page fun e => clrBit (clrBit (setFld e 0 24 f) 24) 27) with cow := q.cow.filter fun y => !decide (y.1 = page) }
      done s ((s1.release q.model [peFrame e]).poolEvent q.model 32)
    | _, _ => done s s

end Sys2Proof.Machine
end

