-- ==== Sys2Proof/Machine/Seqs.lean ====
section
/-!
DEFINITION. Sys2Proof/Machine/Seqs.lean: how a sequence ends, is freed, is swapped out and read back (R22 to R24, R171, R173,
R185, R188 to R195, R354, R409).
-/
namespace Sys2Proof.Machine

/-! ## Completions of a sequence's requests (R24, R354) -/

/-- POSITION of a completion: the highest committed position (R354). -/
def Seq.highest (q : Seq) : Nat := q.tokens.length - 1

/-- Completes a request of a sequence, on its home package alone (R26, R354). -/
def State.finishReq (s : State) (q : Seq) (e : Sub) (opcode status : BitVec 8) (emitted : Nat := 0) (detail : BitVec 64 := 0) :
    State := if q.handle.isOwn then s.completeFull e false opcode status q.handle.handle q.highest emitted detail else s

/-- The owner of a sequence's sync words is lost, on its home package, where its handle means something (R286, R340). -/
def State.loseSeqOwner (s : State) (h : Key) : State := if h.isOwn then s.loseOwner 3 h.handle.toNat else s

/-- Completes the generating request of a sequence, if one is open (R24). -/
def State.finishGen (s : State) (h : Key) (status : BitVec 8) (detail : BitVec 64 := 0) : State :=
  match s.seq? h with
  | some q => match q.gen with
    | some g => (s.finishReq q g.sub g.opcode status q.genToks.length detail).modSeq h fun q => { q with gen := none }
    | none => s
  | none => s

/-- Completes the chunks of a sequence that are no generating request (R24). -/
def State.finishChunks (s : State) (h : Key) (status : BitVec 8) (detail : BitVec 64) : State :=
  match s.seq? h with
  | some q =>
    let s := (q.chunks.filter fun c => !c.fin).foldl (fun s c => s.finishReq q c.sub c.opcode status 0 detail) s
    s.modSeq h fun q => { q with chunks := [] }
  | none => s

/-- Emission slots of a sequence that no record will use return (R43). -/
def State.dropSlots (s : State) (h : Key) : State :=
  match s.seq? h with
  | some q => (s.modRing h.fn q.emitSet 3 fun r => { r with reserved := r.reserved - q.slots }).modSeq h fun q => { q with slots := 0 }
  | none => s

/-- Frames taken for copies that are not made return at once (R182). -/
def State.dropCopies (s : State) (h : Key) : State :=
  match s.seq? h with
  | some q => (s.modSeq h fun q => { q with cow := [] }).giveBackAll q.model (q.cow.map (·.2))
  | none => s

/-- What the sequence holds beyond its pages returns: its reserve frame, copies and slots (R44, R171, R182). -/
def State.settleSeq (s : State) (h : Key) : State := ((s.dropReserve h).dropCopies h).dropSlots h

/-- Pending requests of a sequence that has ended (R23, R24): its CANCELs take effect, a PREEMPT finds no state for it, a
SET_POLICY stands. -/
def State.finishPending (s : State) (h : Key) : State :=
  match s.seq? h with
  | some q =>
    let s := q.newPolicy.foldl (fun s x => s.finishReq q x.1 0x05 0x00) s
    let s := q.pendCancel.foldl (fun s e => s.finishReq q e 0x08 0x00) s
    let s := match q.pendPreempt with | some x => s.finishReq q x.1 0x06 0x21 | none => s
    s.modSeq h fun q => { q with pendCancel := [], pendPreempt := none, newPolicy := [],
                                 policy := (q.newPolicy.getLast?.map (·.2)).getD q.policy }
  | none => s

/-- Imports that are under way when a sequence ends stop: their frames return, they complete with its status (R24, R355). -/
def State.stopImports (s : State) (h : Key) (status : BitVec 8) : State :=
  match s.seq? h with
  | some q =>
    let s := q.imps.foldl (fun s i => (s.giveBackAll q.model i.frames).finishReq q i.sub 0x03 status) s
    s.modSeq h fun q => { q with imps := [] }
  | none => s

/-! ## Swap records (R188 to R191, R195) -/

/-- Frame size of a model's pages. -/
def State.frameSize (s : State) (m : SlotIx) : Nat := match s.geometry? m with | some g => geoFrame g | none => 0

/-- Pages a sequence holds once the pass just run is rolled back (R188, R247 step 4). -/
def Seq.keptPages (q : Seq) : Nat :=
  match q.pass with
  | some p =>
    let last := (p.root + p.path.length + 1) / 256
    q.firstPage + ((q.pages.zip (List.range q.pages.length)).filter fun y => !(peSpec y.1 && decide (last < q.firstPage + y.2))).length
  | none => q.pageCount

/-- Frame size of a model's pages on a member of its slice, from that member's part of the image (R158, R188; log entry 10). -/
def State.memberFrame (s : State) (m : SlotIx) (k : Nat) : Nat :=
  match s.image? m, s.sliceOf m with
  | some im, some x => match partBody im (if im.parts.toNat = x.members.length then k else 0) SecBody.geometry? with
    | some g => geoFrame g
    | none => 0
  | _, _ => 0

/-- Every buffer of a swap list holds a number of pages of its package (R188). -/
def State.swapHolds (s : State) (m : SlotIx) (pages : Nat) (l : List (BitVec 128)) : Bool :=
  (l.zip (List.range l.length)).all fun x => decide (pages * (s.memberFrame m x.2 + 128) ≤ (x.1.extractLsb' 64 64).toNat)

/-- The buffers hold the sequence's pages once the pass just run is rolled back (R188). -/
def State.swapFits (s : State) (q : Seq) (l : List (BitVec 128)) : Bool := s.swapHolds q.model q.keptPages l

/-- The address of this package's buffer in a swap list (R188). -/
def State.ownBuffer (s : State) (m : SlotIx) (l : List (BitVec 128)) : BitVec 64 :=
  ((l[s.ownMember m]?).map fun x => x.extractLsb' 0 64).getD 0

/-- The active swap of a direction (R195): that of the earliest command, once it has taken effect. -/
def State.activeSwap (s : State) (out : Bool) : Option Key :=
  (s.swapQueue.find? fun h => match s.seq? h with
    | some q => if out then q.pendPreempt.isSome || decide (q.state = .preempting) else decide (q.state = .resuming)
    | none => false).filter fun h => !out || (s.seq? h).any fun q => decide (q.state = .preempting)

/-- The next counter of a tenant, reserved in blocks of 65,536 (R190). -/
def State.nextCounter (s : State) (f : Fn) : BitVec 64 × State :=
  let c := s.um.swapCounter[f]
  (c, s.modUm fun u => { u with
    swapCounter := u.swapCounter.set f (c + 1)
    swapReserved := if c < u.swapReserved[f] then u.swapReserved else u.swapReserved.set f (u.swapReserved[f] + 65536) })

/-- The header of a swap record (R189). -/
def swapHeader (q : Seq) (page member : Nat) (counter : BitVec 64) (frame : Nat) : Bytes :=
  toLE 4 q.handle.handle.toNat ++ toLE 2 page ++ toLE 1 member ++ [0] ++ toLE 8 counter.toNat ++ toLE 4 (min 256 (q.written - 256 * page)) ++
  toLE 4 frame ++ toLE 2 q.model.val ++ List.replicate 38 0

/-- The IV of a record (R190). -/
def State.swapIv (s : State) (counter : BitVec 64) : Bytes := toLE 4 s.boot.device.toNat ++ toLE 8 counter.toNat

/-- The swap key of a tenant as bytes (R190). -/
def State.swapKeyBytes (s : State) (f : Fn) : Bytes := toLE 32 ((s.um.swapKey[f]).getD 0).toNat

/-- Writes the record of the next page of an active swap and reads it back to flush it (R189 to R191). -/
def State.writeRecord (s : State) (h : Key) : State :=
  match s.seq? h with
  | none => s
  | some q => match q.swap, q.swap.bind fun w => q.page? w.next with
    | some w, some e =>
      let fn := h.fn
      let size := s.frameSize q.model
      let r := s.nextCounter fn
      let s := r.2.modSeq h fun q => { q with counter0 := if w.next = 0 then r.1 else q.counter0 }
      let head := swapHeader q w.next (s.ownMember q.model) r.1 size
      let key := s.swapKeyBytes fn
      let iv := s.swapIv r.1
      let data := gcmCrypt key iv (s.frameBytes q.model (peFrame e) 0 size)
      let at0 := w.buf + BitVec.ofNat 64 (w.next * (size + 128))
      let s := s.post (.bytes fn at0 (head ++ data ++ gcmTag key iv head data ++ List.replicate 48 0))
      s.post (.flushRead fn (at0 + BitVec.ofNat 64 (size + 64)))
    | _, _ => s

/-- The head of the queue starts to write (R195). -/
def State.startOut (s : State) : State := match s.activeSwap true with | some h => s.writeRecord h | none => s

/-- A sequence's swap ends or is given up: its turn passes, and the swap whose turn it then is starts (R195). -/
def State.leaveQueue (s : State) (h : Key) : State :=
  let was := s.activeSwap true
  let s := { s with swapQueue := s.swapQueue.filter fun x => !decide (x = h) }
  if s.activeSwap true = was then s else s.startOut

/-! ## Ending (R22 to R24) -/

/-- A sequence enters ENDING with a status, and ENDED when nothing of its records is held (R22, R24, R171, R173, R185, R286; log
entry 50). -/
def State.endSeq (s : State) (h : Key) (status : BitVec 8) (detail : BitVec 64 := 0) : State :=
  let s := (((s.leaveQueue h).settleSeq h).stopImports h status).modSeq h fun q => { q with
    state := .ending, endStatus := status, tree := [], pass := none, stopped := none, lastOut := false, causes := [], swap := none,
    spill := none }
  let s := (((s.insertPages h).insertPartial h).endEntitlement h).loseSeqOwner h
  (((s.finishChunks h status detail).finishGen h status detail).finishPending h).endWrites

/-- A sequence goes to FREE (R22, R23): its pages lose their references and the slot's reuse count rises (R21);
its owner's words are freed (R306). -/
def State.freeSeq (s : State) (h : Key) : State :=
  match s.seq? h with
  | none => s
  | some q =>
    let s := (s.leaveQueue h).settleSeq h
    let held := (match q.swap with | some w => (w.frames.filter fun y => decide (w.next ≤ y.1)).map (·.2) | none => []) ++
      q.imps.flatMap (·.frames)
    let key := 16384 * h.fn.val + h.slot
    let s := { s with seqs := s.seqs.filter fun q => !decide (q.handle = h)
                      reuse := if h.isOwn then sput 0 s.reuse key (sget 0 s.reuse key + 1) else s.reuse }
    let s := ((s.giveBackAll q.model held).release q.model q.frames).trimGuard q.model
    if h.isOwn then s.freeOwnerOf 3 h.handle.toNat else s

/-! ## PREEMPTING (R188 to R191, R194, R195) -/

/-- A swap of a sequence stops (R194): the PREEMPT, RESUME or EXTEND completes with a status, then the CANCELs. EMITTED counts what the
generating request emitted; an EXTEND has emitted nothing yet (R24). -/
def State.stopSwap (s : State) (h : Key) (status : BitVec 8) : State :=
  match s.seq? h with
  | none => s
  | some q => match q.swap with
    | none => s
    | some w =>
      let left := (w.frames.filter fun y => decide (w.next ≤ y.1)).map (·.2)
      let s := s.giveBackAll q.model left
      let s := s.finishReq q w.sub w.opcode status (if w.opcode = 0x07 then q.genToks.length else 0)
      let s := s.modSeq h fun q => { q with gen := none, swap := none, chunks := if w.opcode = 0x04 then [] else q.chunks }
      let s := s.endSeq h 0x03
      match s.seq? h with
      | some q => w.stop.foldl (fun s e => s.finishReq q e 0x08 0x00) s
      | none => s

/-- A sequence enters PREEMPTING (R24, R171, R188, R286): its generating request completes with PREEMPTED, and its records are written
from its turn on (R195). A CANCEL that waited beside the PREEMPT stops the swap before its first record (R194). -/
def State.enterPreempting (s : State) (h : Key) (e : Sub) (buf : BitVec 64) : State :=
  let s := { s with swapQueue := if s.swapQueue.contains h then s.swapQueue else s.swapQueue ++ [h] }
  let was := s.activeSwap true
  let s := (s.settleSeq h).finishGen h 0x04
  let s := s.modSeq h fun q => { q with
    state := .preempting, tree := [], pass := none, stopped := none, ent := if q.ent = .consumed then .none else q.ent
    swap := some { sub := e, opcode := 0x06, buf := buf, next := 0, frames := [], stop := q.pendCancel, old := [], mine := false, failed := none }
    pendPreempt := none, pendCancel := [] }
  let s := s.loseSeqOwner h
  match s.seq? h with
  | none => s
  | some q =>
    let s := s.trimGuard q.model
    if (q.swap.any fun w => !w.stop.isEmpty) then s.stopSwap h 0x03
    else if s.activeSwap true = was then s else s.startOut

/-- A PREEMPT takes effect (R175, R188): refused when a buffer is short for the pages now held. -/
def State.takePreempt (s : State) (h : Key) : State :=
  match s.seq? h with
  | none => s
  | some q => match q.pendPreempt with
    | none => s
    | some x =>
      if s.swapFits q x.2 then s.enterPreempting h x.1 (s.ownBuffer q.model x.2)
      else ((s.leaveQueue h).finishReq q x.1 0x06 0x26).modSeq h fun q => { q with pendPreempt := none }

/-- A page whose record is flushed leaves the device (R191). -/
def State.swapOutPage (s : State) (h : Key) (page : Nat) : State :=
  match s.seq? h with
  | none => s
  | some q => match q.page? page with
    | none => s
    | some e =>
      let s := s.modSeq h fun q => q.modPage page fun e => clrBit (setFld (setBit e 25) 0 24 page) 27
      let s := s.release q.model [peFrame e]
      { s with swapStat := bump s.swapStat 40 24 1 }

/-- The error log's entry of a failed host read that ends a request (R407, R414). -/
def State.logHostRead (s : State) (f : Fn) (m : Nat) : State := s.logError 0x0E 7 1 f.val 0 m 0

/-- Every package has written every page (R24, R191): the sequence enters SWAPPED, its entitlement ends, and the PREEMPT completes. -/
def State.swapOutDone (s : State) (h : Key) : State :=
  match s.seq? h with
  | none => s
  | some q => match q.swap with
    | none => s
    | some w =>
      let s := (s.finishReq q w.sub 0x06 0x00).modSeq h fun q => { q with state := .swapped, swap := none }
      s.endEntitlement h

/-- This package's part of a swap is over: done, or failed with a status that its home package is told (R191 to R194). -/
def State.partOver (s : State) (h : Key) (failed : Option (BitVec 8)) : State :=
  (s.modSeq h fun q => { q with swap := q.swap.map fun w => { w with mine := failed.isNone, failed := failed } }).leaveQueue h

/-- SWAP_FLUSH_DONE (R191, R194, R195, R355): the flushing read of the record just written returned; the next record
follows, or this package's part of the swap ends. The swap ends when every package's has (log entry 127). -/
def execSwapFlushDone (handle : Key) (ok : Bool) (s : State) : Host.Outcome State Fault Refusal :=
  match s.seq? handle with
  | none => done s s
  | some q =>
    if s.activeSwap true ≠ some handle then done s s
    else match q.swap with
      | none => done s s
      | some w =>
        if !ok then
          let s1 := s.logHostRead handle.fn q.model.val
          done s (if handle.isOwn then s1.stopSwap handle 0x2F else s1.partOver handle (some 0x2F))
        else
          let s1 := (s.swapOutPage handle w.next).modSeq handle fun q => { q with swap := some { w with next := w.next + 1 } }
          if !w.stop.isEmpty then done s (s1.stopSwap handle 0x03)
          else if q.pageCount ≤ w.next + 1 then
            let s1 := s1.partOver handle none
            done s (if s.alone q.model then s1.swapOutDone handle else s1)
          else done s (s1.writeRecord handle)

/-! ## Reading back (R192 to R194) -/

/-- Pages of a sequence that are in host memory. -/
def Seq.swappedPages (q : Seq) : List Nat := (List.range q.pageCount).filter fun j => match q.page? j with | some e => peSwapped e | none => false

/-- Every frame and a guard frame taken for a read-back (R173, R192): none when some frame cannot be had. -/
def State.takeBack (s : State) (q : Seq) : Option (List Nat × State) :=
  match s.growGuard q.model q.handle.fn with
  | none => none
  | some s =>
    let s := s.modSeq q.handle fun q => { q with ent := .intact }
    s.takeFrames q.model q.handle.fn q.handle.slot q.swappedPages

/-- A read-back begins (R192): the sequence enters RESUMING. -/
def State.enterResuming (s : State) (q : Seq) (e : Sub) (opcode : BitVec 8) (buf : BitVec 64) (frames : List Nat) : State :=
  let s := s.modSeq q.handle fun q => { q with
    state := .resuming, swap := some { sub := e, opcode := opcode, buf := buf, next := q.swappedPages.headD 0,
                                       frames := q.swappedPages.zip frames, stop := [], old := q.pages, mine := false, failed := none } }
  { s with swapQueue := s.swapQueue ++ [q.handle] }

/-- A read-back fails (R193, R355): every frame it took returns, the entries are as they were, the sequence is SWAPPED again
or, for an EXTEND, ENDED. -/
def State.failBack (s : State) (h : Key) (status : BitVec 8) : State :=
  match s.seq? h with
  | none => s
  | some q => match q.swap with
    | none => s
    | some w =>
      let s := s.finishReq q w.sub w.opcode status
      let s := s.modSeq h fun q => { q with
        pages := w.old, swap := none, gen := none, chunks := if w.opcode = 0x04 then [] else q.chunks
        state := if w.opcode = 0x04 then .ended else .swapped }
      let s := ((s.giveBackAll q.model (w.frames.map (·.2))).endEntitlement h).leaveQueue h
      w.stop.foldl (fun (s : State) e => (s.endSeq h 0x03).finishReq q e 0x08 0x00) s

/-- A record agrees with the package's own record of the sequence and its tag verifies (R192, R193). -/
def State.recordOk (s : State) (q : Seq) (page : Nat) (rec' : Bytes) : Bool :=
  let size := s.frameSize q.model
  let counter := q.counter0 + BitVec.ofNat 64 page
  let head := rec'.take 64
  let key := s.swapKeyBytes q.handle.fn
  decide (rec'.length = size + 128) && decide (head = swapHeader q page (s.ownMember q.model) counter size) &&
  decide (gcmTag key (s.swapIv counter) head ((rec'.drop 64).take size) = (rec'.drop (64 + size)).take 16)

/-- A page read back into its new frame (R192), summarised when it is full (R222). -/
def State.swapInPage (s : State) (q : Seq) (page f : Nat) (rec' : Bytes) : State :=
  let size := s.frameSize q.model
  let key := s.swapKeyBytes q.handle.fn
  let data := gcmCrypt key (s.swapIv (q.counter0 + BitVec.ofNat 64 page)) ((rec'.drop 64).take size)
  let s := (s.putFrame q.model f 0 data).modSeq q.handle fun q => q.modPage page fun e => clrBit (clrBit (setFld e 0 24 f) 25) 24
  { s with swapStat := bump s.swapStat 16 24 1 }

/-- Summaries of the full pages just read back (R192, R222). -/
def State.summariseBack (s : State) (q : Seq) (pages : List Nat) : State :=
  if (s.lens? q.model).isSome then
    (pages.filter fun j => decide (256 * (j + 1) ≤ q.written)).foldl (fun s j =>
      match (s.seq? q.handle).bind fun q => q.page? j with
      | some e => (s.summarisePage q.model j (peFrame e)).modSeq q.handle fun q => q.modPage j fun e => setBit e 27
      | none => s) s
  else s

/-- A read-back is complete on every package (R192, R194): RUNNING for a RESUME; for an EXTEND INGESTING, its new-token count at 0
(R23). -/
def State.backDone (s : State) (h : Key) (w : Swap) : State :=
  match s.seq? h with
  | none => s
  | some q =>
    let ext := decide (w.opcode = 0x04)
    let s := s.summariseBack q (w.frames.map (·.1))
    let s := s.modSeq h fun q => { q with
      swap := none, gen := if h.isOwn then some { sub := w.sub, opcode := w.opcode } else none
      state := if ext then .ingesting else .running
      endStatus := if ext then 0 else q.endStatus, genToks := if ext then [] else q.genToks }
    s.leaveQueue h

/-- SWAP_RECORD_READ (R192 to R195, R355): the record of the next page of the active read-back arrived. -/
def execSwapRecordRead (handle : Key) (readOk : Bool) (record : Bytes) (s : State) : Host.Outcome State Fault Refusal :=
  match s.seq? handle with
  | none => done s s
  | some q =>
    if s.activeSwap false ≠ some handle then done s s
    else match q.swap, q.swap.bind fun w => w.frames.find? fun y => decide (y.1 = w.next) with
      | some w, some (page, f) =>
        if !readOk then
          let s1 := s.logHostRead handle.fn q.model.val
          done s (if handle.isOwn then s1.failBack handle 0x2F else s1.partOver handle (some 0x2F))
        else if !s.recordOk q page record then
          let s1 := { s with swapStat := bump s.swapStat 0 16 1 }
          done s (if handle.isOwn then s1.failBack handle 0x1A else s1.partOver handle (some 0x1A))
        else
          let left := (w.frames.map (·.1)).filter fun j => decide (page < j)
          let w1 := { w with next := left.headD (page + 1) }
          let s1 := (s.swapInPage q page f record).modSeq handle fun q => { q with swap := some w1 }
          if !w.stop.isEmpty then done s (s1.stopSwap handle 0x03)
          else if left.isEmpty then done s (if s.alone q.model then s1.backDone handle w1 else s1.partOver handle none)
          else done s s1
      | _, _ => done s s

end Sys2Proof.Machine
end

