-- ==== Sys2Proof/Machine/Cut.lean ====
section
/-!
DEFINITION. Sys2Proof/Machine/Cut.lean: which of several endings a request gets (R409), speculative pages that leave, and a
cohort that is cut at once (R13, R247, R280, R289, R328).
-/
namespace Sys2Proof.Machine

/-- The order of R409; a lower number comes first. -/
def statusRank (st : BitVec 8) : Nat :=
  (([0x1B, 0x16, 0x15, 0x14, 0x13, 0x12, 0x11, 0x10, 0x2F, 0x17, 0x04, 0x03, 0x01, 0x02] : List (BitVec 8)).findIdx? fun x => decide (x = st)).getD 99

/-- The ending a request gets among several causes (R409); the first of equals. -/
def firstCause (l : List (BitVec 8 × BitVec 64)) : Option (BitVec 8 × BitVec 64) :=
  (sortBy (fun (a b : BitVec 8 × BitVec 64) => decide (statusRank a.1 < statusRank b.1)) l).head?

/-- The ending is a fault: no token of the step is emitted for it (R409). -/
def isFaultStatus (st : BitVec 8) : Bool := (decide (0x10 ≤ st.toNat) && decide (st.toNat ≤ 0x16)) || decide (st = 0x1B)

/-- Pages still marked SPECULATIVE leave the list, and their frames return at the next boundary (R247); a list that cannot be read stays
as it is (R163). -/
def State.dropSpec (s : State) (h : Key) : State :=
  match s.seq? h with
  | some q =>
    if q.listBad then s
    else
      let fs := (q.pages.filter fun e => peSpec e && !peSwapped e).map peFrame
      (s.modSeq h fun q => { q with pages := q.pages.filter fun e => !peSpec e }).release q.model fs
  | none => s

/-- What the abandoned step appended to a sequence is rolled back (R247, R280): its speculative pages go, and prompt
positions not written are committed no longer. -/
def State.rollBack (s : State) (h : Key) : State :=
  (s.dropSpec h).modSeq h fun q => { q with
    tokens := if q.state = .ingesting then q.tokens.take q.written else q.tokens, pass := none, tree := [] }

/-- The ending of a request whose last record is written with LAST set, which nothing changes any more (R42; log entry 51). -/
def Seq.decided (q : Seq) : Option (BitVec 8 × BitVec 64) := if q.lastOut then q.stopped.map fun st => (st, 0) else none

/-- The ending that a fault gives a request, unless an earlier cause outranks it or the ending is decided (R42, R409). -/
def Seq.faulted (q : Seq) (status : BitVec 8) (detail : BitVec 64) : BitVec 8 × BitVec 64 :=
  q.decided.getD ((firstCause ((status, detail) :: q.causes)).getD (status, detail))

/-- A cohort is cut at once (R280, R289): its positions are rolled back, its requests end with a status unless an earlier
cause outranks it (R409), and its descriptors are abandoned. A sequence homed elsewhere is ended by its home package. -/
def State.dropCohort (s : State) (m : SlotIx) (c : CohIx) (status : BitVec 8) (detail : BitVec 64) : State :=
  match s.cohort? m c with
  | none => s
  | some k =>
    let hs := (rowHandles k 0xFFFFFFFF).filter fun h => (s.seq? h).isSome
    let s := (s.cutPass m c).modCohort m c fun k => { k with stall := none }
    hs.foldl (fun s h => match s.seq? h with
      | some q =>
        let e := q.faulted status detail
        if q.state = .ending ∨ q.state = .ended then s
        else if h.isOwn then (s.rollBack h).endSeq h e.1 e.2
        else s.rollBack h
      | none => s) s

/-- Cohorts cut by one occurrence of an error, each with the DETAIL its requests get: one entry of the error log, for the
first request that ends (R280, R289, R414). -/
def State.cutCohorts (s : State) (ks : List (SlotIx × CohIx × BitVec 64)) (status : BitVec 8)
    (cls unit scope index layer : Nat) : State :=
  let hit := ks.flatMap fun x => match s.cohort? x.1 x.2.1 with
    | some k => ((rowHandles k 0xFFFFFFFF).filter fun h => (s.seq? h).isSome).map fun h => (x.1, h)
    | none => []
  let s := match hit with
    | [] => s
    | x :: _ => s.logError cls unit scope x.2.fn.val index x.1.val layer
  ks.foldl (fun s x => s.dropCohort x.1 x.2.1 status x.2.2) s

/-- One cohort cut at once (R280, R289, R414). -/
def State.cutCohort (s : State) (m : SlotIx) (c : CohIx) (status : BitVec 8) (detail : BitVec 64) (cls unit scope index layer : Nat) :
    State :=
  s.cutCohorts [(m, c, detail)] status cls unit scope index layer

/-! ## Messages that are lost (R13, R328) -/

/-- The index of this package among a slice's members. -/
def State.ownIndex (s : State) (x : Slice) : Nat := x.members.findIdx fun a => decide (a = s.address)

/-- The cohorts of a slice's models, with the DETAIL of FAULT_LINK for the member that reported the loss (R280, R328). -/
def State.sliceCohorts (s : State) (id : BitVec 16) (fromMember : Nat) : List (SlotIx × CohIx × BitVec 64) :=
  (s.cohorts.filter fun k => (s.load? k.model).any fun l => decide (l.sliceId = id)).map fun k =>
    (k.model, k.index, BitVec.ofNat 64 (fromMember * 2 ^ 24))

/-- Every cohort of a slice's models whose step is in progress is cut with FAULT_LINK (R280, R328). -/
def State.cutSlice (s : State) (id : BitVec 16) (fromMember port : Nat) : State :=
  s.cutCohorts (s.sliceCohorts id fromMember) 0x15 0x0C 5 2 port 0

/-- The cohort leader of a slice is another package, and can be reached (R328). -/
def State.leaderAway (s : State) (x : Slice) : Option (BitVec 16) :=
  match x.members.head? with
  | some a => if a = s.address then none else if (s.nextHop a x.members).isSome then some a else none
  | none => none

/-- What slices get for messages lost together (R328): a CUT packet to each leader that can be reached, and the cut itself here
where this package leads or no leader can be reached. -/
def State.cutFor (s : State) (xs : List Slice) (port : Nat) : State :=
  let s1 := xs.foldl (fun (s : State) x => match s.leaderAway x with
    | some a => s.control x.id x.members x.fn.val 6 a []
    | none => s) s
  s1.cutCohorts ((xs.filter fun x => (s.leaderAway x).isNone).flatMap fun x => s.sliceCohorts x.id (s.ownIndex x)) 0x15 0x0C 5 2 port 0

/-- The CUT due for messages that found no route (R13, R328); no port stands for them in the log. -/
def State.cutLost (s : State) : State :=
  ({ s with undelivered := [] }).cutFor (s.slices.filter fun x => s.undelivered.contains x.id) 0

/-! ## The Aperture window (R278 to R282) -/

/-- The section whose part of a layer's window slot is not yet there. -/
def State.lateSection (s : State) (m : SlotIx) (layer : Nat) : Nat :=
  match s.image? m with
  | some im => (im.sections.findIdx? fun x => decide (x.tier = 1) && decide (x.layer.toNat = layer)).getD 0xFFFF
  | none => 0xFFFF

/-- WINDOW_TIMEOUT (R280, R282): a stalled cohort's slot is still not filled, and the cohort is cut. -/
def execWindowTimeout (model : SlotIx) (cohort : CohIx) (s : State) : Host.Outcome State Fault Refusal :=
  match (s.cohort? model cohort).bind fun k => k.stall with
  | some (layer, began) =>
    let ms := (s.now.toNat - began.toNat) / 25000
    let s1 := s.modModel model fun x => { x with apertureStat := raiseTo (bump x.apertureStat 48 16 1) 32 16 ms }
    done s (s1.cutCohort model cohort 0x12 (s.faultDetail model layer (s.lateSection model layer)) 0x08 6 2 0 layer)
  | none => done s s

/-- WINDOW_FILL (R278 to R280): the Aperture filler has filled a free slot with the next layer, which releases the cohorts that
stalled on it. -/
def execWindowFill (model : SlotIx) (s : State) : Host.Outcome State Fault Refusal :=
  match s.load? model with
  | none => done s s
  | some l =>
    let ls := s.windowLayers model
    match ls[l.nextFill % max 1 ls.length]? with
    | none => done s s
    | some y =>
      if l.window.contains (some y) ∨ !l.window.contains none then done s s
      else
        let i := l.window.findIdx fun w => decide (w = none)
        let s1 := s.modLoad model fun l => { l with window := l.window.set i (some y), nextFill := (l.nextFill + 1) % max 1 ls.length }
        done s ((s1.endStalls model y).releaseWindow model [])

end Sys2Proof.Machine
end

