-- ==== Sys2Proof/Machine/FlashOps.lean ====
section
/-!
DEFINITION. Sys2Proof/Machine/FlashOps.lean: the flash tier: where units lie, space, reads and their failures, refresh, wear
and erasure (R258 to R267, R271, R274, R281).
-/
namespace Sys2Proof.Machine

/-! ## Blocks and space (R258, R259, R267) -/

/-- Blocks of a target: 256 GiB of 16 MiB each (log entry 40). -/
def targetBlocks : Nat := 16384
/-- Blocks of a target within the reported capacity: 3 % are kept outside it (R259). -/
def reportedBlocks : Nat := 15892
/-- Units of a block: one per page (R258, R261). -/
def blockUnits : Nat := 1024

/-- The blocks of a flash tier replaced by g of them. -/
def State.modFlash (s : State) (g : Flash → Flash) : State := { s with flash := g s.flash }

/-- The listed block of an identifier replaced by g of it. -/
def Flash.modBlock (f : Flash) (id : Nat) (g : Block → Block) : Flash :=
  { f with blocks := updFirst (fun b => decide (b.id = id)) g f.blocks }

/-- The listed block of an identifier. -/
def Flash.block? (f : Flash) (id : Nat) : Option Block := f.blocks.find? fun b => decide (b.id = id)

/-- A block that holds data or is still to be erased. -/
def Block.held (b : Block) : Bool := !b.erased && !b.bad

/-- CAPACITY of FLASH_SPACE in MiB (R267). -/
def Flash.capacity (f : Flash) : Nat := (f.targets.toList.map (·.toNat)).sum * reportedBlocks * 16

/-- FREE of FLASH_SPACE in MiB (R267). -/
def Flash.freeMiB (f : Flash) : Nat := f.capacity - 16 * (f.blocks.filter Block.held).length

/-- A fresh block of a target: the erased block with the lowest erase count (R265), ties to the lowest number. -/
def Flash.freshBlock (f : Flash) (target : Nat) : Option Nat :=
  let mine := f.blocks.filter fun b => decide (b.target = target)
  match (List.range (mine.length + 1)).find? fun i => !mine.any fun b => decide (b.id = target * targetBlocks + i) with
  | some i =>
    if i < targetBlocks then some (target * targetBlocks + i)
    else (sortBy (fun (a b : Block) => decide (a.erase < b.erase)) (mine.filter fun b => b.erased && !b.bad)).head?.map (·.id)
  | none => none

/-- The listed block of an identifier, or an erased one never used. -/
def Flash.blockOr (f : Flash) (id : Nat) : Block :=
  (f.block? id).getD { id := id, target := id / targetBlocks, erase := 0, reads := 0, bad := false, erased := true, erasing := none, units := [] }

/-- The flash tier with a block written in. -/
def Flash.putBlock (f : Flash) (b : Block) : Flash :=
  if (f.block? b.id).isSome then f.modBlock b.id fun _ => b else { f with blocks := f.blocks ++ [b] }

/-! ## Writing a section (R261, R262, R265) -/

/-- One unit programmed on a target: into the slot's open block there, or a fresh one. -/
def Flash.putUnit (f : Flash) (target : Nat) (u : FlashUnit) : Flash :=
  match f.blocks.find? fun b => decide (b.target = target) && b.held && b.erasing.isNone && decide (b.units.length < blockUnits) &&
      (b.units.head?.any fun x => decide (x.model = u.model)) with
  | some b => f.modBlock b.id fun b => { b with units := b.units ++ [u] }
  | none => match f.freshBlock target with
    | some id => f.putBlock { f.blockOr id with erased := false, reads := 0, units := [u] }
    | none => f

/-- A unit written on its channel, whose targets take the section's units in turn (R261); a channel without a usable target
takes none (R260). -/
def Flash.writeUnit (f : Flash) (base : Nat) (u : FlashUnit) : Flash :=
  let ch : Fin 32 := Fin.ofNat 32 (base + u.idx + (if u.mirror then 16 else 0))
  let n := f.targets[ch].toNat
  if n = 0 ∨ f.chan[ch] = 0 ∨ f.chan[ch] = 3 then f else f.putUnit (8 * ch.val + u.idx / 32 % n) u

/-- A section written with its mirror (R261, R262); the next section's base channel follows. -/
def Flash.writeSection (f : Flash) (m : SlotIx) (i : Nat) (x : Section) : Flash :=
  let n := cdiv x.length.toNat unitBytes
  let us (mir : Bool) : List FlashUnit := (List.range n).map fun u => { model := m, sec := i, idx := u, mirror := mir }
  let f' := (us false ++ if x.mirror then us true else []).foldl (fun (f : Flash) u => f.writeUnit f.baseChan u) f
  { f' with baseChan := (f.baseChan + 1) % 32 }

/-- MiB that the sections of a part need, mirrors counted (R270). -/
def imageMiB (im : Image) (mine : Section → Bool) : Nat :=
  cdiv (((im.sections.filter mine).map fun x => x.length.toNat * (if x.mirror then 2 else 1)).sum) (2 ^ 20)

/-! ## Erasing a slot (R271, R274) -/

/-- A slot whose last block is erased becomes EMPTY, with DEGRADED clear (R269, R274). -/
def State.emptySlot (s : State) (m : SlotIx) : State :=
  if s.models[m].state = .erasing ∧ !(s.flash.blocks.any fun b => decide (b.erasing = some m)) then
    s.modModel m fun x => { x with state := .empty, degraded := false, image := none, part := 0, quarantine := [], lostUnits := [] }
  else s

/-- No tile counts the slot's model as the last it ran: what comes into the slot next is another model (R135). -/
def State.forgetModel (s : State) (m : SlotIx) : State :=
  { s with tiles := s.tiles.map fun x =>
      if x.vec.ctx.model = some m then { x with vec := { x.vec with ctx := { x.vec.ctx with model := none } } } else x }

/-- The slot's key is destroyed, its catalogue entry removed and its blocks are left to be erased (R271, R274). -/
def State.eraseSlot (s : State) (m : SlotIx) : State :=
  let seq := s.models[m].catalogued
  let s := s.modModel m fun x => { x with state := .erasing, claim := none, flashKey := none, catalogued := false }
  let s := s.modFlash fun f => { f with
    catalogueSeq := if seq then f.catalogueSeq + 1 else f.catalogueSeq
    refreshQueue := f.refreshQueue.filter fun id => !(f.block? id).any fun b => b.units.any fun u => decide (u.model = m)
    blocks := f.blocks.map fun b => if b.held && b.units.any (fun u => decide (u.model = m)) then { b with erasing := some m } else b }
  (s.forgetModel m).emptySlot m

/-- A block erased (R264): its count rises and its units are gone. -/
def Block.erasedNow (b : Block) : Block := { b with erase := b.erase + 1, reads := 0, erased := true, erasing := none, units := [] }

/-- BLOCK_ERASE (R264, R274): a block of an erasing slot is erased, or marked bad when the erase fails. -/
def execBlockErase (block : Nat) (ok : Bool) (s : State) : Host.Outcome State Fault Refusal :=
  match s.flash.block? block with
  | some b => match b.erasing with
    | some m =>
      let g (b : Block) : Block := if ok then b.erasedNow else { b with bad := true, erasing := none, units := [] }
      done s ((s.modFlash fun f => f.modBlock block g).emptySlot m)
    | none => done s s
  | none => done s s

/-! ## Reads (R262 to R264, R267, R281) -/

/-- The block that holds a unit. -/
def Flash.unitBlock (f : Flash) (m : SlotIx) (sec unit : Nat) (mirror : Bool) : Option Nat :=
  (f.blocks.find? fun b => b.held && b.units.any fun u =>
    decide (u.model = m) && decide (u.sec = sec) && decide (u.idx = unit) && (u.mirror == mirror)).map (·.id)

/-- A read of a unit counted against its block (R264). -/
def Flash.countRead (f : Flash) (m : SlotIx) (sec unit : Nat) (mirror : Bool) : Flash :=
  match f.unitBlock m sec unit mirror with
  | some id => f.modBlock id fun b => { b with reads := b.reads + 1 }
  | none => f

/-- The block of a unit scheduled for refresh (R262, R264). -/
def Flash.scheduleRefresh (f : Flash) (m : SlotIx) (sec unit : Nat) : Flash :=
  match f.unitBlock m sec unit false with
  | some id => if f.refreshQueue.contains id then f else { f with refreshQueue := f.refreshQueue ++ [id] }
  | none => f

/-- The layer a section is for. -/
def State.secLayer (s : State) (m : SlotIx) (sec : Nat) : Nat := match s.section? m sec with | some x => x.layer.toNat | none => 0

/-- The section is mirrored. -/
def State.mirrored (s : State) (m : SlotIx) (sec : Nat) : Bool := match s.section? m sec with | some x => x.mirror | none => false

/-- A unit without a good copy is quarantined (R281 step 3). -/
def State.quarantineUnit (s : State) (m : SlotIx) (sec unit : Nat) : State :=
  if s.unitBad m sec unit then s
  else (s.modModel m fun x => { x with quarantine := x.quarantine ++ [(sec, unit)] }).event 0 0x04 4
    [(0, 16, m.val), (32, 16, sec), (64, 8, s.secLayer m sec)]

/-- FLASH_UNIT_READ (R262, R263, R267, R281): the read of a unit is complete; a unit that fails both decodes is read from its
mirror, or quarantined. -/
def execFlashUnitRead (model : SlotIx) (sec unit : Nat) (fast slow : Bool) (mirrorOk : Bool) (s : State) :
    Host.Outcome State Fault Refusal :=
  let s1 := s.modFlash fun f => f.countRead model sec unit false
  if fast then done s s1
  else if slow then done s (s1.modFlash fun f => f.scheduleRefresh model sec unit)
  else
    let s1 := s1.modFlash fun f => { f with readStat := bump f.readStat 48 16 1 }
    if s.mirrored model sec then
      let s1 := s1.modFlash fun f => f.countRead model sec unit true
      if mirrorOk then
        done s (s1.modFlash fun f => { (f.scheduleRefresh model sec unit) with readStat := bump f.readStat 32 16 1 })
      else done s (s1.quarantineUnit model sec unit)
    else done s (s1.quarantineUnit model sec unit)

/-- The units of a model's section or unit moved to another block of the slot. -/
def Flash.moveUnit (f : Flash) (u : FlashUnit) : Flash :=
  match f.unitBlock u.model u.sec u.idx u.mirror with
  | some id =>
    let f' := f.modBlock id fun b => { b with units := b.units.filter fun x => !decide (x = u) }
    match f'.freshBlock (id / targetBlocks) with
    | some n => f'.putBlock { f'.blockOr n with erased := false, reads := 0, units := [u] }
    | none => f
  | none => f

/-- A unit is lost for good (R281 step 5). -/
def State.loseUnit (s : State) (m : SlotIx) (sec unit : Nat) : State :=
  let first := !s.models[m].lostUnits.any fun x => decide (x.1 = sec)
  let s := s.modModel m fun x => { x with
    degraded := true, quarantine := x.quarantine.filter (fun y => !decide (y = (sec, unit))), lostUnits := x.lostUnits ++ [(sec, unit)] }
  if first then s.event 0 0x05 4 [(0, 16, m.val), (32, 16, sec)] else s

/-- READ_RETRY (R263, R281 steps 4 and 5): a quarantined unit decodes at some read level and is rewritten to a new block, or
every level fails and the section is lost. -/
def execReadRetry (model : SlotIx) (sec unit : Nat) (ok : Bool) (s : State) : Host.Outcome State Fault Refusal :=
  if !s.models[model].quarantine.contains (sec, unit) then done s s
  else
    let s1 := s.modFlash fun f => { f with readStat := bump f.readStat 16 16 1 }
    if ok then
      let s1 := s1.modFlash fun f => f.moveUnit { model := model, sec := sec, idx := unit, mirror := false }
      done s (s1.modModel model fun x => { x with quarantine := x.quarantine.filter fun y => !decide (y = (sec, unit)) })
    else done s (s1.loseUnit model sec unit)

/-! ## Refresh, wear, failed programs (R264 to R266) -/

/-- READ_DISTURB_SCAN (R264): a scanned block is refreshed when its worst codeword passes the threshold; otherwise its count
restarts at zero. -/
def execReadDisturbScan (block : Nat) (worst : Nat) (threshold : Nat) (s : State) : Host.Outcome State Fault Refusal :=
  match s.flash.block? block with
  | some b =>
    if !b.held then done s s
    else if threshold < worst then
      done s (s.modFlash fun f => if f.refreshQueue.contains block then f else { f with refreshQueue := f.refreshQueue ++ [block] })
    else done s (s.modFlash fun f => f.modBlock block fun b => { b with reads := 0 })
  | none => done s s

/-- The data of one block copied to an erased block of the same target; the first is erased. -/
def Flash.moveBlock (f : Flash) (src dst : Nat) : Flash :=
  match f.block? src with
  | some b => (f.putBlock { f.blockOr dst with erased := false, reads := 0, units := b.units }).modBlock src Block.erasedNow
  | none => f

/-- The block can take data: it is erased, good and on the target of the block it takes over from. -/
def Flash.canTake (f : Flash) (src dst : Nat) : Bool :=
  let d := f.blockOr dst
  d.erased && !d.bad && decide (src ≠ dst) && (f.block? src).any fun b => b.held && b.erasing.isNone && decide (b.target = d.target)

/-- BLOCK_REFRESH (R264): a scheduled block's data is copied to an erased block and the block erased; a destination that fails
to program is marked bad. -/
def execBlockRefresh (block target : Nat) (ok : Bool) (s : State) : Host.Outcome State Fault Refusal :=
  if !s.flash.refreshQueue.contains block || !s.flash.canTake block target then done s s
  else if ok then
    done s (s.modFlash fun f =>
      let f := f.moveBlock block target
      { f with refreshQueue := f.refreshQueue.filter fun x => !decide (x = block)
               readStat := bump f.readStat 0 16 1 })
  else done s (s.modFlash fun f => f.putBlock { f.blockOr target with bad := true, erased := false })

/-- Erase counts of a target's good blocks, blocks never used counted as 0. -/
def Flash.eraseCounts (f : Flash) (target : Nat) : List Nat :=
  let mine := f.blocks.filter fun b => decide (b.target = target)
  (if mine.length < targetBlocks then [0] else []) ++ (mine.filter fun b => !b.bad).map (·.erase)

/-- STATIC_WEAR_MOVE (R265): with erase counts in the target that differ by more than 256, the data of its least erased valid
block moves to its most erased free block. -/
def execStaticWearMove (target : Nat) (src dst : Nat) (s : State) : Host.Outcome State Fault Refusal :=
  let f := s.flash
  let cs := f.eraseCounts target
  let wide := decide (256 < cs.foldl max 0 - cs.foldl min (cs.headD 0))
  let valid := f.blocks.filter fun b => decide (b.target = target) && b.held && b.erasing.isNone
  let free := f.blocks.filter fun b => decide (b.target = target) && b.erased && !b.bad
  match f.block? src with
  | some b =>
    let d := f.blockOr dst
    if wide && decide (b.target = target) && f.canTake src dst && (valid.all fun x => decide (b.erase ≤ x.erase)) &&
        (free.all fun x => decide (x.erase ≤ d.erase)) then
      done s (s.modFlash fun f => f.moveBlock src dst)
    else done s s
  | none => done s s

/-- PROGRAM_PAGE_DONE (R264, R266): a page program is acknowledged with its journal entry, or its block is marked bad and the
block's data moves to a spare block. -/
def execProgramPageDone (block : Nat) (ok : Bool) (spare : Nat) (s : State) : Host.Outcome State Fault Refusal :=
  if ok then done s (s.modFlash fun f => { f with journal := f.journal + 1 })
  else if s.flash.canTake block spare then
    done s (s.modFlash fun f => (f.moveBlock block spare).modBlock block fun b => { b with bad := true, erased := false })
  else done s s

end Sys2Proof.Machine
end

