-- ==== Sys2Proof/Machine/Prism.lean ====
section
/-!
DEFINITION. Sys2Proof/Machine/Prism.lean: the attention pipeline (chapter 9): sets, packs, the plan, scores, weights,
totals, merges and outputs.
-/
namespace Sys2Proof.Machine

/-! ## The descriptor (R196) -/

/-- The fields of a PRISM descriptor (R196). -/
structure PrismOp where
  op : Nat
  layer : Nat
  qAddr : Nat
  qForm : Nat
  qTile : TileIx
  qStride : Nat
  qOff : Nat
  hpg : Nat
  gFirst : Nat
  gCount : Nat
  outAddr : Nat
  outForm : Nat
  outStride : Nat
  outTiles : Nat
  window : Nat
  rot : Nat
  rotEn : Bool
  scale : BitVec 32
  statAddr : Nat
  statTile : TileIx
  statEn : Bool
  importAddr : Nat
  importCount : Nat
deriving DecidableEq, Repr, Inhabited

/-- Reads a PRISM descriptor (R196). -/
def prismOf (d : BitVec 512) : PrismOp :=
  { op := dOp d, layer := (dLayer d).toNat, qAddr := dField d 0x10 0 28, qForm := dField d 0x10 28 2,
    qTile := Fin.ofNat 4 (dField d 0x10 30 2), qStride := dField d 0x14 0 24, qOff := dField d 0x18 0 16,
    hpg := max 1 (dField d 0x18 16 8), gFirst := dField d 0x1C 0 8, gCount := dField d 0x1C 8 8,
    outAddr := dField d 0x20 0 28, outForm := dField d 0x20 28 2, outStride := dField d 0x24 0 24,
    outTiles := dField d 0x24 24 4, window := dField d 0x28 0 24, rot := dField d 0x28 24 4,
    rotEn := decide (dField d 0x28 28 1 = 1), scale := d.extractLsb' (8 * 0x2C) 32, statAddr := dField d 0x30 0 28,
    statTile := Fin.ofNat 4 (dField d 0x30 28 2), statEn := decide (dField d 0x30 30 1 = 1),
    importAddr := dField d 0x34 0 28, importCount := dField d 0x34 28 4 }

/-- Index n of a Prism row (R210). -/
def PrismOp.rowIndex (p : PrismOp) (r i h : Nat) : Nat := (r * p.gCount + i) * p.hpg + h

/-- Element of query head h of group i within its row (R196). -/
def PrismOp.elem (p : PrismOp) (d i h : Nat) : Nat := p.qOff + (i * p.hpg + h) * d

/-! ## Rows, packs and what they see (R199, R204, R242) -/

/-- Depth of a row below the root of its draft tree (R242). -/
def rowDepth (k : Cohort) : Nat → Fin 32 → Nat
  | 0, _ => 0
  | n + 1, r => if k.rows[r].kind = 3 then rowDepth k n (Fin.ofNat 32 k.rows[r].parent.toNat) + 1 else 0

/-- The root of a row's draft tree. -/
def rowRoot (k : Cohort) : Nat → Fin 32 → Fin 32
  | 0, r => r
  | n + 1, r => if k.rows[r].kind = 3 then rowRoot k n (Fin.ofNat 32 k.rows[r].parent.toNat) else r

/-- Draft slots of a row and of its ancestors below the root. -/
def rowSlots (k : Cohort) : Nat → Fin 32 → List Nat
  | 0, _ => []
  | n + 1, r =>
    if k.rows[r].kind = 3 then k.rows[r].position.toNat :: rowSlots k n (Fin.ofNat 32 k.rows[r].parent.toNat) else []

/-- Node position of a row (R242): its own position unless it is a draft node. -/
def nodePos (k : Cohort) (r : Fin 32) : Nat :=
  let root := rowRoot k 32 r
  if k.rows[r].kind = 3 then k.rows[root].position.toNat + rowDepth k 32 r else k.rows[r].position.toNat

/-- Rows of a sequence in a mask, ascending. -/
def seqRows (k : Cohort) (mask : BitVec 32) (h : Key) : List (Fin 32) :=
  (maskRows mask).filter fun r => decide (k.rows[r].handle = h) && decide (k.rows[r].kind ≠ 0)

/-- The position a key at position pk rests for (R242): a draft slot's node position, else itself. -/
def keyPos (k : Cohort) (h : Key) (pk : Nat) : Nat :=
  match (seqRows k k.mask h).find? fun r => decide (k.rows[r].kind = 3) && decide (k.rows[r].position.toNat = pk) with
  | some r => nodePos k r
  | none => pk

/-- Row r sees the key at position pk (R204 rules 1, 2 and 4). -/
def rowSees (k : Cohort) (window : Nat) (r : Fin 32) (pk : Nat) : Bool :=
  let pq := k.rows[r].position.toNat
  decide (pk ≤ pq) && (window = 0 || decide (pq < pk + window)) &&
    (if k.rows[r].kind = 3 then decide (pk ≤ k.rows[rowRoot k 32 r].position.toNat) || (rowSlots k 32 r).contains pk else true)

/-- A pack (R199). -/
structure Pack where
  handle : Key
  group : Nat
  rows : List (Fin 32)
deriving DecidableEq, Repr, Inhabited

/-- A list cut into runs of n. -/
def chunksOf {α : Type} (n : Nat) : Nat → List α → List (List α)
  | 0, _ => []
  | _ + 1, [] => []
  | f + 1, x :: l => (x :: l).take n :: chunksOf n f ((x :: l).drop n)

/-- The packs of a set (R199): sweeps of ⌊128 / HPG⌋ cohort rows where a sequence has more than 128 Prism rows. -/
def packsOf (k : Cohort) (mask : BitVec 32) (p : PrismOp) : List Pack :=
  (rowHandles k mask).flatMap fun h =>
    let rows := seqRows k mask h
    (List.range p.gCount).flatMap fun i =>
      let sweeps := if 128 < rows.length * p.hpg then chunksOf (max 1 (128 / p.hpg)) 33 rows else [rows]
      (sweeps.filter fun l => !l.isEmpty).map fun l => { handle := h, group := i, rows := l }

/-! ## Query entry (R196, R201 stage 2) -/

/-- Elements of a stored row at an element offset, by form (R196): Ploryn blocks are decoded with their counters. -/
def State.readRow (s : State) (b : BlockCtx) (at0 form off n : Nat) (seen : Bool) : List Num × Bool × State :=
  match form with
  | 1 => (List.range (n / 64)).foldl (fun (a : List Num × Bool × State) i =>
      let ad := at0 + 56 * (off / 64 + i)
      let r := a.2.2.decodeBlock b ad (a.2.2.scrGet b.tile ad 56) a.2.1
      (a.1 ++ r.1.map bf16, r.2)) ([], seen, s)
  | 2 => ((List.range n).map fun i => fp32 (BitVec.ofNat 32 (leNat (s.scrGet b.tile (at0 + 4 * (off + i)) 4))), seen, s)
  | _ => ((List.range n).map fun i => bf16 (BitVec.ofNat 16 (leNat (s.scrGet b.tile (at0 + 2 * (off + i)) 2))), seen, s)

/-- A rotated query: its cohort row and head, and whether its rotation overflowed (R53, R203). -/
structure Query where
  row : Fin 32
  head : Nat
  q : List Num
  overflow : Bool
deriving DecidableEq, Repr, Inhabited

/-- The rotated queries of a pack (R201 stage 2). A malformed query block counts on Q_TILE: the spec does not say whether the tile
that consumes it is Q_TILE or the Prism that reads the row (R123; DESIGN CHOICE, log entry 121). TILE_PLORYN_DEC counts its
well-formed blocks for no Prism (R131). -/
def State.packQueries (s : State) (k : Cohort) (p : PrismOp) (d : Nat) (x : Pack) (seen : Bool) : List Query × Bool × State :=
  x.rows.foldl (fun (a : List Query × Bool × State) r =>
    (List.range p.hpg).foldl (fun (a : List Query × Bool × State) h =>
      let b : BlockCtx := { tile := p.qTile, model := some k.model, layer := p.layer, row := r.val, source := 0, counted := false,
                            owner := s.ownerOf k.model }
      let v := a.2.2.readRow b (s.spBase k.model p.qTile + p.qAddr + r.val * p.qStride) p.qForm (p.elem d x.group h) d a.2.1
      let y := rotateFl (s.rotOf k.model p.rotEn p.rot) (nodePos k r) v.1
      (a.1 ++ [{ row := r, head := h, q := y.1, overflow := y.2 }], v.2)) a) ([], seen, s)

/-! ## Pages of a pack (R164, R200, R232, R233) -/

/-- A page that a pack reads. -/
structure PageRef where
  page : Nat
  /-- the frame, or none for a Relay block. -/
  frame : Option Nat
  /-- tile that holds it: the frame's, or the tile its Relay block arrives on. -/
  tile : TileIx
  /-- tile that reads it. -/
  at' : TileIx
deriving DecidableEq, Repr, Inhabited

/-- Header fields of a Relay block (R232; log entry 32): handle, page, layer. -/
def relayIs (h : BitVec 512) (handle : BitVec 32) (page layer : Nat) : Bool :=
  decide (fld h 0 32 = handle.toNat) && decide (fld h 32 32 = page) && decide (fld h 64 8 = layer)

/-- The Relay block of a page and layer on a tile. -/
def State.relayBlock? (s : State) (t : TileIx) (handle : BitVec 32) (page layer : Nat) : Option Bytes :=
  (s.tiles[t].relay.find? fun b => relayIs b.1 handle page layer).map (·.2)

/-- The tile a page's Relay block arrives on. -/
def State.relayTile (s : State) (handle : BitVec 32) (page layer : Nat) : Option TileIx :=
  (List.finRange 4).find? fun t => (s.relayBlock? t handle page layer).isSome

/-- Highest page a sequence writes in the step. -/
def topPage (k : Cohort) (h : Key) : Nat :=
  ((seqRows k k.mask h).map fun r => k.rows[r].position.toNat / 256).foldl max 0

/-- The pages of one pack, ascending, with the selections of its rows (R200, R225). -/
def State.packPages (s : State) (k : Cohort) (p : PrismOp) (x : Pack) (qs : List Query) :
    List PageRef × List Selection :=
  match s.seq? x.handle with
  | none => ([], [])
  | some q =>
    let sels : List Selection :=
      if q.full || (s.lens? q.model).isNone then []
      else x.rows.map fun r =>
        s.lensSelect q p.layer (p.gFirst + x.group) p.window ((qs.filter fun y => decide (y.row = r)).map (·.q))
          k.rows[r].position.toNat
    let all := List.range (min (topPage k x.handle + 1) q.pageCount)
    let want := if sels.isEmpty then all else all.filter fun j => sels.any fun y => y.pages.contains j
    (want.filterMap fun j => match q.page? j with
      | some e => some { page := j, frame := some (peFrame e), tile := frameTile (peFrame e), at' := frameTile (peFrame e) }
      | none => (s.relayTile x.handle.handle j p.layer).map fun t => { page := j, frame := none, tile := t, at' := t },
     sels)

/-! ## The plan (R215, R216) -/

/-- A pack in the plan: its pages that are being placed, whether it is whole, and the pages an earlier plan of the set has placed
(R226 step 3). -/
structure Planned where
  whole : Bool
  pages : List PageRef
  placed : List PageRef := []
deriving DecidableEq, Repr, Inhabited

/-- Cost of one page on the tile that reads it (R216). -/
def State.pageCost (s : State) (k : Cohort) (t : TileIx) (p : PageRef) : Nat :=
  let c := match s.load? k.model with
    | some l => sget (0, 0) l.costs (4 * k.index.val + t.val)
    | none => (0, 0)
  if p.tile = t then c.1 else c.2

/-- Load of a tile under a plan. -/
def State.planLoad (s : State) (k : Cohort) (ps : List Planned) (t : TileIx) : Nat :=
  (ps.map fun x => (((x.placed ++ x.pages).filter fun y => decide (y.at' = t)).map (s.pageCost k t)).foldl (· + ·) 0).foldl (· + ·) 0

/-- The tile for which a measure is best, ties to the lowest tile. -/
def bestTile (better : Nat → Nat → Bool) (f : TileIx → Nat) : TileIx :=
  [1, 2, 3].foldl (fun (a t : TileIx) => if better (f t) (f a) then t else a) 0

/-- The tile holding most of a list of pages. -/
def mostPages (l : List PageRef) (f : PageRef → TileIx) : TileIx :=
  bestTile (fun a b => decide (b < a)) fun t => (l.filter fun y => decide (f y = t)).length

/-- A pack as the plan starts (R215 steps 1 and 3). -/
def planStart (l : List PageRef) : Planned :=
  if l.length < 16 then
    let t := mostPages l fun y => y.tile
    { whole := true, pages := l.map fun y => if y.frame.isNone then y else { y with at' := t } }
  else { whole := false, pages := l }

/-- The pages of a pack that only their ranks selected (R226): no row of the pack reads them for another reason. -/
def rankedPages (sels : List Selection) (l : List PageRef) : List PageRef :=
  l.filter fun y => !sels.isEmpty && !sels.any fun z => z.pages.contains y.page && !z.scored.contains y.page

/-- The pages of a pack that need no ranking (R226 step 4). -/
def plainPages (sels : List Selection) (l : List PageRef) : List PageRef :=
  let r := rankedPages sels l
  l.filter fun y => !r.contains y

/-- A pack's ranked pages after the first plan of the set (R226 step 3). -/
def planRanked (first : Planned) (ranked : List PageRef) : Planned := { whole := false, pages := ranked, placed := first.pages }

/-- Highest load of a plan. -/
def State.planTop (s : State) (k : Cohort) (ps : List Planned) : Nat :=
  ((List.finRange 4).map (s.planLoad k ps)).foldl max 0

/-- The plan with one page of a splittable pack moved from tile h to tile l (R215 step 4). -/
def movePage (ps : List Planned) (h l : TileIx) : List Planned :=
  let count (x : Planned) : Nat :=
    if x.whole then 0 else (x.pages.filter fun y => decide (y.at' = h) && y.frame.isSome).length
  let most := (ps.map count).foldl max 0
  if most = 0 then ps
  else
    let top (x : Planned) : Nat := ((x.pages.filter fun y => decide (y.at' = h) && y.frame.isSome).map (·.page)).foldl max 0
    updFirst (fun x => decide (count x = most)) (fun x =>
      { x with pages := x.pages.map fun y => if y.page = top x then { y with at' := l } else y }) ps

/-- The plan with the smallest whole pack on tile h that lowers the highest load moved to tile l (R215 step 4). -/
def State.moveWhole (s : State) (k : Cohort) (ps : List Planned) (h l : TileIx) : List Planned :=
  let moved (i : Nat) : List Planned := ps.modify i fun x =>
    { x with pages := x.pages.map fun y => if y.frame.isNone then y else { y with at' := l } }
  let cand := (List.range ps.length).filter fun i => match ps[i]? with
    | some x => x.whole && (x.pages.any fun y => decide (y.at' = h) && y.frame.isSome) &&
        decide (s.planTop k (moved i) < s.planTop k ps)
    | none => false
  let size (i : Nat) : Nat := match ps[i]? with | some x => x.pages.length | none => 0
  match sortBy (fun a b => decide (size a < size b)) cand with
  | i :: _ => moved i
  | [] => ps

/-- The balancing moves of a plan, at most 256 (R215 step 4). -/
def State.balance (s : State) (k : Cohort) : Nat → List Planned → List Planned
  | 0, ps => ps
  | n + 1, ps =>
    let h := bestTile (fun a b => decide (b < a)) (s.planLoad k ps)
    let l := bestTile (fun a b => decide (a < b)) (s.planLoad k ps)
    let one := movePage ps h l
    if s.planTop k one < s.planTop k ps then s.balance k n one
    else
      let two := s.moveWhole k ps h l
      if s.planTop k two < s.planTop k ps then s.balance k n two else ps

/-- The plan of a set (R201, R215, R226): the pages that need no ranking are placed first, then the ranked ones, with every
tile's load carried over. Each pack's pages in the order its Prisms read them. -/
def State.planSet (s : State) (k : Cohort) (ps : List (List Selection × List PageRef)) : List (List PageRef) :=
  let first := s.balance k 256 (ps.map fun x => planStart (plainPages x.1 x.2))
  let second := s.balance k 256 ((first.zip ps).map fun x => planRanked x.1 (rankedPages x.2.1 x.2.2))
  second.map fun x => x.placed ++ x.pages

/-! ## Scores (R205, R206) -/

/-- The bias of a position (R205), and whether a rounding overflowed. -/
def biasAt (l : List (BitVec 128)) (pk : Nat) : Num × Bool :=
  (l.filter fun e => decide (fld e 0 28 ≤ pk) && decide (pk ≤ fld e 32 28)).foldl
    (fun a e => let r := toFp32 (a.1.add (fp32 (e.extractLsb' 64 32))); (fp32 r.1, a.2 || r.2)) (.zero, false)

/-- Sixteen exact products as one group (R73, R206; log entry 13): sum, sum of magnitudes, exponent. -/
def groupOf (ps : List Num) : Int × Nat × Int :=
  let e := ps.foldl (fun a p => let q := p.parts; if q.2.1 = 0 then a else min a q.2.2) 4096
  ps.foldl (fun a p =>
    let q := p.parts
    if q.2.1 = 0 then a else
      let m := q.2.1 * 2 ^ (q.2.2 - e).toNat
      (a.1 + (if q.1 then -(m : Int) else m), a.2.1 + m, e)) (0, 0, e)

/-- A list of numbers cut into sixteens. -/
def sixteensOf : Nat → List Num → List (List Num)
  | 0, _ => []
  | n + 1, l => l.take 16 :: sixteensOf n (l.drop 16)

/-- The dot product of a rotated query and key, rounded once (R206), and whether it overflowed. -/
def dotScore (q key : List Num) : BitVec 32 × Bool :=
  let ps := (q.zip key).map fun p => p.1.mul p.2
  if ps.any fun p => !p.isFin then toFp32 ((ps.filter fun p => !p.isFin).foldl Num.add .zero)
  else
    let c := (sixteensOf (ps.length / 16) ps).foldl (fun c g => let x := groupOf g; chunkAdd c x.1 x.2.1 x.2.2) none
    toFp32 ((({} : Total).promote c).1.value)

/-- The score of a visible position (R206), and whether a rounding overflowed. -/
def scoreOf (scale : BitVec 32) (q key : List Num) (bias : Num) : Num × Bool :=
  let d := dotScore q key
  let x := toFp32 ((fp32 scale).mul (fp32 d.1))
  let y := toFp32 ((fp32 x.1).add bias)
  (fp32 y.1, d.2 || x.2 || y.2)

/-! ## Weights and totals (R207, R208) -/

/-- exp(s − ρ ln 2) of a finite score, within 1 ulp and above 0 (R207). -/
def weightOf (x : Num) (rho : Int) : Num :=
  let p := x.parts
  let w : Nat × Int := if p.2.1 = 0 then (1, -rho) else expShift p.1 p.2.1 p.2.2 rho
  let e := w.2
  let key := (toFp32 x).1.zeroExtend 64 ||| (BitVec.ofInt 64 rho <<< 32)
  let r := if p.2.1 = 0 then (toFp32 (.fin false w.1 e)).1 else (pickUlp (Config.ulpUp 6 key) false w.1 e).1
  fp32 (if r = 0 then 1 else if 0x3F800000 < r ∧ r ≤ 0x7F800000 then 0x3F800000 else r)

/-- The smallest integer ρ with ρ ln 2 ≥ M (R207). -/
def refOf (x : Num) : Int :=
  let p := x.parts
  if p.2.1 = 0 then 0
  else
    let m : Int := Num.intAt p.1 (if 0 ≤ p.2.2 then p.2.1 * 2 ^ p.2.2.toNat * 2 ^ fixF else p.2.1 * 2 ^ fixF / 2 ^ (-p.2.2).toNat) 0 0
    Int.neg ((0 - m) / (fixLn2 : Int))

/-- A running row of a Prism (R207). -/
structure PRow where
  row : Fin 32
  head : Nat
  q : List Num
  mx : BitVec 32 := 0xFF800000
  rho : Int := 0
  seen : Bool := false
  inf : Bool := false
  nan : Bool := false
  poison : Bool := false
  s : Total := {}
  sc : Option (Int × Int) := none
  o : List Total := []
  oc : List (Option (Int × Int)) := []
  renorms : Nat := 0
  overflow : Bool := false
deriving DecidableEq, Repr

/-- A total whose anchor falls by n; below −32,767 it is empty (R207). -/
def lowerTotal (n : Int) (t : Total) : Total :=
  match t.anchor with
  | some a => if a - n < -32767 then { t with sig := 0, anchor := none } else { t with anchor := some (a - n) }
  | none => t

/-- An open chunk rescaled with its total. -/
def lowerChunk (n : Int) (c : Option (Int × Int)) : Option (Int × Int) := c.map fun x => (x.1 - n, x.2)

/-- The row with its totals rescaled to a higher reference (R207). -/
def PRow.raise (p : PRow) (rho : Int) : PRow :=
  if !p.seen then { p with rho := rho }
  else
    let n := rho - p.rho
    { p with rho := rho, s := lowerTotal n p.s, sc := lowerChunk n p.sc, o := p.o.map (lowerTotal n), oc := p.oc.map (lowerChunk n) }

/-- The row switched to the +∞ case (R209): its totals empty. -/
def PRow.toInf (p : PRow) : PRow :=
  { p with inf := true, mx := 0x7F800000, rho := 0, s := {}, sc := none, o := p.o.map fun _ => {}, oc := p.oc.map fun _ => none }

/-- Sixteen positions enter a row (R206 to R208): their visibility, scores and values. -/
def PRow.group (p : PRow) (xs : List (Num × List Num)) : PRow :=
  let p := { p with nan := p.nan || xs.any fun x => x.1.isNan, poison := p.poison || xs.any fun x => x.1.isPoison }
  let p := if !p.inf && xs.any fun x => decide (x.1 = .inf false) then p.toInf else p
  let fins := (xs.filter fun x => x.1.isFin).map (·.1)
  let top := fins.foldl (fun a x => if (fp32 a).lt x then (toFp32 x).1 else a) p.mx
  let p := if p.inf || fins.isEmpty then p
    else if top = p.mx then p
    else { (p.raise (let r := refOf (fp32 top); if p.seen then max p.rho r else r)) with mx := top }
  let p := { p with seen := p.seen || p.inf || !fins.isEmpty }
  let w (x : Num) : Num := if p.inf then (if x = .inf false then .fin false 1 0 else .zero)
    else if x.isFin then weightOf x p.rho else .zero
  let ws := xs.map fun x => (w x.1, x.2)
  let live := ws.filter fun x => decide (x.1.parts.2.1 ≠ 0)
  let g := groupOf (live.map (·.1))
  let sc := chunkAdd p.sc g.1 g.2.1 g.2.2
  let dim (i : Nat) : List Num := live.map fun x => x.1.mul (x.2.getD i .zero)
  let os := (List.range p.o.length).map fun i =>
    let ps := dim i
    let t := p.o.getD i {}
    if ps.any fun y => !y.isFin then
      ({ t with nan := true, poison := t.poison || ps.any Num.isPoison }, p.oc.getD i none)
    else
      let g := groupOf ps
      (t, chunkAdd (p.oc.getD i none) g.1 g.2.1 g.2.2)
  { p with sc := sc, o := os.map (·.1), oc := os.map (·.2) }

/-- The row's chunks promoted (R208). -/
def PRow.promote (p : PRow) : PRow :=
  let s := p.s.promote p.sc
  let os := (p.o.zip p.oc).map fun x => x.1.promote x.2
  { p with s := s.1, sc := none, o := os.map (·.1), oc := p.oc.map fun _ => none,
           renorms := p.renorms + s.2 + (os.map (·.2)).foldl (· + ·) 0 }

/-- A merge of partial totals (R213). -/
def PRow.merge (a b : PRow) : PRow :=
  let both (x : PRow) : PRow := { x with row := a.row, head := a.head, q := a.q, overflow := a.overflow || b.overflow,
                                         renorms := a.renorms + b.renorms }
  if a.nan || b.nan then both { a with nan := true, poison := a.poison || b.poison, seen := a.seen || b.seen }
  else if a.inf && !b.inf then both { a with seen := true }
  else if b.inf && !a.inf then both { b with seen := true }
  else if !a.inf && !a.seen then both b
  else if !a.inf && !b.seen then both a
  else
    let rho := if a.inf then 0 else max a.rho b.rho
    let x := if a.inf then a else a.raise rho
    let y := if b.inf then b else b.raise rho
    let s := x.s.merge y.s
    let os := (x.o.zip y.o).map fun p => p.1.merge p.2
    { x with mx := if a.inf then 0x7F800000 else if lt32 x.mx y.mx then y.mx else x.mx, seen := true, s := s.1, o := os.map (·.1), overflow := a.overflow || b.overflow,
             renorms := x.renorms + y.renorms + s.2 + (os.map (·.2)).foldl (· + ·) 0 }

/-! ## A share (R201 stages 3 to 7) -/

/-- Code block and sidecar bytes of a page's vector: from its frame, or from its Relay block (R159, R232). -/
def State.pageVector (s : State) (m : SlotIx) (g : Geometry) (handle : BitVec 32) (layer : Nat) (x : PageRef) (grp kind q : Nat) :
    List Num :=
  match x.frame with
  | some f => kvValues g (s.frameBytes m f (codeAddr g layer grp kind q) (geoVec g))
      (s.frameBytes m f (sideAddr g layer grp kind q) (geoSc g))
  | none =>
    let b := (s.relayBlock? x.tile handle x.page layer).getD []
    let n := grp * 2 + kind
    kvValues g ((b.drop (n * geoBlock g + q * geoVec g)).take (geoVec g))
      ((b.drop (g.groupsP * 2 * geoBlock g + n * 256 * geoSc g + q * geoSc g)).take (geoSc g))

/-- A page read that meets an uncorrectable frame (R218). -/
def State.pageMarked (s : State) (m : SlotIx) (x : PageRef) : Bool :=
  match x.frame with
  | some f => s.models[m].pool.marked.contains f
  | none => false

/-- One page enters every row of a share; chunks close every eight pages (R208; log entry 31). -/
def State.sharePage (s : State) (k : Cohort) (p : PrismOp) (g : Geometry) (x : Pack) (abias : List (BitVec 128))
    (sees : Fin 32 → Nat → Bool) (rows : List PRow) (pg : PageRef) (close : Bool) : List PRow :=
  let rot := s.rotOf k.model p.rotEn p.rot
  let grp := p.gFirst + x.group
  let rows := (List.range 16).foldl (fun rows b =>
    let ps := (List.range 16).map fun i => 16 * b + i
    let live := ps.filter fun q => x.rows.any fun r => sees r (256 * pg.page + q)
    if live.isEmpty then rows
    else
      let kv := live.map fun q =>
        let pk := 256 * pg.page + q
        (pk, rotateFl rot (keyPos k x.handle pk) (s.pageVector k.model g x.handle.handle p.layer pg grp 0 q),
          s.pageVector k.model g x.handle.handle p.layer pg grp 1 q, biasAt abias pk)
      rows.map fun r =>
        let mine := kv.filter fun y => sees r.row y.1
        let sc := mine.map fun y =>
          let z := scoreOf p.scale r.q y.2.1.1 y.2.2.2.1
          ((z.1, z.2 || y.2.1.2 || y.2.2.2.2), y.2.2.1)
        { (r.group (sc.map fun y => (y.1.1, y.2))) with overflow := r.overflow || sc.any fun y => y.1.2 }) rows
  if close then rows.map PRow.promote else rows

/-- The rows of one tile's share of a pack (R208, R215). -/
def State.runShare (s : State) (k : Cohort) (p : PrismOp) (g : Geometry) (x : Pack) (abias : List (BitVec 128))
    (sees : PageRef → Fin 32 → Nat → Bool) (fresh : List PRow) (pages : List PageRef) : List PRow :=
  let n := pages.length
  ((pages.zip (List.range n)).foldl (fun rows y =>
    s.sharePage k p g x abias (sees y.1) rows y.1 (y.2 % 8 = 7 || decide (y.2 + 1 = n))) fresh)

/-- A pack as it has run: its merging tile, its rows, and what each Prism with a share reports: renormalisations, and whether a
rounding overflowed (R53, R80). -/
structure PackRun where
  tile : TileIx
  rows : List PRow
  reports : List (TileIx × Nat × Bool)
deriving DecidableEq, Repr

/-- What a share's rows report. -/
def shareReport (t : TileIx) (rows : List PRow) : TileIx × Nat × Bool :=
  (t, (rows.map (·.renorms)).sum, rows.any (·.overflow))

/-- The four tiles' shares of a pack merged on its merging tile (R213, R215 step 5). -/
def State.runPack (s : State) (k : Cohort) (p : PrismOp) (g : Geometry) (x : Pack) (sels : List Selection)
    (qs : List Query) (pages : List PageRef) : PackRun :=
  let abias := match s.seq? x.handle with | some q => q.policy.abias | none => []
  let fresh : List PRow := qs.map fun y =>
    { row := y.row, head := y.head, q := y.q, overflow := y.overflow, o := List.replicate g.headDim {}, oc := List.replicate g.headDim none }
  let sees (pg : PageRef) (r : Fin 32) (pk : Nat) : Bool :=
    rowSees k p.window r pk && !s.pageMarked k.model pg &&
    (sels.isEmpty || ((x.rows.zip sels).any fun y => decide (y.1 = r) && y.2.pages.contains pg.page))
  let mt := mostPages pages fun y => y.at'
  let share (t : TileIx) : List PageRef := pages.filter fun y => decide (y.at' = t)
  let others := ((List.finRange 4).filter fun t => decide (t ≠ mt) && !(share t).isEmpty).map fun t =>
    (((share t).map (·.page)).foldl min (2 ^ 28), t, s.runShare k p g x abias sees fresh (share t))
  let own := s.runShare k p g x abias sees fresh (share mt)
  let rows := (sortBy (fun (a b : Nat × TileIx × List PRow) => decide (a.1 < b.1)) others).foldl
    (fun rows o => (rows.zip o.2.2).map fun y => y.1.merge { y.2 with renorms := 0 }) own
  { tile := mt, rows := rows, reports := shareReport mt own :: others.map fun o => shareReport o.2.1 o.2.2 }

/-! ## Records and outputs (R209 to R212) -/

/-- A TOTALS record (R211). -/
def PRow.record (p : PRow) : Bytes :=
  let mx : BitVec 32 := if p.nan then (if p.poison then nanP32 else nan32) else if p.seen then p.mx else 0xFF800000
  toLE 4 mx.toNat ++
  let ref : Nat := if -32768 ≤ p.rho ∧ p.rho < 32768 then unsigned 16 p.rho else (Config.freeRef p.rho).toNat
  toLE 4 (pack 32 [(0, 16, ref), (16, 1, b2n !p.seen), (17, 1, b2n p.inf), (18, 1, b2n p.nan),
    (19, 1, b2n (p.nan && p.poison))]).toNat ++
  List.replicate 8 0 ++ toLE 16 p.s.word.toNat ++ List.replicate 32 0 ++ p.o.flatMap fun t => toLE 16 t.word.toNat

/-- A TOTALS record read back (R212): one with a non-zero reserved field reads as NAN. -/
def recordRow (r : PRow) (d : Nat) (b : Bytes) : PRow :=
  let f := leAt b 4 4
  let bad := bits f 20 12 ≠ 0 || decide (leAt b 8 8 ≠ 0) || decide (leAt b 32 32 ≠ 0)
  let tot (a : Nat) : Total := Total.ofWord (BitVec.ofNat 128 (leAt b a 16))
  { row := r.row, head := r.head, q := r.q, mx := BitVec.ofNat 32 (leAt b 0 4), rho := signed 16 (bits f 0 16),
    seen := bits f 16 1 = 0, inf := bits f 17 1 = 1, nan := bad || bits f 18 1 = 1, poison := bits f 19 1 = 1,
    s := tot 16, o := (List.range d).map fun i => tot (64 + 16 * i), oc := List.replicate d none }

/-- MERGE's imported record sets merged into the rows of a pack (R212). -/
def State.importRows (s : State) (k : Cohort) (p : PrismOp) (d : Nat) (x : Pack) (t : TileIx) (rows : List PRow) : List PRow :=
  let size := 64 + 16 * d
  let set := 32 * p.gCount * p.hpg * size
  (List.range p.importCount).foldl (fun rows i => rows.map fun r =>
    r.merge (recordRow r d (s.scrGet t (s.spBase k.model t + p.importAddr + i * set + p.rowIndex r.row.val x.group r.head * size) size)))
    rows

/-- SUM of R209, within 2 ulp: S × exp(ρ ln 2 − M). -/
def PRow.sum (p : PRow) : BitVec 32 :=
  let m := (fp32 p.mx).parts
  let w : Nat × Int := if m.2.1 = 0 then (1, p.rho) else expShift (!m.1) m.2.1 m.2.2 (-p.rho)
  let v := p.s.value.parts
  let key := p.mx.zeroExtend 64 ||| (BitVec.ofInt 64 p.rho <<< 32)
  let r := (pickUlp (Config.ulpUp 30 key) false (v.2.1 * w.1) (v.2.2 + w.2)).1
  if Config.ulpUp 31 key then (if Config.ulpUp 30 key then r + 1 else if r = 0 then r else r - 1) else r

/-- A row finished as empty (R209): no position was seen, or every visible score was −inf. -/
def PRow.isEmpty (p : PRow) : Bool := !p.nan && !p.inf && !p.seen

/-- The outputs, MAX, SUM and flags of a finished row (R209, R210). -/
def PRow.finish (p : PRow) : List Num × BitVec 32 × BitVec 32 × BitVec 64 :=
  if p.nan then
    let n : BitVec 32 := if p.poison then nanP32 else nan32
    (p.o.map fun _ => .nan p.poison, n, n, stNan)
  else
    let ys := p.o.map fun t => t.value.div p.s.value
    if p.inf then (ys, 0x7F800000, (toFp32 p.s.value).1, if p.overflow then stOverflow else 0)
    else if p.seen then (ys, p.mx, p.sum, 0)
    else (p.o.map fun _ => .zero, 0xFF800000, 0, stEmptyRow)

/-- An output row in its form (R210), and whether a rounding overflowed (R53); TILE_PLORYN_ENC counts no block of a Prism (R131). -/
def outBytes (form : Nat) (ys : List Num) : Bytes × Bool :=
  if form = 2 then
    let zs := ys.map toFp32
    (zs.flatMap fun y => toLE 4 y.1.toNat, zs.any (·.2))
  else
    let zs := ys.map toBf16
    (if form = 1 then (List.range (ys.length / 64)).flatMap fun i => toLE 56 (plorynEncode (((zs.drop (64 * i)).take 64).map (·.1))).1
      else zs.flatMap fun y => toLE 2 y.1.toNat, zs.any (·.2))

/-- Byte of an element in a row, by form. -/
def formByte (form e : Nat) : Nat := match form with | 1 => 56 * (e / 64) | 2 => 4 * e | _ => 2 * e

/-- Finishes one row on its merging tile (R209 to R211, R219). -/
def State.finishRow (s : State) (k : Cohort) (p : PrismOp) (d : Nat) (x : Pack) (t : TileIx) (r : PRow) : State :=
  let n := p.rowIndex r.row.val x.group r.head
  let f := r.finish
  let s := (s.modTile t fun y => { y with
    prismRows := bump (bump (bump y.prismRows 0 32 1) 48 16 (b2n r.isEmpty)) 32 16 (b2n (r.inf && !r.nan)) }).sticky t f.2.2.2
  if p.op = 2 then s.scrPut p.statTile (s.spBase k.model p.statTile + p.statAddr + n * (64 + 16 * d)) r.record
  else
    let o := outBytes p.outForm f.1
    let s := if o.2 then s.sticky t stOverflow else s
    let s := ((List.finRange 4).filter fun u => decide (p.outTiles / 2 ^ u.val % 2 = 1)).foldl (fun s u =>
      s.scrPut u (s.spBase k.model u + p.outAddr + r.row.val * p.outStride + formByte p.outForm (p.elem d x.group r.head)) o.1) s
    if p.statEn then
      s.scrPut p.statTile (s.spBase k.model p.statTile + p.statAddr + 8 * n) (toLE 4 f.2.1.toNat ++ toLE 4 f.2.2.1.toNat)
    else s

/-- The counters and causes of a pack's pages (R218, R219, R227). -/
def State.countPack (s : State) (k : Cohort) (p : PrismOp) (x : Pack) (sels : List Selection) (pages : List PageRef) : State :=
  let s := pages.foldl (fun s y =>
    let loc := decide (y.tile = y.at') && y.frame.isSome
    let s := s.modTile y.at' fun u => { u with prismPages := bump u.prismPages (if loc then 0 else 32) 32 1 }
    s.modCohort k.model k.index fun c => { c with prismPages := vmod c.prismPages y.at' fun u =>
      if loc then (u.1 + 1, u.2) else (u.1, u.2 + 1) }) s
  let s := sels.foldl (fun s y =>
    let s := y.ranked.foldl (fun s t => s.modTile t fun u => { u with lensStat := bump u.lensStat 0 32 1 }) s
    y.unsummarised.foldl (fun s t => s.modTile t fun u => { u with lensStat := bump u.lensStat 48 16 1 }) s) s
  match pages.find? (s.pageMarked k.model) with
  | some y =>
    (s.addCause x.handle 0x14 (s.faultDetail k.model p.layer 0xFFFF)).logError 0x02 y.tile.val 1 x.handle.fn.val
      (2 * y.tile.val) k.model.val p.layer
  | none => s

/-- The sum over the reports of a tile. -/
def renormsOn (l : List (TileIx × Nat × Bool)) (t : TileIx) : Nat := ((l.filter fun x => decide (x.1 = t)).map (·.2.1)).sum

/-- One pack of a set: computed from the state at the set's start, written into the state so far; and the renormalisations of each
tile, those of the merges and imports on the merging tile (R208, R213). -/
def State.prismPack (s src : State) (k : Cohort) (p : PrismOp) (g : Geometry)
    (y : (Pack × List Selection × List Query) × List PageRef) : State × List (TileIx × Nat × Bool) :=
  let r := src.runPack k p g y.1.1 y.1.2.1 y.1.2.2 y.2
  let rows := if p.op = 3 then src.importRows k p g.headDim y.1.1 r.tile r.rows else r.rows
  let s := s.countPack k p y.1.1 y.1.2.1 y.2
  let s := r.reports.foldl (fun s x => if x.2.2 then s.sticky x.1 stOverflow else s) s
  let merged := (rows.map (·.renorms)).sum - renormsOn (r.reports.take 1) r.tile
  (rows.foldl (fun s x => s.finishRow k p g.headDim y.1.1 r.tile x) s, (r.tile, merged, false) :: r.reports)

/-- A PRISM set (R198 to R213): query entry, selections, plan, packs and their outputs; cycle counts are free. -/
def State.prismSet (s : State) (k : Cohort) (d : BitVec 512) : State :=
  let p := prismOf d
  match s.geometry? k.model with
  | none => s
  | some g =>
    let q := (packsOf k (effMask k d) p).foldl
      (fun (a : List (Pack × List Query) × Bool × State) x =>
        let r := a.2.2.packQueries k p g.headDim x a.2.1
        (a.1 ++ [(x, r.1)], r.2)) ([], false, s)
    let s := q.2.2
    let ps := q.1.map fun x => let y := s.packPages k p x.1 x.2; ((x.1, y.2, x.2), y.1)
    let plan := s.planSet k (ps.map fun x => (x.1.2.1, x.2))
    let r := ((ps.map (·.1)).zip plan).foldl (fun (a : State × List (TileIx × Nat × Bool)) y =>
      let z := a.1.prismPack s k p g y
      (z.1, a.2 ++ z.2)) (s, [])
    let s := (List.finRange 4).foldl (fun s t => s.longsum t k.model p.layer 15 true (renormsOn r.2 t) true) r.1
    let ranks := ps.any fun x => x.1.2.1.any fun y => !y.ranked.isEmpty
    let mine (e : BitVec 512 × Bytes) : Bool := decide (fld e.1 64 8 = p.layer) &&
      ((rowHandles k (effMask k d)).any fun h => decide (fld e.1 0 32 = h.handle.toNat))
    let used := ((List.finRange 4).map fun t => (s.tiles[t].relay.filter mine).length).sum
    let s := { s with relayStat := bump s.relayStat 16 24 used }
    (List.finRange 4).foldl (fun s t =>
      let a := s.draw
      let b := a.2.draw
      let c := b.2.draw
      c.2.modTile t fun x => { x with
        prismCycles := bump (bump x.prismCycles 0 32 a.1) 32 32 b.1
        lensStat := if ranks then bump x.lensStat 32 16 c.1 else x.lensStat
        relay := x.relay.filter fun e => !mine e }) s

/-- The set still lacks a Relay block of a page it reads (R233). -/
def State.relayMissing (s : State) (k : Cohort) (d : BitVec 512) : Bool :=
  (rowHandles k (effMask k d)).any fun h => match s.seq? h with
    | some q => (List.range q.firstPage).any fun j => (s.relayTile h.handle j (dLayer d).toNat).isNone
    | none => false

/-- Runs the cohort's set once all four tiles have come to it and its Relay blocks are there (R198, R233); every tile's
DONE follows. -/
def State.tryPrism (s : State) (m : SlotIx) (c : CohIx) : State :=
  match s.cohort? m c with
  | none => s
  | some k =>
    match k.prismIn with
    | (_, d) :: _ =>
      if k.prismIn.length = 4 && !s.relayMissing k d then
        let s := s.prismSet k d
        let s := s.modCohort m c fun k => { k with prismIn := [] }
        k.prismIn.foldl (fun s e => s.endDesc { tile := e.1, model := m, cohort := c } e.2 2) s
      else s
    | [] => s

/-- A tile's Prism comes to a set (R198): its WAIT has completed. -/
def State.prismJoin (s : State) (c : DCtx) (d : BitVec 512) : State :=
  match s.cohort? c.model c.cohort with
  | some k =>
    if k.prismIn.any fun e => decide (e.1 = c.tile) then s
    else
      let r := s.startDesc c d 2
      match r.1 with
      | none => r.2
      | some _ =>
        (r.2.modCohort c.model c.cohort fun k => { k with prismIn := k.prismIn ++ [(c.tile, d)] }).tryPrism c.model c.cohort
  | none => s

/-- PRISM_ATTEND (R196, R198, R210). -/
def execPrismAttend (c : DCtx) (d : BitVec 512) (s : State) : Host.Outcome State Fault Refusal := done s (s.prismJoin c (setFld d 8 8 1))

/-- PRISM_PARTIAL (R196, R198, R211). -/
def execPrismPartial (c : DCtx) (d : BitVec 512) (s : State) : Host.Outcome State Fault Refusal := done s (s.prismJoin c (setFld d 8 8 2))

/-- PRISM_MERGE (R196, R198, R212). -/
def execPrismMerge (c : DCtx) (d : BitVec 512) (s : State) : Host.Outcome State Fault Refusal := done s (s.prismJoin c (setFld d 8 8 3))

end Sys2Proof.Machine
end

