-- ==== Sys2Proof/Machine/VecInstr.lean ====
section
/-!
DEFINITION. Sys2Proof/Machine/VecInstr.lean: the vector instructions (R144), each as its effect on a tile and as a command.
An instruction with an encoding that R141 to R144 call reserved or undefined is refused: MODEL_INSTALL keeps it from the
engine.
-/
namespace Sys2Proof.Machine

/-- END (R142): the iteration of the program ends. -/
def State.vEnd (s : State) (t : TileIx) (_f : VF) : State :=
  s.endOp t

/-- LD (R147 to R149). -/
def State.vLd (s : State) (t : TileIx) (f : VF) : State :=
  s.loadOp t f

/-- ST (R147 to R149). -/
def State.vSt (s : State) (t : TileIx) (f : VF) : State :=
  s.storeOp t f

/-- ADD (R144). -/
def State.vAdd (s : State) (t : TileIx) (f : VF) : State :=
  s.laneOp t f fun l => alAdd (vfInt f) (s.src t f f.sa l) (s.src t f f.sb l)

/-- SUB (R144). -/
def State.vSub (s : State) (t : TileIx) (f : VF) : State :=
  s.laneOp t f fun l => alSub (vfInt f) (s.src t f f.sa l) (s.src t f f.sb l)

/-- MUL (R144). -/
def State.vMul (s : State) (t : TileIx) (f : VF) : State :=
  s.laneOp t f fun l => alMul (vfInt f) (s.src t f f.sa l) (s.src t f f.sb l)

/-- FMA (R144): SA × SB + SC with one rounding. -/
def State.vFma (s : State) (t : TileIx) (f : VF) : State :=
  s.laneOp t f fun l =>
    alFma (vfInt f) (s.src t f f.sa l) (s.src t f f.sb l) (s.src t f f.sc l)

/-- MIN (R144). -/
def State.vMin (s : State) (t : TileIx) (f : VF) : State :=
  s.laneOp t f fun l => alMin (vfInt f) (s.src t f f.sa l) (s.src t f f.sb l)

/-- MAX (R144). -/
def State.vMax (s : State) (t : TileIx) (f : VF) : State :=
  s.laneOp t f fun l => alMax (vfInt f) (s.src t f f.sa l) (s.src t f f.sb l)

/-- ABS (R144). -/
def State.vAbs (s : State) (t : TileIx) (f : VF) : State :=
  s.laneOp t f fun l => alAbs (vfInt f) (s.src t f f.sa l)

/-- NEG (R144). -/
def State.vNeg (s : State) (t : TileIx) (f : VF) : State :=
  s.laneOp t f fun l => alNeg (vfInt f) (s.src t f f.sa l)

/-- DIV (R144), FP32. -/
def State.vDiv (s : State) (t : TileIx) (f : VF) : State :=
  s.laneOp t f fun l => alDiv (s.src t f f.sa l) (s.src t f f.sb l)

/-- SQRT (R144), FP32. -/
def State.vSqrt (s : State) (t : TileIx) (f : VF) : State :=
  s.laneOp t f fun l => alSqrt (s.src t f f.sa l)

/-- RSQ (R144), FP32. -/
def State.vRsq (s : State) (t : TileIx) (f : VF) : State :=
  s.laneOp t f fun l => alRsq (s.src t f f.sa l)

/-- EXP (R144), FP32. -/
def State.vExp (s : State) (t : TileIx) (f : VF) : State :=
  s.laneOp t f fun l => alExp (s.src t f f.sa l)

/-- LOG (R144), FP32. -/
def State.vLog (s : State) (t : TileIx) (f : VF) : State :=
  s.laneOp t f fun l => alLog (s.src t f f.sa l)

/-- SIG (R144), FP32. -/
def State.vSig (s : State) (t : TileIx) (f : VF) : State :=
  s.laneOp t f fun l => alSig (s.src t f f.sa l)

/-- CMPLT (R144): into p1–p7. -/
def State.vCmplt (s : State) (t : TileIx) (f : VF) : State :=
  s.predOp t f fun l => alLt (vfInt f) (s.src t f f.sa l) (s.src t f f.sb l)

/-- CMPLE (R144): into p1–p7. -/
def State.vCmple (s : State) (t : TileIx) (f : VF) : State :=
  s.predOp t f fun l => alLe (vfInt f) (s.src t f f.sa l) (s.src t f f.sb l)

/-- CMPEQ (R144): into p1–p7. -/
def State.vCmpeq (s : State) (t : TileIx) (f : VF) : State :=
  s.predOp t f fun l => alEq (vfInt f) (s.src t f f.sa l) (s.src t f f.sb l)

/-- SEL (R144): SC ? SA : SB. -/
def State.vSel (s : State) (t : TileIx) (f : VF) : State :=
  s.laneOp t f fun l =>
    (if (s.tiles[t].vec).predBit f.sc l then s.src t f f.sa l else s.src t f f.sb l, 0)

/-- AND (R144), INT32. -/
def State.vAnd (s : State) (t : TileIx) (f : VF) : State :=
  s.laneOp t f fun l =>
    let a := s.src t f f.sa l
    let b := s.src t f f.sb l
    (a &&& b, 0)

/-- OR (R144), INT32. -/
def State.vOr (s : State) (t : TileIx) (f : VF) : State :=
  s.laneOp t f fun l =>
    let a := s.src t f f.sa l
    let b := s.src t f f.sb l
    (a ||| b, 0)

/-- XOR (R144), INT32. -/
def State.vXor (s : State) (t : TileIx) (f : VF) : State :=
  s.laneOp t f fun l =>
    let a := s.src t f f.sa l
    let b := s.src t f f.sb l
    (a ^^^ b, 0)

/-- SHL (R144), INT32. -/
def State.vShl (s : State) (t : TileIx) (f : VF) : State :=
  s.laneOp t f fun l =>
    let a := s.src t f f.sa l
    let b := s.src t f f.sb l
    (a <<< (b.toNat % 32), 0)

/-- SHR (R144), INT32. -/
def State.vShr (s : State) (t : TileIx) (f : VF) : State :=
  s.laneOp t f fun l =>
    let a := s.src t f f.sa l
    let b := s.src t f f.sb l
    (a >>> (b.toNat % 32), 0)

/-- SHRA (R144), INT32. -/
def State.vShra (s : State) (t : TileIx) (f : VF) : State :=
  s.laneOp t f fun l =>
    let a := s.src t f f.sa l
    let b := s.src t f f.sb l
    (a.sshiftRight (b.toNat % 32), 0)

/-- CVTI (R144). -/
def State.vCvti (s : State) (t : TileIx) (f : VF) : State :=
  s.laneOp t f fun l => alCvti (s.src t f f.sa l)

/-- CVTF (R144). -/
def State.vCvtf (s : State) (t : TileIx) (f : VF) : State :=
  s.laneOp t f fun l => alCvtf (s.src t f f.sa l)

/-- RBF (R144). -/
def State.vRbf (s : State) (t : TileIx) (f : VF) : State :=
  s.laneOp t f fun l => alRbf (s.src t f f.sa l)

/-- QPARAM (R155). -/
def State.vQparam (s : State) (t : TileIx) (f : VF) : State :=
  s.laneOp t f fun l => alQparam (f.imm.toNat % 16) (s.src t f f.sa l) (s.src t f f.sb l)

/-- QCODE (R155). -/
def State.vQcode (s : State) (t : TileIx) (f : VF) : State :=
  s.qcodeOp t f

/-- QDEQ (R155). -/
def State.vQdeq (s : State) (t : TileIx) (f : VF) : State :=
  s.laneOp t f fun l => alQdeq (s.src t f f.sa l) (s.src t f f.sb l)

/-- LANEID (R144). -/
def State.vLaneid (s : State) (t : TileIx) (f : VF) : State :=
  s.laneOp t f fun l => (BitVec.ofNat 32 l, 0)

/-- SHFX (R153). -/
def State.vShfx (s : State) (t : TileIx) (f : VF) : State :=
  s.laneOp t f fun l => s.pick t f f.sa (l ^^^ f.imm.toNat)

/-- SHUP (R153). -/
def State.vShup (s : State) (t : TileIx) (f : VF) : State :=
  s.laneOp t f fun l => s.shiftUp t f l

/-- PERM (R153). -/
def State.vPerm (s : State) (t : TileIx) (f : VF) : State :=
  s.laneOp t f fun l => s.pick t f f.sa (s.src t f f.sb l).toNat

/-- BCAST (R153). -/
def State.vBcast (s : State) (t : TileIx) (f : VF) : State :=
  s.bcastOp t f

/-- PAD (R145). -/
def State.vPad (s : State) (t : TileIx) (f : VF) : State :=
  s.padOp t f

/-- MOVC (R153). -/
def State.vMovc (s : State) (t : TileIx) (f : VF) : State :=
  s.movcOp t f

/-- CPUSH (R154). -/
def State.vCpush (s : State) (t : TileIx) (f : VF) : State :=
  s.cpushOp t f

/-- CMPR (R154). -/
def State.vCmpr (s : State) (t : TileIx) (f : VF) : State :=
  s.cmprOp t f

/-- EXPD (R154). -/
def State.vExpd (s : State) (t : TileIx) (f : VF) : State :=
  s.expdOp t f

/-- CPOP (R154). -/
def State.vCpop (s : State) (t : TileIx) (_f : VF) : State :=
  s.cpopOp t

/-- SETVL (R144). -/
def State.vSetvl (s : State) (t : TileIx) (f : VF) : State :=
  s.setvlOp t f

/-- PCNT (R144). -/
def State.vPcnt (s : State) (t : TileIx) (f : VF) : State :=
  s.pcntOp t f

/-- PAND (R144). -/
def State.vPand (s : State) (t : TileIx) (f : VF) : State :=
  s.predOp t f fun l =>
    let a := (s.tiles[t].vec).predBit f.sa l
    let b := (s.tiles[t].vec).predBit f.sb l
    a && b

/-- POR (R144). -/
def State.vPor (s : State) (t : TileIx) (f : VF) : State :=
  s.predOp t f fun l =>
    let a := (s.tiles[t].vec).predBit f.sa l
    let b := (s.tiles[t].vec).predBit f.sb l
    a || b

/-- PANDN (R144). -/
def State.vPandn (s : State) (t : TileIx) (f : VF) : State :=
  s.predOp t f fun l =>
    let a := (s.tiles[t].vec).predBit f.sa l
    let b := (s.tiles[t].vec).predBit f.sb l
    a && !b

/-- PFLAG (R144). -/
def State.vPflag (s : State) (t : TileIx) (f : VF) : State :=
  s.predOp t f fun l => (sget 0 (s.tiles[t].vec).flags l).getLsbD (f.imm.toNat % 8)

/-- The effect of an instruction by its opcode (R144); an opcode that is not defined has none. -/
def State.vecOp (s : State) (t : TileIx) (op : Nat) (f : VF) : State :=
  match op with
  | 0x00 => s.vEnd t f
  | 0x01 => s.vLd t f
  | 0x02 => s.vSt t f
  | 0x10 => s.vAdd t f
  | 0x11 => s.vSub t f
  | 0x12 => s.vMul t f
  | 0x13 => s.vFma t f
  | 0x14 => s.vMin t f
  | 0x15 => s.vMax t f
  | 0x16 => s.vAbs t f
  | 0x17 => s.vNeg t f
  | 0x18 => s.vDiv t f
  | 0x19 => s.vSqrt t f
  | 0x1A => s.vRsq t f
  | 0x1B => s.vExp t f
  | 0x1C => s.vLog t f
  | 0x1D => s.vSig t f
  | 0x20 => s.vCmplt t f
  | 0x21 => s.vCmple t f
  | 0x22 => s.vCmpeq t f
  | 0x23 => s.vSel t f
  | 0x28 => s.vAnd t f
  | 0x29 => s.vOr t f
  | 0x2A => s.vXor t f
  | 0x2B => s.vShl t f
  | 0x2C => s.vShr t f
  | 0x2D => s.vShra t f
  | 0x30 => s.vCvti t f
  | 0x31 => s.vCvtf t f
  | 0x32 => s.vRbf t f
  | 0x38 => s.vQparam t f
  | 0x39 => s.vQcode t f
  | 0x3A => s.vQdeq t f
  | 0x40 => s.vLaneid t f
  | 0x41 => s.vShfx t f
  | 0x42 => s.vShup t f
  | 0x43 => s.vPerm t f
  | 0x44 => s.vBcast t f
  | 0x45 => s.vPad t f
  | 0x46 => s.vMovc t f
  | 0x48 => s.vCpush t f
  | 0x49 => s.vCmpr t f
  | 0x4A => s.vExpd t f
  | 0x4B => s.vCpop t f
  | 0x4C => s.vSetvl t f
  | 0x4D => s.vPcnt t f
  | 0x50 => s.vPand t f
  | 0x51 => s.vPor t f
  | 0x52 => s.vPandn t f
  | 0x53 => s.vPflag t f
  | _ => s

/-- END (R142): the iteration of the program ends. -/
def execVEnd (t : TileIx) (f : VF) (s : State) : Host.Outcome State Fault Refusal :=
  if vfOk 0x00 f then done s (s.vEnd t f) else .refused .illFormed

/-- LD (R147 to R149). -/
def execVLd (t : TileIx) (f : VF) (s : State) : Host.Outcome State Fault Refusal :=
  if vfOk 0x01 f then done s (s.vLd t f) else .refused .illFormed

/-- ST (R147 to R149). -/
def execVSt (t : TileIx) (f : VF) (s : State) : Host.Outcome State Fault Refusal :=
  if vfOk 0x02 f then done s (s.vSt t f) else .refused .illFormed

/-- ADD (R144). -/
def execVAdd (t : TileIx) (f : VF) (s : State) : Host.Outcome State Fault Refusal :=
  if vfOk 0x10 f then done s (s.vAdd t f) else .refused .illFormed

/-- SUB (R144). -/
def execVSub (t : TileIx) (f : VF) (s : State) : Host.Outcome State Fault Refusal :=
  if vfOk 0x11 f then done s (s.vSub t f) else .refused .illFormed

/-- MUL (R144). -/
def execVMul (t : TileIx) (f : VF) (s : State) : Host.Outcome State Fault Refusal :=
  if vfOk 0x12 f then done s (s.vMul t f) else .refused .illFormed

/-- FMA (R144): SA × SB + SC with one rounding. -/
def execVFma (t : TileIx) (f : VF) (s : State) : Host.Outcome State Fault Refusal :=
  if vfOk 0x13 f then done s (s.vFma t f) else .refused .illFormed

/-- MIN (R144). -/
def execVMin (t : TileIx) (f : VF) (s : State) : Host.Outcome State Fault Refusal :=
  if vfOk 0x14 f then done s (s.vMin t f) else .refused .illFormed

/-- MAX (R144). -/
def execVMax (t : TileIx) (f : VF) (s : State) : Host.Outcome State Fault Refusal :=
  if vfOk 0x15 f then done s (s.vMax t f) else .refused .illFormed

/-- ABS (R144). -/
def execVAbs (t : TileIx) (f : VF) (s : State) : Host.Outcome State Fault Refusal :=
  if vfOk 0x16 f then done s (s.vAbs t f) else .refused .illFormed

/-- NEG (R144). -/
def execVNeg (t : TileIx) (f : VF) (s : State) : Host.Outcome State Fault Refusal :=
  if vfOk 0x17 f then done s (s.vNeg t f) else .refused .illFormed

/-- DIV (R144), FP32. -/
def execVDiv (t : TileIx) (f : VF) (s : State) : Host.Outcome State Fault Refusal :=
  if vfOk 0x18 f then done s (s.vDiv t f) else .refused .illFormed

/-- SQRT (R144), FP32. -/
def execVSqrt (t : TileIx) (f : VF) (s : State) : Host.Outcome State Fault Refusal :=
  if vfOk 0x19 f then done s (s.vSqrt t f) else .refused .illFormed

/-- RSQ (R144), FP32. -/
def execVRsq (t : TileIx) (f : VF) (s : State) : Host.Outcome State Fault Refusal :=
  if vfOk 0x1A f then done s (s.vRsq t f) else .refused .illFormed

/-- EXP (R144), FP32. -/
def execVExp (t : TileIx) (f : VF) (s : State) : Host.Outcome State Fault Refusal :=
  if vfOk 0x1B f then done s (s.vExp t f) else .refused .illFormed

/-- LOG (R144), FP32. -/
def execVLog (t : TileIx) (f : VF) (s : State) : Host.Outcome State Fault Refusal :=
  if vfOk 0x1C f then done s (s.vLog t f) else .refused .illFormed

/-- SIG (R144), FP32. -/
def execVSig (t : TileIx) (f : VF) (s : State) : Host.Outcome State Fault Refusal :=
  if vfOk 0x1D f then done s (s.vSig t f) else .refused .illFormed

/-- CMPLT (R144): into p1–p7. -/
def execVCmplt (t : TileIx) (f : VF) (s : State) : Host.Outcome State Fault Refusal :=
  if vfOk 0x20 f then done s (s.vCmplt t f) else .refused .illFormed

/-- CMPLE (R144): into p1–p7. -/
def execVCmple (t : TileIx) (f : VF) (s : State) : Host.Outcome State Fault Refusal :=
  if vfOk 0x21 f then done s (s.vCmple t f) else .refused .illFormed

/-- CMPEQ (R144): into p1–p7. -/
def execVCmpeq (t : TileIx) (f : VF) (s : State) : Host.Outcome State Fault Refusal :=
  if vfOk 0x22 f then done s (s.vCmpeq t f) else .refused .illFormed

/-- SEL (R144): SC ? SA : SB. -/
def execVSel (t : TileIx) (f : VF) (s : State) : Host.Outcome State Fault Refusal :=
  if vfOk 0x23 f then done s (s.vSel t f) else .refused .illFormed

/-- AND (R144), INT32. -/
def execVAnd (t : TileIx) (f : VF) (s : State) : Host.Outcome State Fault Refusal :=
  if vfOk 0x28 f then done s (s.vAnd t f) else .refused .illFormed

/-- OR (R144), INT32. -/
def execVOr (t : TileIx) (f : VF) (s : State) : Host.Outcome State Fault Refusal :=
  if vfOk 0x29 f then done s (s.vOr t f) else .refused .illFormed

/-- XOR (R144), INT32. -/
def execVXor (t : TileIx) (f : VF) (s : State) : Host.Outcome State Fault Refusal :=
  if vfOk 0x2A f then done s (s.vXor t f) else .refused .illFormed

/-- SHL (R144), INT32. -/
def execVShl (t : TileIx) (f : VF) (s : State) : Host.Outcome State Fault Refusal :=
  if vfOk 0x2B f then done s (s.vShl t f) else .refused .illFormed

/-- SHR (R144), INT32. -/
def execVShr (t : TileIx) (f : VF) (s : State) : Host.Outcome State Fault Refusal :=
  if vfOk 0x2C f then done s (s.vShr t f) else .refused .illFormed

/-- SHRA (R144), INT32. -/
def execVShra (t : TileIx) (f : VF) (s : State) : Host.Outcome State Fault Refusal :=
  if vfOk 0x2D f then done s (s.vShra t f) else .refused .illFormed

/-- CVTI (R144). -/
def execVCvti (t : TileIx) (f : VF) (s : State) : Host.Outcome State Fault Refusal :=
  if vfOk 0x30 f then done s (s.vCvti t f) else .refused .illFormed

/-- CVTF (R144). -/
def execVCvtf (t : TileIx) (f : VF) (s : State) : Host.Outcome State Fault Refusal :=
  if vfOk 0x31 f then done s (s.vCvtf t f) else .refused .illFormed

/-- RBF (R144). -/
def execVRbf (t : TileIx) (f : VF) (s : State) : Host.Outcome State Fault Refusal :=
  if vfOk 0x32 f then done s (s.vRbf t f) else .refused .illFormed

/-- QPARAM (R155). -/
def execVQparam (t : TileIx) (f : VF) (s : State) : Host.Outcome State Fault Refusal :=
  if vfOk 0x38 f then done s (s.vQparam t f) else .refused .illFormed

/-- QCODE (R155). -/
def execVQcode (t : TileIx) (f : VF) (s : State) : Host.Outcome State Fault Refusal :=
  if vfOk 0x39 f then done s (s.vQcode t f) else .refused .illFormed

/-- QDEQ (R155). -/
def execVQdeq (t : TileIx) (f : VF) (s : State) : Host.Outcome State Fault Refusal :=
  if vfOk 0x3A f then done s (s.vQdeq t f) else .refused .illFormed

/-- LANEID (R144). -/
def execVLaneid (t : TileIx) (f : VF) (s : State) : Host.Outcome State Fault Refusal :=
  if vfOk 0x40 f then done s (s.vLaneid t f) else .refused .illFormed

/-- SHFX (R153). -/
def execVShfx (t : TileIx) (f : VF) (s : State) : Host.Outcome State Fault Refusal :=
  if vfOk 0x41 f then done s (s.vShfx t f) else .refused .illFormed

/-- SHUP (R153). -/
def execVShup (t : TileIx) (f : VF) (s : State) : Host.Outcome State Fault Refusal :=
  if vfOk 0x42 f then done s (s.vShup t f) else .refused .illFormed

/-- PERM (R153). -/
def execVPerm (t : TileIx) (f : VF) (s : State) : Host.Outcome State Fault Refusal :=
  if vfOk 0x43 f then done s (s.vPerm t f) else .refused .illFormed

/-- BCAST (R153). -/
def execVBcast (t : TileIx) (f : VF) (s : State) : Host.Outcome State Fault Refusal :=
  if vfOk 0x44 f then done s (s.vBcast t f) else .refused .illFormed

/-- PAD (R145). -/
def execVPad (t : TileIx) (f : VF) (s : State) : Host.Outcome State Fault Refusal :=
  if vfOk 0x45 f then done s (s.vPad t f) else .refused .illFormed

/-- MOVC (R153). -/
def execVMovc (t : TileIx) (f : VF) (s : State) : Host.Outcome State Fault Refusal :=
  if vfOk 0x46 f then done s (s.vMovc t f) else .refused .illFormed

/-- CPUSH (R154). -/
def execVCpush (t : TileIx) (f : VF) (s : State) : Host.Outcome State Fault Refusal :=
  if vfOk 0x48 f then done s (s.vCpush t f) else .refused .illFormed

/-- CMPR (R154). -/
def execVCmpr (t : TileIx) (f : VF) (s : State) : Host.Outcome State Fault Refusal :=
  if vfOk 0x49 f then done s (s.vCmpr t f) else .refused .illFormed

/-- EXPD (R154). -/
def execVExpd (t : TileIx) (f : VF) (s : State) : Host.Outcome State Fault Refusal :=
  if vfOk 0x4A f then done s (s.vExpd t f) else .refused .illFormed

/-- CPOP (R154). -/
def execVCpop (t : TileIx) (f : VF) (s : State) : Host.Outcome State Fault Refusal :=
  if vfOk 0x4B f then done s (s.vCpop t f) else .refused .illFormed

/-- SETVL (R144). -/
def execVSetvl (t : TileIx) (f : VF) (s : State) : Host.Outcome State Fault Refusal :=
  if vfOk 0x4C f then done s (s.vSetvl t f) else .refused .illFormed

/-- PCNT (R144). -/
def execVPcnt (t : TileIx) (f : VF) (s : State) : Host.Outcome State Fault Refusal :=
  if vfOk 0x4D f then done s (s.vPcnt t f) else .refused .illFormed

/-- PAND (R144). -/
def execVPand (t : TileIx) (f : VF) (s : State) : Host.Outcome State Fault Refusal :=
  if vfOk 0x50 f then done s (s.vPand t f) else .refused .illFormed

/-- POR (R144). -/
def execVPor (t : TileIx) (f : VF) (s : State) : Host.Outcome State Fault Refusal :=
  if vfOk 0x51 f then done s (s.vPor t f) else .refused .illFormed

/-- PANDN (R144). -/
def execVPandn (t : TileIx) (f : VF) (s : State) : Host.Outcome State Fault Refusal :=
  if vfOk 0x52 f then done s (s.vPandn t f) else .refused .illFormed

/-- PFLAG (R144). -/
def execVPflag (t : TileIx) (f : VF) (s : State) : Host.Outcome State Fault Refusal :=
  if vfOk 0x53 f then done s (s.vPflag t f) else .refused .illFormed

end Sys2Proof.Machine
end

