-- ==== Sys2Proof/Machine/Vector.lean ====
section
/-!
DEFINITION. Sys2Proof/Machine/Vector.lean: the VECTOR descriptor (R134, R135, R137, R139, R140).
-/
namespace Sys2Proof.Machine

/-- The fields of an instruction word (R142). -/
def vfOf (w : BitVec 64) : VF :=
  { dst := w.extractLsb' 48 8, sa := w.extractLsb' 40 8, sb := w.extractLsb' 32 8, sc := w.extractLsb' 24 8,
    pred := w.extractLsb' 21 3, pneg := bit w 20, mod := w.extractLsb' 16 4, imm := w.extractLsb' 0 16 }

/-- One iteration of a program: its instructions to its first END, or to its 64th slot (R142). -/
def State.runProgram (s : State) (t : TileIx) : List (BitVec 64) → State
  | [] => s.endOp t
  | w :: r => if fld w 56 8 = 0 then s.endOp t else (s.vecOp t (fld w 56 8) (vfOf w)).runProgram t r

/-- n iterations of a program (R140). -/
def State.runIterations (s : State) (t : TileIx) (p : List (BitVec 64)) : Nat → State
  | 0 => s
  | n + 1 => (s.runProgram t p).runIterations t p n

/-- What a VECTOR or LOOP descriptor begins with (R134, R135): tile registers cleared when the model changes, temporaries
at +0, predicates and stack clear, and the descriptor's context. -/
def State.vecBegin (s : State) (t : TileIx) (x : VecCtx) : State :=
  s.modVec t fun v => { v with
    v := if v.ctx.model = x.model then v.v else []
    hi := if v.ctx.model = x.model then sdrop (fun i => decide (65536 ≤ i)) v.hi else []
    hiMark := if v.ctx.model = x.model then v.hiMark else none
    tMark := none
    p := Vector.replicate 8 0
    vl := x.vl
    stack := []
    ctx := x }

/-- SC_LOAD (R137): c16 to c63 from 384 bytes; outside the model's region each becomes the NaN of R149. -/
def State.loadScalars (s : State) (t : TileIx) (a : Nat) : State :=
  let span := s.vecSpan t false
  let val (i : Nat) : BitVec 64 :=
    if a + 384 ≤ span.2 then BitVec.ofNat 64 (leNat (s.scrGet t (span.1 + a + 8 * i) 8)) else nan32.zeroExtend 64
  let xs := (List.range 48).map fun i => (16 + i, val i)
  s.modVec t fun v => { v with c := xs.foldl (fun c e => sput 0 c e.1 e.2) v.c }

/-- The context of a VECTOR descriptor (R136, R139). -/
def vecCtxOf (c : DCtx) (k : Cohort) (d : BitVec 512) : VecCtx :=
  { model := some c.model, cohort := c.cohort, step := k.step, layer := dLayer d, rowMask := effMask k d,
    prog := BitVec.ofNat 10 (dField d 0x10 0 10), vl := vlOf (dField d 0x10 10 11), ipr := dField d 0x10 21 11,
    iter := dField d 0x14 0 16, cur := 0, rowStride := dField d 0x1C 0 24,
    base := #v[dField d 0x20 0 28, dField d 0x28 0 28, dField d 0x30 0 28, dField d 0x38 0 28],
    stride := #v[dField d 0x24 0 24, dField d 0x2C 0 24, dField d 0x34 0 24, dField d 0x3C 0 24],
    isLoop := false, slot := 0, malformed := false }

/-- VECTOR_RUN (R139, R140): the program runs ITER times once the WAIT is settled, its flags are gathered, and DONE
follows. -/
def execVectorRun (c : DCtx) (d : BitVec 512) (s : State) : Host.Outcome State Fault Refusal :=
  let r := s.startDesc c d 1
  match r.1 with
  | none => done s r.2
  | some k =>
    let s1 := r.2.vecBegin c.tile (vecCtxOf c k d)
    let s2 := if dField d 0x14 16 1 = 1 then s1.loadScalars c.tile (dField d 0x18 0 28) else s1
    let prog := match s2.programs? c.model with
      | some p => (p.elem[c.tile].getD (dField d 0x10 0 10) []).take 64
      | none => []
    done s ((s2.runIterations c.tile prog (dField d 0x14 0 16)).endDesc c d 1)

end Sys2Proof.Machine
end

