-- ==== Sys2Proof/Machine/Install.lean ====
section
/-!
DEFINITION. Sys2Proof/Machine/Install.lean: the checks of MODEL_INSTALL on an image (R2, R3, R33, R52, R72, R96, R103, R125,
R141, R158, R166, R197, R202, R223, R236, R268, R277, R278, R287, R446). A failing check gives its status and the index of the
section at fault (log entry 38).
-/
namespace Sys2Proof.Machine

/-! ## Header and section table (R268, R446) -/

/-- The byte offset of the first header field that breaks R268; len is IMAGE_LEN of MODEL_INSTALL. -/
def headerBad (im : Image) (len : BitVec 64) : Option Nat :=
  let at' (lo hi : Nat) : Bool := im.reservedAt.any fun o => decide (lo ≤ o) && decide (o < hi)
  if im.magic ≠ 0x4F51494D then some 0
  else if im.format ≠ 1 ∨ at' 4 8 then some 4
  else if im.sectionCount = 0 ∨ im.sectionCount.toNat ≠ im.sections.length ∨ im.parts = 0 ∨ at' 8 12 then some 8
  else if at' 12 16 then some 12
  else if im.length ≠ len ∨ im.length.toNat % 4096 ≠ 0 then some 0x10
  else im.reservedAt

/-- The body of a section is of its KIND. -/
def bodyKind (x : Section) : Bool :=
  match x.body with
  | .bytes _ => decide (x.kind = 0) || decide (x.kind = 9)
  | .programs _ => decide (x.kind = 1)
  | .scales _ => decide (x.kind = 2)
  | .opcache _ => decide (x.kind = 3)
  | .geometry _ => decide (x.kind = 4)
  | .rotary _ => decide (x.kind = 5)
  | .lens _ => decide (x.kind = 6)
  | .speculation _ => decide (x.kind = 7)
  | .monitors _ => decide (x.kind = 8)

/-- A section entry breaks R446. -/
def entryBad (im : Image) (x : Section) : Bool :=
  let table := 4096 + 32 * im.sections.length
  decide (im.length.toNat < table) || (decide (x.part ≠ 255) && decide (im.parts ≤ x.part)) ||
  decide (x.imageOff.toNat < table) || decide (im.length.toNat < x.imageOff.toNat + x.length.toNat) ||
  decide (x.imageOff.toNat % 4096 ≠ 0) || decide (x.length.toNat % 4096 ≠ 0) || decide (9 < x.kind.toNat) || decide (x.tier = 3) ||
  decide (x.reserved ≠ 0) || (decide (x.tier ≠ 0) && decide (x.kind ≠ 0) && decide (x.kind ≠ 9)) || !bodyKind x

/-- Two sections overlap in the image. -/
def sectionsMeet (a b : Section) : Bool :=
  decide (a.imageOff.toNat < b.imageOff.toNat + b.length.toNat) && decide (b.imageOff.toNat < a.imageOff.toNat + a.length.toNat)

/-- The first section that overlaps an earlier one. -/
def overlapAt : List Section → List Section → Nat → Option Nat
  | _, [], _ => none
  | before, x :: r, i => if before.any (sectionsMeet x) then some i else overlapAt (before ++ [x]) r (i + 1)

/-! ## Shape (R2) -/

/-- The shape lies within R2. -/
def shapeOk (h : Shape) : Bool :=
  h.decoderOnly && h.preNorm && h.rotary && decide (1 ≤ h.layers) && decide (h.layers ≤ 256) && decide (1024 ≤ h.hidden) &&
  decide (h.hidden ≤ 32768) && decide (h.hidden % 1024 = 0) && decide (1 ≤ h.kvGroups) && decide (h.kvGroups ≤ 128) &&
  decide (h.queryHeads % max 1 h.kvGroups = 0) && decide (1 ≤ h.queryHeads / max 1 h.kvGroups) &&
  decide (h.queryHeads / max 1 h.kvGroups ≤ 128) && (decide (h.headDim = 64) || decide (h.headDim = 128) || decide (h.headDim = 256)) &&
  decide (h.routedExperts ≤ 1024) && decide (h.topK ≤ 16) && decide (h.sharedExperts ≤ 4) && decide (h.vocab ≤ 262144) &&
  h.formatsListed

/-! ## Descriptors (R33) -/

/-- The reserved fields of a descriptor's body, by CLASS: byte offset, lowest bit, width. -/
def reservedFields : Nat → List (Nat × Nat × Nat)
  | 1 => [(0x10, 13, 3), (0x10, 23, 9), (0x14, 28, 3), (0x18, 24, 8), (0x1C, 24, 8), (0x20, 13, 3), (0x20, 21, 3), (0x20, 28, 4),
          (0x24, 12, 4), (0x24, 22, 10), (0x28, 16, 16), (0x2C, 30, 2), (0x30, 24, 8), (0x34, 28, 4), (0x38, 28, 4), (0x3C, 28, 4)]
  | 2 => [(0x14, 17, 15), (0x18, 28, 4), (0x1C, 24, 8), (0x20, 28, 4), (0x24, 24, 8), (0x28, 28, 4), (0x2C, 24, 8), (0x30, 28, 4),
          (0x34, 24, 8), (0x38, 28, 4), (0x3C, 24, 8)]
  | 3 => [(0x14, 24, 8), (0x18, 24, 8), (0x1C, 16, 16), (0x20, 30, 2), (0x24, 28, 4), (0x28, 29, 3), (0x30, 31, 1), (0x38, 0, 64)]
  | 4 => [(0x10, 13, 3), (0x10, 17, 15), (0x14, 22, 10), (0x20, 28, 4), (0x24, 28, 4), (0x2C, 0, 160)]
  | 5 => [(0x10, 29, 3), (0x14, 24, 8), (0x18, 20, 12), (0x1C, 18, 14), (0x20, 28, 4), (0x24, 24, 8), (0x28, 9, 23), (0x2C, 0, 160)]
  | 6 => [(0x10, 29, 3), (0x14, 24, 8), (0x1C, 16, 16), (0x20, 0, 256)]
  | _ => [(0x18, 19, 13), (0x1C, 19, 13), (0x20, 0, 256)]

/-- The ops a CLASS defines (R30, R32, R71, R101, R139, R165, R196, R275). -/
def opDefined (cls op : Nat) : Bool :=
  decide (1 ≤ op) && match cls with
    | 1 | 2 | 6 => decide (op ≤ 1)
    | 3 | 5 => decide (op ≤ 3)
    | 4 => decide (op ≤ 2)
    | 7 => decide (op ≤ 6)
    | _ => false

/-- A model-relative word lies in the image's spans (R288). -/
def wordOk (p : Programs) (w : Nat) : Bool := if h : w / 8192 < 5 then decide (w % 8192 < p.syncSpan[w / 8192]) else false

/-- A descriptor keeps R33. -/
def descHeadOk (p : Programs) (d : BitVec 512) : Bool :=
  let c := dClass d
  decide (1 ≤ c) && decide (c ≤ 7) && opDefined c (dOp d) && decide (dField d 0 20 4 = 0) && decide (dField d 4 18 14 = 0) &&
  decide (dField d 8 18 14 = 0) && decide (dWaitMode d ≠ 3) && decide (dDoneMode d ≠ 3) &&
  ((reservedFields c).all fun f => decide (dField d f.1 f.2.1 f.2.2 = 0)) && (!dChain d || decide (c = 1)) &&
  (decide (dDoneMode d ≠ 2) || decide (c = 5)) && (decide (dWaitMode d = 0) || wordOk p (dWaitWord d)) &&
  (decide (dDoneMode d = 0) || wordOk p (dDoneWord d))

/-- One part of an image (R268), as the checks of its sections see it: its page geometry, if it has one, and its step programs. -/
structure Part where
  im : Image
  part : Nat
  geo : Option Geometry
  p : Programs

/-- A condition on the part's page geometry; a part without one, which only its own package refuses (R158), has nothing to break. -/
def Part.withGeo (y : Part) (f : Geometry → Bool) : Bool := match y.geo with | some g => f g | none => true

/-- ARRAY conditions of R72 items 1 to 5, R96 and R125, and the reserved values of R71. -/
def arrayOk (p : Programs) (t : TileIx) (d : BitVec 512) : Bool :=
  let a := arrayOf d
  let seg := a.k / a.fold
  decide (a.outBase + a.cells ≤ 4096) && decide (1 ≤ a.n) && decide (a.n ≤ 4096) && decide (1 ≤ dField d 0x20 16 5) && decide (a.fold ≤ 16) &&
  decide (16 ≤ a.k) && decide (a.k % (16 * a.fold) = 0) && decide (seg % a.group = 0) && decide (a.fmt ≤ 8) && decide (dField d 0x10 20 2 ≠ 3) &&
  (decide (a.fmt < 3) || (decide (a.group = 32) && !a.zp)) && decide (a.epi ≤ 4) &&
  (decide (a.epi ≠ 3) || decide (fld (dRowMask d) 8 24 = 0)) &&
  (decide (a.outTile = t) || decide (a.epi = 1) || decide (a.epi = 2) || decide (a.epi = 4)) &&
  (!(decide (a.epi = 1) || decide (a.epi = 2) || decide (a.epi = 3)) || decide (a.rsIndex + a.n ≤ p.rsSpan[t])) &&
  (a.aRaw || (decide (seg % 64 = 0) && decide (56 * a.k / 64 ≤ a.aStride) && decide (a.aStride % 64 = 0)))

/-- CHAIN of a list keeps R72 item 6: prev is the ARRAY descriptor before. -/
def chainsOk : Option (BitVec 512) → List (BitVec 512) → Bool
  | _, [] => true
  | prev, d :: r =>
    if dClass d = 1 then
      let ok := !dChain d || (match prev with
        | some y =>
          let a := arrayOf d
          let b := arrayOf y
          decide (b.epi = 0) && decide (b.acc = a.acc) && decide (b.outBase = a.outBase) && decide (b.n = a.n) &&
          decide (b.fold = a.fold) && decide (dRowMask y = dRowMask d) && !a.imp
        | none => false)
      ok && chainsOk (some d) r
    else chainsOk prev r

/-- VECTOR conditions of R139 and R141 item 1. -/
def vectorOk (p : Programs) (t : TileIx) (d : BitVec 512) : Bool :=
  decide (dField d 0x10 0 10 < p.elem[t].length) && decide (1 ≤ dField d 0x10 10 11) && decide (dField d 0x10 10 11 ≤ 1024) &&
  decide (1 ≤ dField d 0x14 0 16) && decide (dField d 0x18 0 28 % 64 = 0) && decide (dField d 0x1C 0 24 % 64 = 0) &&
  ((List.range 4).all fun k => decide (dField d (0x20 + 8 * k) 0 28 % 64 = 0) && decide (dField d (0x24 + 8 * k) 0 24 % 64 = 0))

/-- HPG of a PRISM descriptor (R196). -/
def dHpg (d : BitVec 512) : Nat := dField d 0x18 16 8

/-- PRISM conditions of R196 and R197 items 1 to 5; HPG itself is R2's (shapesAgree). -/
def prismOk (y : Part) (d : BitVec 512) : Bool :=
  let q := prismOf d
  let rots := ((partBody y.im y.part SecBody.rotary?).getD []).length
  (y.withGeo fun g => decide (q.layer < g.layersP) && decide (q.gFirst + q.gCount ≤ g.groupsP)) && decide (1 ≤ q.gCount) &&
  decide (q.gCount * dHpg d ≤ 128 * 32) && (fp32 q.scale).isFin && Num.zero.lt (fp32 q.scale) &&
  (!q.rotEn || decide (q.rot < rots)) && (!(decide (q.qForm = 1) || decide (q.outForm = 1)) || decide (q.qOff % 64 = 0)) &&
  decide (q.qForm ≠ 3) && decide (q.outForm ≠ 3) && decide (q.qAddr % 64 = 0) && decide (q.qStride % 64 = 0) &&
  decide (q.outAddr % 64 = 0) && decide (q.outStride % 64 = 0) && decide (q.statAddr % 64 = 0) &&
  (decide (q.op = 2) == decide (q.outTiles = 0)) && (decide (q.op = 3) == decide (q.importCount ≠ 0))

/-- APPEND conditions of R165 and R166. -/
def appendOk (g : Geometry) (d : BitVec 512) : Bool :=
  let a := appendOf d
  let bytes := (if a.fp then 4 else 2) * a.gCount * g.headDim
  let off (e : Nat) : Nat := (if a.fp then 4 else 2) * e
  decide ((dLayer d).toNat < g.layersP) && decide (a.gFirst + a.gCount ≤ g.groupsP) && decide (1 ≤ a.gCount) && decide (a.gCount ≤ 128) &&
  decide (off a.kOff + bytes ≤ a.stride) && decide (off a.vOff + bytes ≤ a.stride) && decide (a.src % 64 = 0) && decide (a.stride % 64 = 0) &&
  decide (a.kOff % 32 = 0) && decide (a.vOff % 32 = 0) && decide (dWaitMode d ≤ 1) && decide (dDoneMode d ≤ 1)

/-- FETCH conditions of R277 items 1, 2, 4 and 5. -/
def fetchOk (y : Part) (t : TileIx) (d : BitVec 512) : Bool :=
  let f := fetchOf d
  match y.im.sections[f.sec]? with
  | some x =>
    inPart y.part x && (decide (x.kind = 0) || decide (x.kind = 9)) && (decide (f.idx = 0) || decide (16 ≤ f.idx)) && decide (1 ≤ f.length) &&
    (decide (f.idx ≠ 0) || decide (f.offset + f.length ≤ x.length.toNat)) && decide (f.staged ≤ f.length) && decide (f.spAddr % 4096 = 0) &&
    decide (f.staged % 4096 = 0) && decide (f.spAddr + (if dOp d = 2 then f.length else f.staged) ≤ y.p.spSpan[t])
  | none => false

/-- Streams bound and consumed in list order (R277 item 6), and the entries a rescale block targets (R96). -/
def streamsOk (resident : Nat) : List (Nat × Bool) → List (BitVec 512) → Bool
  | _, [] => true
  | bound, d :: r =>
    if dClass d = 4 ∧ dOp d = 1 then streamsOk resident (bound ++ [((fetchOf d).stream, (fetchOf d).rsLoad)]) r
    else if dClass d = 1 then
      let a := arrayOf d
      match bound.find? fun b => decide (b.1 = a.stream) with
      | some b => (!b.2 || decide (resident ≤ a.rsIndex)) && streamsOk resident (dropFirst (fun b => decide (b.1 = a.stream)) bound) r
      | none => false
    else streamsOk resident bound r

/-- Monitors of a tile's EXCHANGE NARROW descriptors (R103). -/
def monsOf (l : List (BitVec 512)) : List Nat := (l.filter fun d => decide (dClass d = 5) && decide (dOp d = 1)).map fun d => dField d 0x28 0 9

/-- The conditions of one descriptor on a tile. -/
def descOk (y : Part) (t : TileIx) (d : BitVec 512) : Bool :=
  descHeadOk y.p d && match dClass d with
    | 1 => arrayOk y.p t d
    | 2 => vectorOk y.p t d
    | 3 => prismOk y d
    | 4 => fetchOk y t d
    | 6 => y.withGeo fun g => appendOk g d
    | _ => true

/-- The PRISM descriptors of the four lists agree (R197 item 6). -/
def prismsAgree (p : Programs) : Bool :=
  let key (t : TileIx) := (p.lists[t].filter fun d => decide (dClass d = 3)).map fun d => (dLayer d, dOp d, dRowMask d, d.extractLsb' 128 384)
  decide (key 1 = key 0) && decide (key 2 = key 0) && decide (key 3 = key 0)

/-! ## Element programs (R141, R142) -/

/-- The instructions of a program, from depth n of the compress stack (R141 items 2 to 8). -/
def programOk : Nat → Nat → List (BitVec 64) → Bool
  | n, _, [] => decide (n = 0)
  | n, 0, _ => decide (n = 0)
  | n, k + 1, w :: r =>
    let op := fld w 56 8
    vfOk op (vfOf w) &&
    (if op = 0 then decide (n = 0)
     else if op = 0x48 then decide (n < 2) && programOk (n + 1) k r
     else if op = 0x4B then decide (0 < n) && programOk (n - 1) k r
     else if op = 0x49 ∨ op = 0x4A then decide (0 < n) && programOk n k r
     else programOk n k r)

/-! ## The other sections -/

/-- Geometry ranges and agreement with the shape (R158). -/
def geometryOk (h : Shape) (g : Geometry) : Bool :=
  decide (1 ≤ g.layersP) && decide (g.layersP ≤ 256) && decide (g.layersP ≤ h.layers) && decide (1 ≤ g.groupsP) && decide (g.groupsP ≤ 128) &&
  decide (g.groupsP ≤ h.kvGroups) && decide (g.headDim = h.headDim) &&
  ((decide (g.kvFmt = 0) && h.kvK8) || (decide (g.kvFmt = 1) && h.kvK4))

/-- A rotary table keeps R202. -/
def rotaryOk (d : Nat) (t : RotTable) : Bool :=
  decide (2 ≤ t.rotDim) && decide (t.rotDim ≤ d) && decide (t.rotDim % 2 = 0) && t.reservedZero && decide (t.freq.length = t.rotDim / 2) &&
  (t.freq.all fun x => (fp32 x).isFin && Num.zero.le (fp32 x))

/-- The Lens section keeps R223. -/
def lensOk (y : Part) (e : List (BitVec 32)) : Bool :=
  (y.withGeo fun g => decide (e.length = g.layersP) && decide (g.headDim ≠ 256)) && (e.all fun x => decide (fld x 6 26 = 0)) &&
  ((List.finRange 4).all fun t => y.p.lists[t].all fun d => decide (dClass d ≠ 3) ||
    (let q := prismOf d; let x := e.getD q.layer 0; decide (fld x 0 4 = q.rot) && (bit x 4 == q.rotEn)))

/-- The speculation section keeps R236. -/
def specOk (p : Programs) (d : SpecDecl) : Bool :=
  decide (d.heads ≤ 4) && decide (d.ngramEn ≤ 1) && decide (d.maxNodes ≤ 31) &&
  ((List.range 4).all fun k => let w := d.width.getD k 0; if k < d.heads then decide (1 ≤ w) && decide (w ≤ 4) else decide (w = 0)) &&
  (decide (d.heads = 0) || (decide (d.draftAddr % 64 = 0) && (List.finRange 4).all fun t =>
    !(p.lists[t].any fun x => decide (dClass x = 7) && decide (dOp x = 4)) || decide (d.draftAddr + 2048 ≤ p.spSpan[t])))

/-- A monitor's thresholds keep R103. -/
def monitorOk (m : BitVec 32 × BitVec 32) : Bool :=
  !(fp32 m.1).isNan && Num.zero.lt (fp32 m.1) && !(fp32 m.2).isNan && Num.le (.fin false 1 0) (fp32 m.2)

/-- What the step programs declare keeps R96, R138, R278 and R287. -/
def spansOk (im : Image) (p : Programs) : Bool :=
  ((List.finRange 4).all fun t => decide (p.rsSpan[t] ≤ 65536) && decide (p.rsResident[t] ≤ p.rsSpan[t])) &&
  ((List.finRange 5).all fun h => decide (p.syncSpan[h] ≤ 1024)) &&
  (!(im.sections.any fun x => decide (x.tier = 1)) || (decide (2 ≤ p.windowSlots) && decide (p.windowSlots ≤ 8)))

/-- The lists of a part's programs keep R33, R72 to R277. -/
def listsOk (y : Part) : Bool :=
  ((List.finRange 4).all fun t =>
    (y.p.lists[t].all (descOk y t)) && decide ((y.p.lists[t].filter dLast).length = 1) && chainsOk none y.p.lists[t] &&
    streamsOk y.p.rsResident[t] [] y.p.lists[t] && (y.p.elem[t].all (programOk 0 64))) && prismsAgree y.p

/-- Every WINDOWED section of the part is named by the FETCH descriptors of exactly one tile (R277 item 3). -/
def windowedOnce (y : Part) (i : Nat) (x : Section) : Bool :=
  !(inPart y.part x && decide (x.tier = 1)) ||
  decide (((List.finRange 4).filter fun t => y.p.lists[t].any fun d => decide (dClass d = 4) && decide ((fetchOf d).sec = i)).length = 1)

/-- The monitors named lie below the count and in one tile's list each (R103). -/
def monsOk (y : Part) : Bool :=
  let n := ((partBody y.im y.part SecBody.monitors?).getD []).length
  (List.finRange 4).all fun t => (monsOf y.p.lists[t]).all fun m => decide (m < n) &&
    (List.finRange 4).all fun u => decide (u = t) || !(monsOf y.p.lists[u]).contains m

/-- Index of the first section of a list that satisfies p. -/
def firstSec (p : Nat → Section → Bool) : Nat → List Section → Option Nat
  | _, [] => none
  | i, x :: r => if p i x then some i else firstSec p (i + 1) r

/-- The check of one section, by its content, as a part that has it sees it. -/
def sectionOk (y : Part) (i : Nat) (x : Section) : Bool :=
  !inPart y.part x || (windowedOnce y i x && match x.body with
    | .programs p => let z : Part := { y with p := p }; spansOk y.im p && listsOk z && monsOk z
    | .scales m => (List.finRange 4).all fun t => m[t].all fun v => (fp32 v).isFin
    | .geometry g => geometryOk y.im.shape g
    | .rotary ts => decide (ts.length ≤ 16) && (y.withGeo fun g => ts.all (rotaryOk g.headDim))
    | .lens e => lensOk y e
    | .speculation d => specOk y.p d
    | .monitors l => l.all monitorOk
    | _ => true)

/-- No step programs. -/
def noPrograms : Programs :=
  { lists := Vector.replicate 4 [], elem := Vector.replicate 4 [], rsSpan := Vector.replicate 4 0, rsResident := Vector.replicate 4 0,
    opcSpan := Vector.replicate 4 0, progSpan := Vector.replicate 4 0, spSpan := Vector.replicate 4 0,
    syncSpan := Vector.replicate 5 0, windowSlots := 0 }

/-- A part of an image as the checks see it. -/
def partOf (im : Image) (n : Nat) : Part :=
  { im := im, part := n, geo := imageGeometry im n, p := (imagePrograms im n).getD noPrograms }

/-- The parts whose sections are checked: this package's own, and every other that a section names (R33, R96, R103, R223, R270:
phase 1 reads and checks every section of the image). -/
def partsOf (im : Image) (own : Nat) : List Nat :=
  (own :: (im.sections.filter fun x => decide (x.part ≠ 255)).map fun x => x.part.toNat).eraseDups

/-- One descriptor agrees with the shape, for the limits of R2 that R33 and R197 do not hold: the query heads of a group are HPG,
one number for every group, and a head slice lies within the largest vocabulary. -/
def descShapeOk (h : Shape) (d : BitVec 512) : Bool :=
  (decide (dClass d ≠ 3) || (decide (1 ≤ dHpg d) && decide (dHpg d ≤ 128) && decide (dHpg d * h.kvGroups = h.queryHeads))) &&
  (decide (dClass d ≠ 7 ∨ dOp d ≠ 2) || (decide (1 ≤ dField d 0x1C 0 19) && decide (dField d 0x18 0 19 + dField d 0x1C 0 19 ≤ 262144)))

/-- The section's descriptors agree with the shape (R2). -/
def shapesAgree (h : Shape) (x : Section) : Bool :=
  match x.body with
  | .programs p => (List.finRange 4).all fun t => p.lists[t].all (descShapeOk h)
  | _ => true

/-- Phase 1 of MODEL_INSTALL (R270): the status of the first failing check, the section at fault (0xFFFF for header and
table) and the offset where the spec fixes it. -/
def installCheck (im : Image) (len : BitVec 64) (part : Nat) : Option (BitVec 8 × Nat × Option Nat) :=
  match headerBad im len with
  | some o => some (0x22, 0xFFFF, some o)
  | none =>
    match firstSec (fun _ x => entryBad im x) 0 im.sections with
    | some i => some (0x22, 0xFFFF, some (4096 + 32 * i))
    | none =>
      match overlapAt [] im.sections 0 with
      | some i => some (0x22, i, none)
      | none =>
        if !shapeOk im.shape then some (0x20, 0xFFFF, none)
        else match firstSec (fun _ x => !shapesAgree im.shape x) 0 im.sections with
        | some i => some (0x20, i, none)
        | none =>
          let geos := im.sections.filter fun x => inPart part x && decide (x.kind = 4)
          let pos (k : BitVec 8) : Nat := (im.sections.findIdx? fun x => inPart part x && decide (x.kind = k)).getD 0xFFFF
          if geos.length ≠ 1 then some (0x22, pos 4, none)
          else match imagePrograms im part with
            | some _ =>
              (firstSec (fun i x => (partsOf im part).any fun n => !sectionOk (partOf im n) i x) 0 im.sections).map fun i => (0x22, i, none)
            | none => some (0x22, pos 1, none)

/-! ## Phase 2: weights and Ploryn blocks (R52, R96, R125) -/

/-- A run of weight tiles at an offset of a section holds no special scale and no forbidden code (R52). -/
def tensorOk (x : Section) (t : TensorDecl) : Bool :=
  let c := secCells x
  let w := wBits t.fmt
  let tiles := (t.beats + 127) / 128
  (decide (t.group = 32) || (decide (t.fmt < 3) && (decide (t.group = 64) || decide (t.group = 128)))) && decide (t.fmt ≤ 8) &&
  ((List.range tiles).all fun i =>
    let b := min 128 (t.beats - 128 * i)
    let base := wTileStart t.cells t.group w t.zp i t.offset
    let groups := b * 16 / t.group
    let zBytes := (groups * w + 7) / 8
    let cBase := base + t.cells * groups + (if t.zp then t.cells * zBytes else 0)
    ((List.range (t.cells * groups)).all fun j => decide (getByte c (base + j) ≠ 255)) &&
    ((List.range (b * t.cells)).all fun j =>
      let s := getBytes c (cBase + j * (2 * w)) (2 * w)
      (List.range 16).all fun e => !wForbidden t.fmt (codeAt w s e)))

/-- A block's bytes decode (R122, R125). -/
def blockClean (b : Bytes) : Bool :=
  match plorynDecode (leNat b) with
  | .malformed _ _ => false
  | _ => true

/-- Every block of a PLORYN section is well formed (R125): the section holds blocks from its start, one behind the other (log entry
39). A block of zero bytes is malformed, so every block has a byte that is listed, and those that have are decoded. -/
def plorynOk (x : Section) : Bool :=
  let c := secCells x
  let is := (c.map fun e => e.1 / 56).eraseDups
  !x.ploryn || (decide (x.length.toNat / 56 ≤ (is.filter fun i => decide (i < x.length.toNat / 56)).length) &&
    is.all fun i => decide (x.length.toNat / 56 ≤ i) || blockClean (getBytes c (56 * i) 56))

/-- The multipliers of a tile's rescale blocks are finite (R96): the block of each range a FETCH can name, as long as the ARRAY
descriptor that consumes that FETCH's stream has outputs. -/
def blocksOk (y : Part) (l : List (BitVec 512)) : Bool :=
  (fetchPairs l).all fun z =>
    let f := fetchOf z.1
    if f.rsLoad then
      let n := z.2.n
      match y.im.sections[f.sec]? with
      | some x =>
        let steps := if f.idx = 0 ∨ f.units = 0 then 1 else (x.length.toNat - f.offset - f.length) / f.units + 1
        (List.range steps).all fun i => (List.range n).all fun j =>
          (fp32 (BitVec.ofNat 32 (getLE (secCells x) (f.offset + i * f.units + 4 * j) 4))).isFin
      | none => true
    else true

/-- Phase 2 of MODEL_INSTALL (R52, R96, R125): the first section at fault. -/
def writeCheck (im : Image) (part : Nat) : Option Nat :=
  match firstSec (fun i x => inPart part x && (!plorynOk x ||
      im.tensors.any fun t => decide (t.sec = i) && !tensorOk x t)) 0 im.sections with
  | some i => some i
  | none =>
    let y := partOf im part
    if (List.finRange 4).all fun t => blocksOk y y.p.lists[t] then none
    else im.sections.findIdx? fun x => inPart part x && decide (x.kind = 0)

end Sys2Proof.Machine
end

