-- ==== Sys2Proof/Machine/Loop.lean ====
section
/-!
DEFINITION. Sys2Proof/Machine/Loop.lean: the LOOP descriptors (R32, R36 to R43, R156, R237 to R246).
-/
namespace Sys2Proof.Machine

/-! ## What every LOOP op shares (R32, R156) -/

/-- SRC of a LOOP descriptor. -/
def loopSrc (d : BitVec 512) : Nat := dField d 0x10 0 32
/-- VOCAB_BASE. -/
def loopBase (d : BitVec 512) : Nat := dField d 0x18 0 19
/-- VOCAB_COUNT. -/
def loopCount (d : BitVec 512) : Nat := dField d 0x1C 0 19

/-- The context of a LOOP descriptor (R152, R156): PROG holds the OP. -/
def loopCtx (c : DCtx) (k : Cohort) (d : BitVec 512) (op : Nat) : VecCtx :=
  { model := some c.model, cohort := c.cohort, step := k.step, layer := dLayer d, rowMask := effMask k d,
    prog := BitVec.ofNat 10 op, isLoop := true }

/-- What a LOOP descriptor leaves in the engine (R151, R156): its flags gathered, with a place that the spec leaves open,
and v56–v63, t0–t15 and p1–p7 open (log entry 35). -/
def State.loopLeave (s : State) (t : TileIx) (f : BitVec 5) : State :=
  let a := s.draw
  let b := a.2.draw
  let n := b.2.fresh
  let s := b.2.modVec t fun v => { v with
    flags := if f = 0 then [] else [(0, f)]
    first := if f = 0 then none else some (0, a.1 % 64, b.1 % 1024) }
  { (s.gatherFlags t).modVec t fun v => { v with
      hi := [], hiMark := some n, tMark := some n
      p := #v[v.p[0], Config.freePred n 1, Config.freePred n 2, Config.freePred n 3, Config.freePred n 4, Config.freePred n 5,
        Config.freePred n 6, Config.freePred n 7] } with fresh := n + 1 }

/-- A LOOP descriptor (R32, R156): once its WAIT is settled the op g runs on the effective rows; DONE follows. -/
def State.loopRun (s : State) (c : DCtx) (d : BitVec 512) (op : Nat)
    (g : State → Cohort → List (Fin 32) → State × BitVec 5) : State :=
  let r := s.startDesc c d 1
  match r.1 with
  | none => r.2
  | some k =>
    let s1 := r.2.vecBegin c.tile (loopCtx c k d op)
    let x := g s1 k ((maskRows (effMask k d)).filter fun r => decide (k.rows[r].kind ≠ 0))
    (x.1.loopLeave c.tile x.2).endDesc c d 1

/-- The row is homed on this package (R26). -/
def State.homeRow (s : State) (k : Cohort) (r : Fin 32) : Bool :=
  k.rows[r].handle.isOwn && (s.seq? k.rows[r].handle).isSome

/-- The sequence runs a draft tree in the cohort (R241). -/
def hasTree (k : Cohort) (h : Key) : Bool :=
  (List.finRange 32).any fun r => k.mask.getLsbD r && decide (k.rows[r].handle = h) && decide (k.rows[r].kind = 3)

/-- Tokens in the model's vocabulary. -/
def State.vocab (s : State) (m : SlotIx) : Nat := match s.image? m with | some im => im.shape.vocab | none => 0

/-- The speculation section of a model (R236). -/
def State.spec? (s : State) (m : SlotIx) : Option SpecDecl := s.ownBody m SecBody.speculation?

/-- The model builds and uses n-gram tables (R238). -/
def State.ngramEn (s : State) (m : SlotIx) : Bool := match s.spec? m with | some d => decide (d.ngramEn = 1) | none => false

/-! ## EMBED (R32) -/

/-- LOOP_EMBED (R32): each row's embedding row is read from the image into SRC (log entry 15). -/
def execLoopEmbed (c : DCtx) (d : BitVec 512) (loc : EmbedLoc) (s : State) : Host.Outcome State Fault Refusal :=
  done s (s.loopRun c d 1 fun s k rows =>
    (rows.foldl (fun s r =>
      s.scrPut c.tile (s.spBase c.model c.tile + loopSrc d + r.val * loc.rowBytes)
        (s.secBytes c.model loc.sec (loc.offset + k.rows[r].token.toNat * loc.rowBytes) loc.rowBytes)) s, 0))

/-! ## CANDIDATES (R36 steps 1 to 3) -/

/-- The logits of one row of this package's head slice (log entry 14). -/
def State.logits (s : State) (c : DCtx) (d : BitVec 512) (r : Fin 32) : List (Nat × BitVec 32) :=
  let at0 := s.spBase c.model c.tile + loopSrc d + 4 * (r.val * loopCount d)
  (List.range (loopCount d)).map fun i => (loopBase d + i, BitVec.ofNat 32 (leNat (s.scrGet c.tile (at0 + 4 * i) 4)))

/-- One row's candidates and log-sum-exp under its sequence's policy (R36 steps 1 to 3), and the lane flags. -/
def State.rowCands (s : State) (c : DCtx) (d : BitVec 512) (k : Cohort) (r : Fin 32) : Cand × BitVec 5 :=
  let p := match s.seq? k.rows[r].handle with | some q => q.policy | none => {}
  let xs := (s.logits c d r).map fun x => let y := scaledLogit p x.1 x.2; ((x.1, y.1), y.2)
  let vs := xs.map (·.1)
  let lse := logSumExp (vs.map (·.2))
  ({ model := c.model, cohort := c.cohort, row := r, cands := (sortBy candBefore vs).take 1024,
     lse := lse.1, nan := nanKind (vs.map (·.2)) }, xs.foldl (fun a x => a ||| x.2) lse.2)

/-- Bytes of one row's exported candidates (log entry 122): up to 1,024 token ids with their logits, the log-sum-exp, their number and
the NaN found. -/
def candBytes (x : Cand) : Bytes :=
  let l := x.cands.flatMap fun c => toLE 4 c.1 ++ toLE 4 c.2.toNat
  l ++ List.replicate (8192 - l.length) 0 ++ toLE 4 x.lse.toNat ++ toLE 4 x.cands.length ++ toLE 4 x.nan

/-- DST of a LOOP descriptor. -/
def loopDst (d : BitVec 512) : Nat := dField d 0x14 0 32

/-- The candidates of a row exported to DST (R32; log entry 122). -/
def State.exportCand (s : State) (c : DCtx) (d : BitVec 512) (x : Cand) : State :=
  s.scrPut c.tile (s.spBase c.model c.tile + loopDst d + 8256 * x.row.val) (candBytes x)

/-- LOOP_CANDIDATES (R32, R36 steps 1 to 3): for every sampled row; what it keeps is exported to DST. -/
def execLoopCandidates (c : DCtx) (d : BitVec 512) (s : State) : Host.Outcome State Fault Refusal :=
  done s (s.loopRun c d 2 fun s k rows =>
    let rs := (rows.filter fun r => k.rows[r].sample).map (s.rowCands c d k)
    let old := s.cands.filter fun x => !(decide (x.model = c.model) && decide (x.cohort = c.cohort) &&
      rs.any fun y => decide (y.1.row = x.row))
    (rs.foldl (fun s x => s.exportCand c d x.1) { s with cands := old ++ rs.map (·.1) }, rs.foldl (fun a x => a ||| x.2) 0))

/-! ## SAMPLE (R36 steps 4 to 8, R37 to R39) -/

/-- The packages' log-sum-exp values as that of the whole vocabulary (R39). -/
def mergeLse (l : List (BitVec 32)) : Flagged := match l with | [x] => (x, 0) | l => logSumExp l

/-- One row sampled from every package's candidates: the kept candidates, for a row without a tree its token, and the lane flags. -/
def sampleRow (p : Policy) (m : SlotIx) (c : CohIx) (r : Fin 32) (pos : Nat) (tree : Bool) (own : Cand) (peers : List PeerCand) :
    Sampled × BitVec 5 :=
  let nan := (peers.map (·.nan)).foldl max own.nan
  let l := (sortBy candBefore (own.cands ++ peers.flatMap (·.cands))).take (polTopK p)
  let none := l.all fun x => decide (x.2 = 0xFF800000)
  let fault : BitVec 8 := if nan = 2 then 0x11 else if nan = 1 then 0x10 else if none then 0x10 else 0
  let w := weights l
  let kept := if polGreedy p then (l.take 1).map fun x => (x.1, 0x3F800000) else keptOf p w
  let s' := sumW kept
  let tok := if polGreedy p then l.head?.map (·.1)
    else pickOver (mul32 (philoxU (polSeed p) (pos + 1) 0 0) s') 0 kept
  let lse := mergeLse (own.lse :: peers.map (·.lse))
  ({ model := m, cohort := c, row := r, kept := kept, sum := s', token := if tree && !polGreedy p then .none else tok, logits := l,
     lse := lse.1, fault := fault }, lse.2 ||| if polGreedy p then 0 else weightFlags w)

/-- A reached row's fault ends its request (R37, R245). -/
def State.sampleFault (s : State) (t : TileIx) (h : Key) (m : SlotIx) (f : BitVec 8) : State :=
  if f = 0 then s
  else (s.addCause h f 0).logError (if f = 0x11 then 0x09 else 0x0A) t.val 1 h.fn.val 0 m.val 0

/-- LOOP_SAMPLE (R32, R36 to R39): on the home package, for every sampled row whose candidates are there. -/
def execLoopSample (c : DCtx) (d : BitVec 512) (peers : List PeerCand) (s : State) : Host.Outcome State Fault Refusal :=
  done s (s.loopRun c d 3 fun s k rows =>
    let rs := (rows.filter fun r => k.rows[r].sample && s.homeRow k r).filterMap fun r =>
      match s.cands.find? fun x => decide (x.model = c.model) && decide (x.cohort = c.cohort) && decide (x.row = r) with
      | some own =>
        let p := match s.seq? k.rows[r].handle with | some q => q.policy | none => {}
        some (sampleRow p c.model c.cohort r (nodePos k r) (hasTree k k.rows[r].handle) own
          (peers.filter fun y => decide (y.row = r)))
      | none => none
    let old := s.sampled.filter fun x => !(decide (x.model = c.model) && decide (x.cohort = c.cohort) &&
      rs.any fun y => decide (y.1.row = x.row))
    let s := { s with sampled := old ++ rs.map (·.1) }
    (rs.foldl (fun s x => if hasTree k k.rows[x.1.row].handle then s else s.sampleFault c.tile k.rows[x.1.row].handle c.model x.1.fault) s,
      rs.foldl (fun a x => a ||| x.2) 0))

/-! ## ACCEPT (R240, R243 to R245) -/

/-- What SAMPLE left for a row. -/
def State.sampled? (s : State) (m : SlotIx) (c : CohIx) (r : Fin 32) : Option Sampled :=
  s.sampled.find? fun x => decide (x.model = m) && decide (x.cohort = c) && decide (x.row = r)

/-- Children of a row in its draft tree, ascending (R241). -/
def childRows (k : Cohort) (h : Key) (r : Fin 32) : List (Fin 32) :=
  (maskRows k.mask).filter fun y =>
    decide (k.rows[y].handle = h) && decide (k.rows[y].kind = 3) && decide (k.rows[y].parent.toNat = r.val)

/-- One node of the sampled walk (R244): the child accepted, or the candidates and the sum left and whether a child was
rejected. -/
def walkNode (k : Cohort) (seed pos : Nat) :
    Nat → List (Fin 32) → List (Nat × BitVec 32) → BitVec 32 → Bool → Option (Fin 32) × List (Nat × BitVec 32) × BitVec 32 × Bool
  | _, [], l, s, rej => (none, l, s, rej)
  | i, ch :: rest, l, s, rej =>
    let x := k.rows[ch].token.toNat
    let live := l.filter fun c => decide (c.2 ≠ 0)
    let px := ((l.find? fun c => decide (c.1 = x)).map (·.2)).getD 0
    let only := decide (live.map (·.1) = [x])
    let u := philoxU seed (pos + 1) i 1
    if only || lt32 (mul32 u s) px then (some ch, l, s, rej)
    else walkNode k seed pos (i + 1) rest (l.map fun c => if c.1 = x then (c.1, 0) else c) (sub32 s px) true

/-- The walk from a row (R243, R244): accepted rows, the row of the final token, the final token, and a fault met. -/
def State.walk (s : State) (k : Cohort) (p : Policy) (h : Key) :
    Nat → Fin 32 → List (Fin 32) → List (Fin 32) × Fin 32 × Option Nat × BitVec 8
  | 0, r, acc => (acc, r, none, 0)
  | n + 1, r, acc =>
    match s.sampled? k.model k.index r with
    | none => (acc, r, none, 0)
    | some x =>
      if x.fault ≠ 0 then (acc, r, none, x.fault)
      else
        let ch := childRows k h r
        if polGreedy p then
          match ch.find? fun y => decide (some k.rows[y].token.toNat = x.token) with
          | some y => s.walk k p h n y (acc ++ [y])
          | none => (acc, r, x.token, 0)
        else
          let pos := nodePos k r
          let w := walkNode k (polSeed p) pos 0 ch x.kept x.sum false
          match w.1 with
          | some y => s.walk k p h n y (acc ++ [y])
          | none =>
            let u := philoxU (polSeed p) (pos + 1) 0 (if w.2.2.2 then 2 else 0)
            (acc, r, pickOver (mul32 u w.2.2.1) 0 (w.2.1.filter fun c => decide (c.2 ≠ 0)), 0)

/-- A row's draft record candidate for head j (from 1) and index i, when usable (R237). -/
def State.draftCand (s : State) (c : DCtx) (d : SpecDecl) (row : Fin 32) (j i : Nat) : Option Nat :=
  let w := leNat (s.scrGet c.tile (s.spBase c.model c.tile + d.draftAddr + 64 * row.val + 16 * (j - 1) + 4 * i) 4)
  if bits w 31 1 = 1 ∧ i < d.width.getD (j - 1) 0 ∧ w % 2 ^ 18 < s.vocab c.model then some (w % 2 ^ 18) else none

/-- Candidate 0 of heads 1, 2, … before the first unusable one (R240). -/
def State.headPath (s : State) (c : DCtx) (d : SpecDecl) (row : Fin 32) : Nat → Nat → List Nat
  | 0, _ => []
  | n + 1, j => match s.draftCand c d row j 0 with | some t => t :: s.headPath c d row n (j + 1) | none => []

/-- The candidate paths of R240, in order. -/
def State.draftPaths (s : State) (c : DCtx) (d : SpecDecl) (row : Fin 32) (hit : Option (List Nat)) : List (List Nat) :=
  let main := s.headPath c d row d.heads 1
  let side := (List.range d.heads).flatMap fun j => (List.range (d.width.getD j 0 - 1)).filterMap fun i =>
    if main.length < j then none else (s.draftCand c d row (j + 1) (i + 1)).map fun t => main.take j ++ [t]
  (match hit with | some l => [l] | none => []) ++ (if d.heads = 0 then [] else main :: side)

/-- The draft tree for a sequence's next pass (R240). -/
def State.nextTree (s : State) (c : DCtx) (q : Seq) (row : Fin 32) : List Draft × Bool :=
  match s.spec? c.model with
  | none => ([], false)
  | some d =>
    if d.maxNodes = 0 then ([], false)
    else
      let hit := if d.ngramEn = 1 then ngramFind q.ngram q.tokens else none
      let ns := (s.draftPaths c d row hit).foldl (fun ns p => insertPath d.maxNodes ns 0 p) []
      (preorderTree ns, hit.isSome)

/-- Last position a sequence's class allows (R41, R231). -/
def State.lastPosition (s : State) (q : Seq) : Nat :=
  if q.relay then
    match s.sliceOf q.model with
    | some x => min (x.ring.length * 16777216 - 1) 268435455
    | none => 16777215
  else 16777215

/-- No spill can make room in a full page list before the next crossing (R231): one is under way and not yet written at its target,
or none could start at the last boundary. -/
def Seq.noSpill (q : Seq) : Bool := if q.spill.isSome then !q.spillDone else !q.spillRoom

/-- The position ends the sequence by R41, or by R231 when its last local page is full and no spill can start. -/
def State.lastAt (s : State) (q : Seq) (pos : Nat) : Bool :=
  decide (s.lastPosition q ≤ pos) ||
  (q.relay && q.noSpill && decide (pos % 256 = 255) && decide (pos / 256 + 1 - q.firstPage ≥ 65536))

/-- The pass of a sequence without a tree: the token its sampled row drew. -/
def State.plainPass (s : State) (k : Cohort) (r : Fin 32) : Option Pass :=
  match s.sampled? k.model k.index r with
  | some x => if x.fault ≠ 0 then none
    else x.token.map fun t => { root := k.rows[r].position.toNat, path := [], tokens := [(BitVec.ofNat 18 t, r)], nodes := 0 }
  | none => none

/-- The pass of a sequence with a tree, and the fault of a reached row (R243 to R245). -/
def State.treePass (s : State) (k : Cohort) (q : Seq) (root : Fin 32) : Option Pass × BitVec 8 :=
  let w := s.walk k q.policy q.handle 33 root []
  let p := k.rows[root].position.toNat
  let rows := root :: w.1
  let drafts := (w.1.map fun r => k.rows[r].token).zip rows
  let nodes := ((maskRows k.mask).filter fun r => decide (k.rows[r].handle = q.handle) && decide (k.rows[r].kind = 3)).length
  match w.2.2.1 with
  | some t => (some { root := p, path := w.1.map fun r => k.rows[r].position.toNat - p,
                      tokens := drafts ++ [(BitVec.ofNat 18 t, w.2.1)], nodes := nodes }, w.2.2.2)
  | none => (none, w.2.2.2)

/-- The tokens of a pass that are emitted, with row, DRAFTED, position and END_CAUSE (R40, R246). -/
def State.emits (s : State) (q : Seq) (p : Pass) : List (Nat × Fin 32 × Bool × Nat × Nat) :=
  let n := p.tokens.length
  emitList q.policy (s.lastAt q) (q.genToks.map (·.toNat)) (p.root + 1)
    ((p.tokens.zip (List.range n)).map fun y => (y.1.1.toNat, y.1.2, decide (y.2 + 1 < n)))

/-- An ending that comes before the stop rules in R409 waits for the boundary: the function's disabling, a PREEMPT whose buffer
fits, or a CANCEL. -/
def State.otherEnding (s : State) (q : Seq) : Bool :=
  s.fns[q.handle.fn].disabling || (q.pendPreempt.any fun x => s.swapFits q x.2) || !q.pendCancel.isEmpty

/-- ACCEPT of one sequence (R240, R243 to R245, R250). -/
def State.acceptSeq (s : State) (c : DCtx) (k : Cohort) (q : Seq) (root : Fin 32) : State :=
  let tree := hasTree k q.handle
  let w := if tree then s.treePass k q root else (s.plainPass k root, 0)
  let s := if tree then s.sampleFault c.tile q.handle c.model w.2 else s
  match w.1 with
  | none => s.modSeq q.handle fun q => { q with pass := none, tree := [] }
  | some p =>
    let st := bump (bump (bump s.specStat 42 22 p.nodes) 20 22 p.path.length) 0 20 1
    let s := { s with specStat := if p.nodes = 0 then s.specStat else st }
    let es := s.emits q p
    let ends := es.any fun e => decide (e.2.2.2.2 ≠ 0)
    let q' := es.foldl (fun q e => q.commit (s.ngramEn c.model) (some (BitVec.ofNat 18 e.1))) q
    let last := (es.getLast?.map fun e => e.2.1).getD root
    let t := if ends || s.otherEnding q || decide (q.ent = .consumed) then ([], false) else s.nextTree c q' last
    let s := { s with specSource := if t.2 then bump s.specSource 32 32 1 else s.specSource }
    s.modSeq q.handle fun q => { q with pass := some p, tree := t.1 }

/-- The root rows of the home sequences among rows: sampled rows that are no draft node. -/
def State.rootRows (s : State) (k : Cohort) (rows : List (Fin 32)) : List (Fin 32) :=
  rows.filter fun r => k.rows[r].sample && decide (k.rows[r].kind ≠ 3) && s.homeRow k r

/-- LOOP_ACCEPT (R32, R240, R243 to R245). Its products and differences are of weights, so it raises no lane flag (R156). -/
def execLoopAccept (c : DCtx) (d : BitVec 512) (s : State) : Host.Outcome State Fault Refusal :=
  done s (s.loopRun c d 4 fun s k rows =>
    ((s.rootRows k rows).foldl (fun s r => match s.seq? k.rows[r].handle with
      | some q => s.acceptSeq c k q r
      | none => s) s, 0))

/-! ## STOP_EMIT (R40 to R43, R246) -/

/-- The log-probability of a token in the distribution of a row (R39), with the lane flags raised. -/
def State.logprob (s : State) (k : Cohort) (r : Fin 32) (t : Nat) : Flagged :=
  match s.sampled? k.model k.index r with
  | some x => fSub (((x.logits.find? fun y => decide (y.1 = t)).map (·.2)).getD 0xFF800000, 0) (x.lse, 0)
  | none => (0, 0)

/-- An emission record without its PHASE (R42). -/
def emissionRecord (h : BitVec 32) (pos tok cause : Nat) (drafted : Bool) (lp : Option (BitVec 32)) : BitVec 128 :=
  pack 128 [(0, 32, h.toNat), (32, 28, pos), (64, 18, tok), (89, 1, b2n drafted), (90, 3, cause), (93, 1, b2n (decide (cause ≠ 0))),
    (94, 1, b2n lp.isSome), (96, 32, (lp.map (·.toNat)).getD 0)]

/-- STOP_EMIT of one sequence: records in position order, tokens committed, the ending status kept (R40 to R43). No record has
LAST set when another ending comes first in R409 (R42); once one has, the request's ending is decided (log entry 51). -/
def State.emitSeq (s : State) (k : Cohort) (q : Seq) (p : Pass) : State × BitVec 5 :=
  let en := s.ngramEn q.model
  let other := s.otherEnding q
  (s.emits q p).foldl (fun (a : State × BitVec 5) e =>
    let lp := if polLogprob q.policy then some (a.1.logprob k e.2.1 e.1) else none
    let cause := if other then 0 else e.2.2.2.2
    let s := a.1.putEmission q.handle.fn q.emitSet
      (emissionRecord q.handle.handle e.2.2.2.1 e.1 cause e.2.2.1 (lp.map (·.1))) true
    (s.modSeq q.handle fun q =>
      let q := q.commit en (some (BitVec.ofNat 18 e.1))
      { q with genToks := q.genToks ++ [BitVec.ofNat 18 e.1], slots := q.slots - 1, lastOut := q.lastOut || decide (cause ≠ 0)
               stopped := if e.2.2.2.2 = 0 then q.stopped else some (if e.2.2.2.2 ≤ 2 then 0x01 else 0x02) },
     a.2 ||| (lp.map (·.2)).getD 0)) (s, 0)

/-- LOOP_STOP_EMIT (R32, R40 to R43, R246); a request that a fault of this step ends emits nothing (R409). -/
def execLoopStopEmit (c : DCtx) (d : BitVec 512) (s : State) : Host.Outcome State Fault Refusal :=
  done s (s.loopRun c d 5 fun s k rows =>
    (s.rootRows k rows).foldl (fun (a : State × BitVec 5) r => match a.1.seq? k.rows[r].handle with
      | some q =>
        if !q.causes.isEmpty || q.stopped.isSome then a
        else match (if hasTree k q.handle then q.pass else a.1.plainPass k r) with
          | some p =>
            let b := a.1.emitSeq k q p
            (b.1.modSeq q.handle fun q => { q with pass := some p }, a.2 ||| b.2)
          | none => a
      | none => a) (s, 0))

/-! ## STEP_END (R32, R34) -/

/-- A row as it travels in a token message (R28; log entry 37). -/
def rowBytes (r : Row) : Bytes :=
  toLE 4 r.handle.handle.toNat ++ toLE 4 r.position.toNat ++ toLE 4 r.token.toNat ++
  toLE 4 (pack 32 [(0, 2, r.kind.toNat), (2, 1, b2n r.sample), (3, 5, r.parent.toNat), (8, 8, r.home.toNat)]).toNat

/-- The token ids this package's sequences accepted in the step and kept, and the tree of the next pass, as rows in position order
(R32, R241; log entry 37). -/
def State.tokenRows (s : State) (k : Cohort) : List Row :=
  (s.rootRows k (maskRows k.mask)).flatMap fun r => match s.seq? k.rows[r].handle with
    | none => []
    | some q => match q.pass with
      | none => []
      | some p =>
        let ts := (p.tokens.map (·.1)).take (q.tokens.length - (p.root + 1))
        let last := p.root + ts.length
        (ts.zip (List.range ts.length)).map (fun y =>
          { k.rows[r] with kind := 1, token := y.1, position := BitVec.ofNat 28 (p.root + 1 + y.2) }) ++
        (q.tree.zip (List.range q.tree.length)).map fun y =>
          { k.rows[r] with kind := 3, token := y.1.token, parent := BitVec.ofNat 5 y.1.parent, position := BitVec.ofNat 28 (last + y.2 + 1) }

/-- Causes that this package met for sequences homed elsewhere, as they travel to their home packages (R163, R218; log entry 37). -/
def State.causeRows (s : State) (k : Cohort) : List Row :=
  (rowHandles k 0xFFFFFFFF).flatMap fun h => match s.seq? h with
    | none => []
    | some q => if h.isOwn then [] else q.causes.map fun x =>
        { handle := h, token := x.1.zeroExtend 18, home := s.homeOf k.model h }

/-- LOOP_STEP_END (R32, R34): the accepted token ids go to every other member, the step-end signal to the leader. -/
def execLoopStepEnd (c : DCtx) (d : BitVec 512) (s : State) : Host.Outcome State Fault Refusal :=
  done s (s.loopRun c d 6 fun s k _ =>
    let data := (s.tokenRows k ++ s.causeRows k).flatMap rowBytes
    let s := match s.sliceOf c.model with
      | some x => (x.members.filter fun a => decide (a ≠ s.address)).foldl
          (fun (s : State) a => s.control x.id x.members x.fn.val 5 a data) s
      | none => s
    (s.modCohort c.model c.cohort fun k => { k with stepEnd := true }, 0)).cutLost

end Sys2Proof.Machine
end

