-- ==== Sys2Proof/Machine/Models.lean ====
section
/-!
DEFINITION. Sys2Proof/Machine/Models.lean: the commands on model slots and page pools (R95, R97, R138, R168, R220, R238, R252,
R268 to R274, R278, R281, R286, R287, R331, R398).
-/
namespace Sys2Proof.Machine

/-! ## Slots and checks (R269, R353) -/

/-- A slot number of a command, when it is one (R353 step 1). -/
def slotOf (n : BitVec 16) : Option SlotIx := if h : n.toNat < 64 then some ⟨n.toNat, h⟩ else none

/-- DETAIL of REFUSED_MALFORMED: the offset of the field at fault in the entry (R354). -/
def malformedAt (off : Nat) : BitVec 64 := BitVec.ofNat 64 off

/-- What every command on a model slot is checked for before its slot's state (R269, R353): the slot, or the status. -/
def slotCheck (e : Sub) (n : BitVec 16) : Except (BitVec 8 × BitVec 64) SlotIx :=
  match slotOf n with
  | none => .error (0x2E, malformedAt 0x10)
  | some m => if e.fn ≠ 0 then .error (0x1C, 0) else .ok m

/-- A command on a slot runs, or completes with its refusal. -/
def State.onSlot (s : State) (e : Sub) (n : BitVec 16) (opcode : BitVec 8) (g : SlotIx → State) : State :=
  match slotCheck e n with
  | .error r => s.completeAdmin e opcode r.1 r.2
  | .ok m => if s.models[m].claim.isSome then s.completeAdmin e opcode 0x21 else g m

/-! ## MODEL_INSTALL (R268 to R271, R446) -/

/-- This package's part of an image: its member index in a slice with as many members as the image has parts (log entry 10). -/
def State.ownPart (s : State) (im : Image) : Nat :=
  ((s.slices.find? fun x => decide (x.members.length = im.parts.toNat) && x.members.contains s.address).bind fun x =>
    x.members.findIdx? fun a => decide (a = s.address)).getD 0

/-- DETAIL of an image's refusal (R354): section and byte offset; an offset the spec does not fix is drawn (log entry 38). -/
def State.imageDetail (s : State) (sec : Nat) (off : Option Nat) : BitVec 64 × State :=
  match off with
  | some o => (pack 64 [(0, 16, sec), (16, 48, o)], s)
  | none => let a := s.draw; (pack 64 [(0, 16, sec), (16, 48, a.1)], a.2)

/-- The sections of a part written to flash in table order (R270 phase 2, R261, R262). -/
def State.writeImage (s : State) (m : SlotIx) (im : Image) (part : Nat) : State :=
  s.modFlash fun f => ((List.range im.sections.length).foldl (fun (f : Flash) i => match im.sections[i]? with
    | some x => if inPart part x then f.writeSection m i x else f
    | none => f) f)

/-- MODEL_INSTALL (R269 to R271, R446): check, then write; the commit follows as INSTALL_COMMIT. -/
def execModelInstall (e : Sub) (model : BitVec 16) (imageLen : BitVec 64) (readOk : Bool) (img : Image) (key : BitVec 512)
    (s : State) : Host.Outcome State Fault Refusal :=
  done s (s.onSlot e model 0x41 fun m =>
    if s.models[m].state ≠ .empty then s.completeAdmin e 0x41 0x21
    else if !readOk then (s.logHostRead e.fn m.val).completeAdmin e 0x41 0x2F
    else
      let part := s.ownPart img
      match installCheck img imageLen part with
      | some (st, sec, off) => let d := s.imageDetail sec off; d.2.completeAdmin e 0x41 st d.1
      | none =>
        if s.flash.freeMiB < imageMiB img (inPart part) then s.completeAdmin e 0x41 0x28
        else
          let s1 := (s.modModel m fun x => { x with
            state := .incomplete, claim := some e, image := some img, part := part, flashKey := some key }).writeImage m img part
          match writeCheck img part with
          | some sec => let d := s1.imageDetail sec none; (d.2.eraseSlot m).completeAdmin e 0x41 0x22 d.1
          | none => s1)

/-- INSTALL_COMMIT (R266, R270 phase 3): every write is acknowledged, the catalogue entry is written, the command completes. -/
def execInstallCommit (model : SlotIx) (s : State) : Host.Outcome State Fault Refusal :=
  match s.models[model].claim with
  | some e =>
    if s.models[model].state ≠ .incomplete then done s s
    else
      let s1 := s.modModel model fun x => { x with state := .installed, claim := none, catalogued := true }
      done s ((s1.modFlash fun f => { f with catalogueSeq := f.catalogueSeq + 1 }).completeAdmin e 0x41 0x00)
  | none => done s s

/-- A MODEL_INSTALL stops (R271, R355, R362): its slot is erased, and it completes with a status when one is given. -/
def State.stopInstall (s : State) (m : SlotIx) : State := if s.models[m].claim.isSome then s.eraseSlot m else s

/-! ## Carving (R95, R138, R168, R220, R238, R272, R278, R287) -/

/-- The lowest place with room for n in a space of size limit with spans in use (base, length). -/
def lowestFit (used : List (Nat × Nat)) (limit n : Nat) : Option Nat :=
  let free (b : Nat) : Bool := decide (b + n ≤ limit) && (n = 0 || used.all fun u => decide (u.2 = 0) || decide (b + n ≤ u.1) || decide (u.1 + u.2 ≤ b))
  (sortNats (0 :: used.map fun u => u.1 + u.2)).find? free

/-- The loaded slots with what their loads carved and their programs. -/
def State.loads (s : State) : List (Load × Programs) :=
  (List.finRange 64).filterMap fun m => match s.load? m, s.programs? m with
    | some l, some p => some (l, p)
    | _, _ => none

/-- A place on each of n homes, or none when some home lacks room. -/
def carve {n : Nat} (used : Fin n → List (Nat × Nat)) (limit need : Fin n → Nat) : Option (Vector Nat n) :=
  let l := (List.finRange n).map fun i => lowestFit (used i) (limit i) (need i)
  if l.all Option.isSome then some (Vector.ofFn fun i => ((l[i.val]?).bind id).getD 0) else none

/-- Bytes of a part's RESIDENT sections (R272). -/
def residentBytes (im : Image) (part : Nat) : Nat :=
  ((im.sections.filter fun x => inPart part x && decide (x.tier = 0)).map fun x => x.length.toNat).sum

/-- The tile whose list's FETCH descriptors name a WINDOWED section (R278). -/
def windowTile (p : Programs) (i : Nat) : Option TileIx :=
  (List.finRange 4).find? fun t => p.lists[t].any fun d => decide (dClass d = 4) && decide ((fetchOf d).sec = i)

/-- Bytes of one window slot on a tile (R278). -/
def slotBytes (im : Image) (part : Nat) (p : Programs) (t : TileIx) : Nat :=
  let mine := ((im.sections.zip (List.range im.sections.length)).filter fun y =>
    inPart part y.1 && decide (y.1.tier = 1) && decide (windowTile p y.2 = some t)).map (·.1)
  ((List.range 256).map fun l => ((mine.filter fun x => decide (x.layer.toNat = l)).map fun x => x.length.toNat).sum).foldl max 0

/-- Bytes of the Aperture window slots (R278). -/
def windowBytes (im : Image) (part : Nat) (p : Programs) : Nat :=
  if im.sections.any (fun x => inPart part x && decide (x.tier = 1)) then
    p.windowSlots * ((List.finRange 4).map (slotBytes im part p)).sum else 0

/-- Bytes a pool takes (R158, R162, R168, R220, R238): frames, node slots, summary slots, directories, list segments and n-gram
tables. -/
def State.poolBytes (s : State) (m : SlotIx) (frames maxSeq : Nat) : Nat :=
  match s.geometry? m with
  | none => 0
  | some g =>
    let sums := if (s.lens? m).isSome then g.layersP * g.groupsP * 320 else 0
    frames * (geoFrame g + 1088 + sums) + maxSeq * (1024 + (if s.ngramEn m then 16384 else 0)) +
      (if frames = 0 ∧ maxSeq = 0 then 0 else (2 * cdiv frames 256 + maxSeq) * 1024)

/-- DRAM bytes of a slot: its image's part and window, and its pool. -/
def State.modelBytes (s : State) (m : SlotIx) : Nat :=
  match s.load? m, s.image? m, s.programs? m with
  | some _, some im, some p => residentBytes im s.models[m].part + windowBytes im s.models[m].part p +
      s.poolBytes m s.models[m].pool.frames s.models[m].pool.maxSeq
  | _, _, _ => 0

/-- DRAM bytes in use on the package (R168, R272; log entry 17). -/
def State.dramUsed (s : State) : Nat := ((List.finRange 64).map s.modelBytes).sum

/-- DRAM of the package in bytes (R9). -/
def dramBytes : Nat := 2 ^ 40

/-- The bases a load gets (R95, R138, R272, R287), or the status of the first shortfall. -/
def State.carveLoad (s : State) (im : Image) (part : Nat) (p : Programs) :
    Except (BitVec 8) (Vector Nat 4 × Vector Nat 4 × Vector Nat 4 × Vector Nat 4 × Vector Nat 5) :=
  let ls := s.loads
  if dramBytes < s.dramUsed + residentBytes im part + windowBytes im part p then .error 0x29
  else match carve (fun t => ls.map fun x => (x.1.spBase[t], x.2.spSpan[t])) (fun _ => 192 * 2 ^ 20) (fun t => p.spSpan[t]) with
    | none => .error 0x29
    | some sp => match carve (fun t => ls.map fun x => (x.1.rsBase[t], x.2.rsSpan[t])) (fun _ => 65536) (fun t => p.rsSpan[t]) with
      | none => .error 0x24
      | some rs =>
        match carve (fun t => ls.map fun x => (x.1.opcBase[t], 4096 * x.2.opcSpan[t])) (fun _ => 1984 * 1024) (fun t => 4096 * p.opcSpan[t]),
            carve (fun t => ls.map fun x => (x.1.progBase[t], x.2.progSpan[t])) (fun _ => 1024) (fun t => p.progSpan[t]) with
        | some oc, some pr =>
          match carve (n := 5) (fun h => ls.map fun x => (x.1.syncBase[h] - homeBase h.val, 8 * x.2.syncSpan[h])) (fun h => homeCount h.val)
              (fun h => 8 * p.syncSpan[h]) with
          | none => .error 0x2A
          | some sy => .ok (sp, rs, oc, pr, Vector.ofFn fun h => homeBase h.val + sy[h])
        | _, _ => .error 0x25

/-! ## MODEL_LOAD and MODEL_UNLOAD (R104, R216, R272, R273, R281, R286, R287, R331, R398) -/

/-- Models LOADING or LOADED (R269). -/
def State.loadedCount (s : State) : Nat := ((List.finRange 64).filter fun m => (s.load? m).isSome).length

/-- The cycles both Prism costs start from, in quarter cycles (R216). -/
def startCost (im : Image) : Nat := if im.shape.headDim = 256 then 32 else 16

/-- The allotted words of a load, empty and carrying OWNER and TENANT (R287). -/
def allotWords (words : Sparse (BitVec 64)) (owner : Nat) (tenant : Fn) (base : Vector Nat 5) (p : Programs) : Sparse (BitVec 64) :=
  (List.finRange 5).foldl (fun w h => (List.range (8 * p.syncSpan[h])).foldl (fun w i =>
    sput 0 w (base[h] + i) (pack 64 [(58, 4, tenant.val), (48, 10, owner)])) w) words

/-- The drift monitors of a part of an image, as MODEL_LOAD leaves them (R104). -/
def freshMonitors (im : Image) (part : Nat) : List Monitor := ((partBody im part SecBody.monitors?).getD []).map fun _ => {}

/-- MODEL_LOAD carved (R272): the slot is LOADING. -/
def State.beginLoad (s : State) (m : SlotIx) (e : Sub) (x : Slice) (key : BitVec 256) (im : Image) (p : Programs)
    (b : Vector Nat 4 × Vector Nat 4 × Vector Nat 4 × Vector Nat 4 × Vector Nat 5) : State :=
  let l : Load := { sliceId := x.id, owner := x.fn, done := false, sub := e, spBase := b.1, rsBase := b.2.1, opcBase := b.2.2.1,
                    progBase := b.2.2.2.1, syncBase := b.2.2.2.2, prefixKey := key, monitors := freshMonitors im s.models[m].part,
                    window := List.replicate (if (s.windowLayers m).isEmpty then 0 else p.windowSlots) none, nextFill := 0, lateCount := 0,
                    lateTime := none,
                    costs := (List.range 32).foldl (fun c i => sput (0, 0) c i (startCost im, startCost im)) [], lost := false }
  let s := s.modModel m fun y => { y with state := .loading, load := some l, pool := {} }
  let o := s.bindOwner 1 x.fn m.val
  let s := o.2.modSync fun y => { y with words := allotWords y.words (o.1.getD 0) x.fn l.syncBase p }
  let s := { s with tiles := Vector.ofFn fun t => let y := s.tiles[t]
                                 { y with vec := { y.vec with opc := clearBytes y.vec.opc l.opcBase[t] (4096 * p.opcSpan[t]) } } }
  s.modPower fun w => { w with tileClk := if w.tileClk = 0 then 0x55 else w.tileClk }

/-- MODEL_LOAD (R269, R272, R331): checks, then carving; the reads end with LOAD_COMPLETE. -/
def execModelLoad (e : Sub) (model : BitVec 16) (sliceId : BitVec 16) (key : BitVec 256) (s : State) :
    Host.Outcome State Fault Refusal :=
  done s (s.onSlot e model 0x42 fun m =>
    if s.models[m].state ≠ .installed then s.completeAdmin e 0x42 0x21
    else if s.models[m].degraded then s.completeAdmin e 0x42 0x19
    else if 16 ≤ s.loadedCount then s.completeAdmin e 0x42 0x30
    else match s.slices.find? fun x => decide (x.id = sliceId), s.image? m, s.programs? m with
      | some x, some im, some p =>
        if x.state ≠ .active ∨ x.members.length ≠ im.parts.toNat then s.completeAdmin e 0x42 0x2C
        else match s.carveLoad im s.models[m].part p with
          | .error st => s.completeAdmin e 0x42 st
          | .ok b => s.beginLoad m e x key im p b
      | _, _, _ => s.completeAdmin e 0x42 0x2C)

/-- Everything a load carved is freed (R273, R281, R306); the operand-cache span is zeroed (R138). -/
def State.freeLoad (s : State) (m : SlotIx) : State :=
  match s.load? m, s.programs? m with
  | some l, some p =>
    let s := { s with
      cohorts := s.cohorts.filter fun k => !decide (k.model = m)
      nextCohorts := s.nextCohorts.filter fun k => !decide (k.model = m)
      treeOps := s.treeOps.filter fun o => !decide (o.1 = m)
      spans := s.spans.filter fun x => !decide (x.model = m)
      cands := s.cands.filter fun k => !decide (k.model = m)
      sampled := s.sampled.filter fun k => !decide (k.model = m)
      tiles := Vector.ofFn fun t => let y := s.tiles[t]
        { y with streams := y.streams.filter (fun x => !decide (x.model = m))
                 vec := { y.vec with opc := clearBytes y.vec.opc l.opcBase[t] (4096 * p.opcSpan[t]) } } }
    let mine (w : BitVec 16) : Bool := match s.spanOf w with | some x => decide (x.1 = m) | none => false
    let s := s.modSync fun y => { y with
      watches := y.watches.filter (fun k => !mine k.word), retries := y.retries.filter (fun k => !mine k.word)
      held := y.held.filter (fun k => !mine k.word), completions := y.completions.filter (fun k => !mine k.1.word)
      steps := sdrop (fun i => decide (i / 8 = m.val)) y.steps }
    (s.freeOwnerOf 1 m.val).modModel m fun y => { y with state := .installed, load := none, pool := {}, apertureStat := 0 }
  | _, _ => s

/-- The RESIDENT rescale registers and operand-cache contents of a load are in place (R97, R138). -/
def State.placeResident (s : State) (m : SlotIx) : State :=
  match s.load? m, s.programs? m with
  | some l, some p =>
    let sc := s.ownBody m SecBody.scales?
    let oc := s.ownBody m SecBody.opcache?
    { s with tiles := Vector.ofFn fun t =>
        let y := s.tiles[t]
        let ms := ((sc.map fun v => v[t]).getD []).take p.rsResident[t]
        let cs := ((oc.map fun v => v[t]).getD []).filter fun c => decide (c.1 < 4096 * p.opcSpan[t])
        { y with
          rs := (ms.zip (List.range ms.length)).foldl (fun r x => sput 0 r (l.rsBase[t] + x.2) x.1) y.rs
          vec := { y.vec with opc := cs.foldl (fun o c => putByte o (l.opcBase[t] + c.1) c.2) y.vec.opc } } }
  | _, _ => s

/-- LOAD_COMPLETE (R272, R278, R281): the RESIDENT sections and the first window slots are in place, or a section is lost. -/
def execLoadComplete (model : SlotIx) (lost : Option Nat) (s : State) : Host.Outcome State Fault Refusal :=
  match s.load? model with
  | none => done s s
  | some l =>
    if l.done then done s s
    else match lost with
      | some sec =>
        let d := s.faultDetail model (s.secLayer model sec) sec
        let s1 := (s.freeLoad model).modModel model fun x => { x with degraded := true }
        let s1 := s1.logError 0x06 6 3 0 0 model.val (s.secLayer model sec)
        let known := s.models[model].lostUnits.any fun x => decide (x.1 = sec)
        let s1 := if known then s1 else s1.event 0 0x05 4 [(0, 16, model.val), (32, 16, sec)]
        done s (s1.completeAdmin l.sub 0x42 0x13 d)
      | none =>
        let ls := (s.windowLayers model).take l.window.length
        let s1 := (s.placeResident model).modModel model fun x => { x with state := .loaded }
        let s1 := s1.modLoad model fun l => { l with
          done := true, nextFill := ls.length % max 1 (s.windowLayers model).length
          window := ls.map some ++ List.replicate (l.window.length - ls.length) none }
        let s1 := s1.modPower fun w => { w with tileClk := if w.tileClk = 0x55 then 0xAA else w.tileClk }
        done s (s1.completeAdmin l.sub 0x42 0x00)

/-- MODEL_UNLOAD (R269, R273): with every sequence of the model FREE. -/
def execModelUnload (e : Sub) (model : BitVec 16) (s : State) : Host.Outcome State Fault Refusal :=
  done s (s.onSlot e model 0x43 fun m =>
    if s.models[m].state ≠ .loaded ∨ !(s.seqsOf m).isEmpty then s.completeAdmin e 0x43 0x21
    else ((s.freeLoad m).rerouteIdle).completeAdmin e 0x43 0x00)

/-- MODEL_ERASE (R269, R274): the key is destroyed and the catalogue entry removed, then the command completes. -/
def execModelErase (e : Sub) (model : BitVec 16) (s : State) : Host.Outcome State Fault Refusal :=
  done s (s.onSlot e model 0x44 fun m =>
    if s.models[m].state = .installed ∨ s.models[m].state = .incomplete then (s.eraseSlot m).completeAdmin e 0x44 0x00
    else s.completeAdmin e 0x44 0x21)

/-! ## PAGE_POOL_SET (R168, R220, R238) -/

/-- n new frame numbers of a tile (R160): first those an earlier shrink gave back, then indices from top up. -/
def tileGrowth (t n top : Nat) (gone : List Nat) : List Nat :=
  let back := (gone.filter fun f => decide ((frameTile f).val = t)).take n
  back ++ (List.range (n - back.length)).map fun i => t * 2 ^ 22 + top + i

/-- The frames of a tile that hold nothing: the free ones and the guard's, which may be changed for others (R173). -/
def Pool.idleOn (p : Pool) (t : Nat) : List Nat :=
  (p.guard.foldl (fun l f => insFrame f l) p.free).filter fun f => decide ((frameTile f).val = t)

/-- The pool can become one of n frames and q sequences (R168): DRAM for it is there, and what shrinks is free. -/
def State.poolFits (s : State) (m : SlotIx) (n q : Nat) : Bool :=
  let p := s.models[m].pool
  decide (s.dramUsed - s.poolBytes m p.frames p.maxSeq + s.poolBytes m n q ≤ dramBytes) &&
  decide (p.frames - n ≤ p.free.length) &&
  ((List.range 4).all fun t => decide ((p.frames - n) / 4 ≤ (p.idleOn t).length)) && decide ((s.seqsOf m).length ≤ q)

/-- The pool with n frames of each tile fewer: the guard keeps its size, from the frames that stay. -/
def Pool.shrink (p : Pool) (n : Nat) : Pool :=
  let out := (List.range 4).flatMap fun t => ((p.idleOn t).reverse.take n)
  let stay := p.free.filter fun f => !out.contains f
  let kept := p.guard.filter fun f => !out.contains f
  let lack := p.guard.length - kept.length
  { p with guard := kept ++ stay.take lack, free := stay.drop lack
           gone := out.foldl (fun l f => insFrame f l) p.gone
           marked := p.marked.filter fun f => !out.contains f }

/-- The pool with n frames of each tile more. -/
def Pool.grow (p : Pool) (n : Nat) : Pool :=
  let new := (List.range 4).flatMap fun t => tileGrowth t n p.top p.gone
  let fresh := (List.range 4).map fun t => n - ((p.gone.filter fun f => decide ((frameTile f).val = t)).take n).length
  { p with free := new.foldl (fun l f => insFrame f l) p.free
           gone := p.gone.filter fun f => !new.contains f
           top := p.top + fresh.foldl max 0 }

/-- The pool set to n frames, LOW_WATER and MAX_SEQ (R168). -/
def Pool.resize (p : Pool) (n low q : Nat) : Pool :=
  let r := if n < p.frames then p.shrink ((p.frames - n) / 4) else p.grow ((n - p.frames) / 4)
  { r with frames := n, lowWater := low, maxSeq := q }

/-- PAGE_POOL_SET (R168, R269). -/
def execPagePoolSet (e : Sub) (model : BitVec 16) (fn : Fn) (setPool : Bool) (frames lowWater limit : BitVec 24)
    (maxSeq : BitVec 20) (s : State) : Host.Outcome State Fault Refusal :=
  if setPool && decide (frames.toNat % 4 ≠ 0) then done s (s.completeAdmin e 0x48 0x2E (malformedAt 0x14))
  else if setPool && (decide (maxSeq = 0) || decide (262144 < maxSeq.toNat)) then done s (s.completeAdmin e 0x48 0x2E (malformedAt 0x20))
  else
    done s (s.onSlot e model 0x48 fun m =>
      if s.models[m].state ≠ .loaded then s.completeAdmin e 0x48 0x21
      else if setPool && !s.poolFits m frames.toNat maxSeq.toNat then s.completeAdmin e 0x48 0x18
      else
        let s1 := s.modPool m fun p =>
          let p := if setPool then p.resize frames.toNat lowWater.toNat maxSeq.toNat else p
          { p with limit := p.limit.set fn limit.toNat }
        (s1.pageLow m).completeAdmin e 0x48 0x00)

end Sys2Proof.Machine
end

