-- ==== Sys2Proof/Machine/Disable.lean ====
section
/-!
DEFINITION. Sys2Proof/Machine/Disable.lean: the disabling of a function with work in flight (R187, R286, R306, R339, R362, R363,
R379).
-/
namespace Sys2Proof.Machine

/-- A cohort that is not cut carries rows of a function's sequences. -/
def State.cohortRows (s : State) (f : Fn) (k : Cohort) : Bool :=
  !k.cutNow && (rowHandles k 0xFFFFFFFF).any fun h => h.isOwn && decide (h.fn = f) && (s.seq? h).isSome

/-- The function has rows in some cohort. -/
def State.hasRows (s : State) (f : Fn) : Bool := s.cohorts.any (s.cohortRows f)

/-- A cohort cut as R280 cuts one, its requests left to the caller (R362 step 2, R363). -/
def State.cutQuiet (s : State) (k : Cohort) : State :=
  let s := (s.cutPass k.model k.index).modCohort k.model k.index fun k => { k with stall := none }
  (rowHandles k 0xFFFFFFFF).foldl (fun s h => s.rollBack h) s

/-- The function's records can be written (R362 step 3). -/
def State.hostOpen (s : State) (f : Fn) : Bool := s.fns[f].mse && s.fns[f].bme

/-- One open request of a disabled function is completed (R362 step 3, R409). -/
def State.abortReq (s : State) (o : OpenReq) (status : BitVec 8) : State :=
  match s.seq? (.own o.handle) with
  | some q =>
    let gen := q.gen.any fun g => decide (g.sub = o.sub)
    let e := if gen then (firstCause ((status, 0) :: q.causes)).getD (status, 0) else (status, 0)
    s.completeFull o.sub o.admin o.opcode e.1 o.handle q.highest (if gen then q.genToks.length else 0) e.2
  | none => s.completeFull o.sub o.admin o.opcode status (if o.admin then 0 else o.handle) 0 0 0

/-- Every open request of a function completed with a status, or its records discarded (R362 step 3, R410). -/
def State.abortAll (s : State) (f : Fn) (status : BitVec 8) : State :=
  let s := if s.hostOpen f then s.fns[f].openReqs.foldl (fun s o => s.abortReq o status) s
    else { s with held := s.held.filter fun h => match h with | .completion g _ _ => !decide (g = f) | .emission g _ _ => !decide (g = f) }
  s.modFn f fun x => { x with openReqs := [] }

/-- Every sequence of a function goes to FREE (R362 step 4). -/
def State.freeSeqs (s : State) (f : Fn) : State :=
  ((s.seqs.filter fun q => q.handle.isOwn && decide (q.handle.fn = f)).foldl (fun s q => s.freeSeq q.handle) s).dropSpans
    fun x => decide (handleFn x.handle = f)

/-- A tenant's keys are erased and its record removed; its own prefix nodes go as they are cached (R187, R379). -/
def State.removeTenant (s : State) (f : Fn) : State :=
  let s := s.modUm fun u => { u with
    swapKey := u.swapKey.set f none, prefixKey := u.prefixKey.set f none
    cmdKey := if f = 0 then u.cmdKey else u.cmdKey.set f none
    live := { u.live with tenants := u.live.tenants.set f none } }
  (List.finRange 64).foldl (fun s m => s.sweepTenant m (fun g => decide (g = f)) s.models[m].pool.nodes.length) s

/-- A FUNC_RESET or TENANT_DESTROY ends with the disabling (R351, R379); one of the function's own has its completion already
by step 3. -/
def State.finishCommand (s : State) (f : Fn) (o : OpenReq) : State :=
  let s := if o.opcode = 0x46 then s.removeTenant f else s
  if o.sub.fn = f then s else s.completeAdmin o.sub o.opcode 0x00

/-- The rings of a function at their reset value, RING_BASE kept (R362 step 6). -/
def resetRings (v : Vector (Vector Ring 5) 4) : Vector (Vector Ring 5) 4 := v.map fun k => k.map fun r => { ({} : Ring) with base := r.base }

/-- Steps 3 to 6 of R362. ENABLED is set again as the FLR, FUNC_RESET or TENANT_DESTROY ends; a function that is gone, or whose
link is down (R413), stays without it. Configuration space is reset as an FLR ends (log entry 1). -/
def State.finishDisable (s : State) (f : Fn) : State :=
  let s := (s.abortAll f 0x17).freeSeqs f
  let s := (List.finRange 64).foldl (fun s m => s.sweepTenant m (fun g => decide (g = f)) s.models[m].pool.nodes.length) s
  let s := s.loseOwner 2 f.val
  let cmds := s.fns[f].destroying
  let flr := s.fns[f].flrActive
  let stays := s.fns[f].present && !(flr && decide (f ≠ 0) && s.fns[0].flrActive)
  let s := s.modFn f fun x => { x with
    rings := resetRings x.rings, disabling := false, enabled := stays && s.pins.pcieUp, present := stays, flrActive := false, destroying := []
    bme := x.bme && !flr, mse := x.mse && stays && !(flr && decide (f = 0)) }
  let s := cmds.foldl (fun s o => s.finishCommand f o) s
  if s.fns[f].enabled then s.rebindOwner 2 f f.val else s

/-- An FLR of the PF that still waits for the VFs it disables. -/
def State.pfWaits (s : State) (f : Fn) : Bool :=
  decide (f = 0) && s.fns[0].flrActive && (List.finRange 16).any fun g => decide (g ≠ 0) && s.fns[g].disabling

/-- Step 2 of R362: a disabled function without rows left goes through the rest. -/
def State.tryOne (s : State) (f : Fn) : State :=
  if s.fns[f].disabling && !s.hasRows f && !s.pfWaits f then s.finishDisable f else s

/-- A function's disabling ends if it can, and with it an FLR of the PF that waited for it. -/
def State.tryFinish (s : State) (f : Fn) : State := if f = 0 then s.tryOne 0 else (s.tryOne f).tryOne 0

/-- The swaps of a function stop (R194, R362): their turn passes to the next. -/
def State.stopSwaps (s : State) (f : Fn) : State :=
  let was := s.activeSwap true
  let s := { s with swapQueue := s.swapQueue.filter fun h => !(h.isOwn && decide (h.fn = f)) }
  if s.activeSwap true = was then s else s.startOut

/-- The function's admin commands in progress stop at their next atomic point (R362 step 1). -/
def State.stopAdmin (s : State) (f : Fn) : State :=
  let s := (List.finRange 64).foldl (fun (s : State) m =>
    let s := if s.models[m].claim.any fun e => decide (e.fn = f) then s.stopInstall m else s
    if (s.load? m).any fun l => decide (l.sub.fn = f) && !l.done then s.freeLoad m else s) s
  let s := if f = 0 then s.modUm fun u => { u with staged := none } else s
  { s with slices := s.slices.map fun x => if x.sub.any fun e => decide (e.fn = f) then { x with sub := none } else x }

/-- A function begins to be disabled (R362): steps 1 and 2, and the rest when none of its rows is left. -/
def State.beginDisable (s : State) (f : Fn) : State :=
  if s.fns[f].disabling then s
  else
    let s := s.modFn f fun x => { x with disabling := true }
    let s := (s.stopAdmin f).stopSwaps f
    let s := (s.cohorts.filter fun k => k.stall.isSome && s.cohortRows f k).foldl (fun s k => s.cutQuiet k) s
    s.tryFinish f

/-- A function is disabled by a command that waits for the end (R351, R379). -/
def State.disableFor (s : State) (f : Fn) (o : OpenReq) : State :=
  (s.modFn f fun x => { x with destroying := x.destroying ++ [o] }).beginDisable f

/-- DISABLE_TIMEOUT (R363): 45 ms have passed; the cohorts that still carry rows of a disabled function are cut. -/
def execDisableTimeout (fn : Fn) (s : State) : Host.Outcome State Fault Refusal :=
  if s.fns[fn].disabling then
    done s (((s.cohorts.filter (s.cohortRows fn)).foldl (fun s k => s.cutQuiet k) s).tryFinish fn)
  else done s s

end Sys2Proof.Machine
end

