-- ==== Sys2Proof/Machine/Settle.lean ====
section
/-!
DEFINITION. Sys2Proof/Machine/Settle.lean: what a step boundary does with the step just finished (R22 to R24, R34, R44, R163,
R174, R175, R188, R228 to R231, R247, R409).
-/
namespace Sys2Proof.Machine

/-- The rows of a sequence in a cohort. -/
def rowsOf (k : Cohort) (h : Key) : List (Fin 32) :=
  (maskRows k.mask).filter fun r => decide (k.rows[r].handle = h) && decide (k.rows[r].kind ≠ 0)

/-! ## Written positions (R247) -/

/-- The keys and values of one position copied to another: every layer and group, codes and sidecars (R159, R247). -/
def copyPosition (g : Geometry) (p : Pool) (sf sp df dp : Nat) : Pool :=
  { p with data := (List.range g.layersP).foldl (fun d l => (List.range g.groupsP).foldl (fun d grp => (List.range 2).foldl (fun d k =>
      let d := putBytes d (frameBase df + codeAddr g l grp k dp) (getBytes d (frameBase sf + codeAddr g l grp k sp) (geoVec g))
      putBytes d (frameBase df + sideAddr g l grp k dp) (getBytes d (frameBase sf + sideAddr g l grp k sp) (geoSc g))) d) d) p.data }

/-- One position of a sequence copied to another (R247 step 1). -/
def State.moveKv (s : State) (q : Seq) (src dst : Nat) : State :=
  match s.geometry? q.model, q.page? (src / 256), q.page? (dst / 256) with
  | some g, some a, some b =>
    if src = dst then s else s.modPool q.model fun p => copyPosition g p (peFrame a) (src % 256) (peFrame b) (dst % 256)
  | _, _, _ => s

/-- The accepted nodes' keys and values moved into place, in ascending depth (R247 step 1). -/
def State.moveAccepted (s : State) (q : Seq) (p : Pass) : State :=
  (p.path.zip (List.range p.path.length)).foldl (fun s y => s.moveKv q (p.root + y.1) (p.root + y.2 + 1)) s

/-- SPECULATIVE cleared on the pages up to a position, the pages beyond freed (R247 steps 3 and 4); a list that cannot be read stays as
it is (R163). -/
def State.settleSpec (s : State) (h : Key) (last : Nat) : State :=
  (s.modSeq h fun q => if q.listBad then q else { q with
    pages := (q.pages.zip (List.range q.pages.length)).map fun y => if q.firstPage + y.2 ≤ last / 256 then clrBit y.1 26 else y.1 }).dropSpec h

/-- The positions that a finished step wrote for a sequence count as written (R171, R247). -/
def State.advance (s : State) (k : Cohort) (h : Key) : State :=
  match s.seq? h with
  | none => s
  | some q =>
    let ps := (rowsOf k h).filter fun r => decide (k.rows[r].kind ≠ 3)
    let top := (ps.map fun r => k.rows[r].position.toNat + 1).foldl max q.written
    match (if hasTree k h then q.pass else none) with
    | some p =>
      let s := s.moveAccepted q p
      let w := max top (min (p.root + p.path.length + 1) q.tokens.length)
      (s.modSeq h fun q => { q with written := w }).settleSpec h (max w q.tokens.length - 1)
    | none => (s.modSeq h fun q => { q with written := top }).settleSpec h (max top q.tokens.length - 1)

/-- The chunks whose positions are all written (R24, R350): one that is not FINAL completes OK; after a FINAL one the sequence
runs. -/
def State.settleChunks (s : State) (h : Key) : State :=
  match s.seq? h with
  | none => s
  | some q =>
    let closed := q.chunks.filter fun c => c.tokens.isEmpty && decide (c.last < q.written)
    let s := closed.foldl (fun s c => if c.fin then s else s.finishReq q c.sub c.opcode 0x00) s
    s.modSeq h fun q => { q with
      chunks := q.chunks.filter fun c => !(c.tokens.isEmpty && decide (c.last < q.written))
      state := if q.state = .ingesting ∧ closed.any (·.fin) then .running else q.state }

/-! ## Requests that waited (R34, R35, R188, R409) -/

/-- A SET_POLICY takes effect and completes (R23, R34). -/
def State.applyPolicy (s : State) (h : Key) : State :=
  match s.seq? h with
  | none => s
  | some q =>
    let s := q.newPolicy.foldl (fun s x => s.finishReq q x.1 0x05 0x00) s
    s.modSeq h fun q => { q with newPolicy := [], policy := (q.newPolicy.getLast?.map (·.2)).getD q.policy }

/-- A PREEMPT with a buffer that is short now is refused (R188). -/
def State.checkPreempt (s : State) (h : Key) : State :=
  match s.seq? h with
  | none => s
  | some q => match q.pendPreempt with
    | some x =>
      if s.swapFits q x.2 then s
      else ((s.leaveQueue h).finishReq q x.1 0x06 0x26).modSeq h fun q => { q with pendPreempt := none }
    | none => s

/-- The ending a sequence gets at a boundary, if any: the one its record with LAST set tells (R42), else the first of R409. -/
def State.endingOf (s : State) (q : Seq) : Option (BitVec 8 × BitVec 64) :=
  let opt (b : Bool) (st : BitVec 8) (d : BitVec 64) : List (BitVec 8 × BitVec 64) := if b then [(st, d)] else []
  match q.decided with
  | some e => some e
  | none => firstCause (q.causes ++ opt q.listBad 0x14 (s.faultDetail q.model 0 0xFFFF) ++ opt s.fns[q.handle.fn].disabling 0x17 0 ++
      opt q.pendPreempt.isSome 0x04 0 ++ opt (!q.pendCancel.isEmpty) 0x03 0 ++ opt q.stopped.isSome (q.stopped.getD 0) 0)

/-- The ending takes effect; a disabled function's sequence is left to R362. -/
def State.applyEnding (s : State) (h : Key) (e : BitVec 8 × BitVec 64) : State :=
  if e.1 = 0x17 then s.dropSlots h
  else if e.1 = 0x04 then s.takePreempt h
  else s.endSeq h e.1 e.2

/-! ## Parking (R174, R175) -/

/-- The report of the other packages for a sequence; without one nothing is reported. -/
def peerOf (peers : List (Key × PeerReport)) (h : Key) : PeerReport :=
  ((peers.find? fun x => decide (x.1 = h)).map (·.2)).getD
    { framesOk := true, guardUsed := [], restored := true, spillRoom := [], routesOk := true }

/-- A guard frame was taken for a sequence in the step, on this package or, as its report says, on another. -/
def Seq.guardTaken (q : Seq) (r : PeerReport) : Bool := decide (q.ent = .consumed) || !r.guardUsed.isEmpty

/-- PAGE_GUARD_USED, which the home package writes, of a sequence whose guard was used in the step: it names the position and the
packages (R174). -/
def State.guardEvent (s : State) (k : Cohort) (h : Key) (r : PeerReport) : State :=
  match s.seq? h with
  | none => s
  | some q =>
    if !h.isOwn || !q.guardTaken r then s
    else
      let ps := (rowsOf k h).map fun r => k.rows[r].position.toNat
      let pos := (ps.find? fun p => decide (p % 256 = 0)).getD (ps.headD 0)
      let ms := (if q.ent = .consumed then [s.ownMember q.model] else []) ++ r.guardUsed
      s.event h.fn 0x02 4 ([(0, 32, h.handle.toNat), (32, 28, pos)] ++ ms.eraseDups.map fun i => (128 + i, 1, 1))

/-- A sequence whose guard was used in the step parks (R174). -/
def State.park (s : State) (h : Key) (r : PeerReport) : State :=
  match s.seq? h with
  | none => s
  | some q =>
    if !q.guardTaken r then s
    else s.modSeq h fun q => { q with state := .parkedPages, parkedFrom := q.state, parkedAt := s.stepCount, tree := [] }

/-- Parked sequences of this package whose entitlement is intact on every package return to the state they parked from (R175). -/
def State.unpark (s : State) (m : SlotIx) (peers : List (Key × PeerReport)) : State :=
  (s.seqsOf m).foldl (fun s q =>
    if q.handle.isOwn ∧ q.state = .parkedPages ∧ q.ent = .intact ∧ (peerOf peers q.handle).restored then
      s.modSeq q.handle fun q => { q with state := q.parkedFrom } else s) s

/-! ## One sequence of the finished step -/

/-- A numeric or malformed-block cause leaves the step's position written; any other fault rolls it back (R37, R409). -/
def rollsBack (st : BitVec 8) : Bool := decide (0x12 ≤ st.toNat) && decide (st.toNat ≤ 0x16)

/-- The boundary for one sequence with rows in the finished step; a sequence homed elsewhere ends, parks and changes its policy as its
home package tells (log entry 128), but parks here at once when this package's guard was used. -/
def State.settleOne (s : State) (k : Cohort) (peers : List (Key × PeerReport)) (h : Key) : State :=
  let s := match (peerOf peers h).fault with
    | some x => s.addCause h x.1 x.2
    | none => s
  match s.seq? h with
  | none => s
  | some q =>
    if q.state ≠ .running ∧ q.state ≠ .ingesting then s
    else
      let s := s.guardEvent k h (peerOf peers h)
      let s := if k.cutNow || q.causes.any (fun c => rollsBack c.1) then s.rollBack h else ((s.advance k h).settleChunks h).insertPages h
      let s := ((s.applyPolicy h).checkPreempt h).dropSlots h
      match s.seq? h with
      | none => s
      | some q =>
        let s := match (if h.isOwn then s.endingOf q else none) with
          | some e => s.applyEnding h e
          | none => s.park h (peerOf peers h)
        s.modSeq h fun q => { q with pass := none, causes := [], stopped := none }

/-- The finished step of a cohort (R34): every sequence with rows in it. -/
def State.settleCohort (s : State) (k : Cohort) (peers : List (Key × PeerReport)) : State :=
  (rowHandles k 0xFFFFFFFF).foldl (fun s h => s.settleOne k peers h) s

/-! ## Swaps that every package has finished (R191 to R194; log entry 127) -/

/-- The other packages' parts of one swap: with this package's part done too, it ends; a part that failed ends it with its status. -/
def State.settleSwap (s : State) (q : Seq) (w : Swap) (r : SwapReport) : State :=
  match r with
  | .busy => s
  | .failed st => if q.state = .preempting then s.stopSwap q.handle st else s.failBack q.handle st
  | .done => if !w.mine then s else if q.state = .preempting then s.swapOutDone q.handle else s.backDone q.handle w

/-- The swaps of this package's sequences of a model, as the other packages report their parts. -/
def State.settleSwaps (s : State) (m : SlotIx) (peers : List (Key × PeerReport)) : State :=
  (s.seqsOf m).foldl (fun s q => match q.swap with
    | some w => if q.handle.isOwn then s.settleSwap q w (peerOf peers q.handle).swap else s
    | none => s) s

/-! ## Prism costs (R216) -/

/-- Each cost with pages to measure takes a free count of cycles per page, at least its floor (R216; log entry 12). -/
def State.updateCosts (s : State) (k : Cohort) : State :=
  match s.image? k.model with
  | none => s
  | some im => (List.finRange 4).foldl (fun (s : State) t =>
      let n := k.prismPages[t]
      let a := s.draw
      let b := a.2.draw
      let key := 4 * k.index.val + t.val
      b.2.modLoad k.model fun l =>
        let old := sget (0, 0) l.costs key
        let new := (if n.1 = 0 then old.1 else max (startCost im) a.1, if n.2 = 0 then old.2 else max (startCost im) b.1)
        { l with costs := sput (0, 0) l.costs key new }) s

/-! ## Relay spills (R230, R231) -/

/-- A spill that is written at its target ends: the span is marked and its frames are freed (R230 step 3). -/
def State.endSpill (s : State) (h : Key) : State :=
  match s.seq? h with
  | none => s
  | some q => match q.spill with
    | none => s
    | some target =>
      if !q.spillDone then s
      else
        let gone := ((q.pages.take 256).filter fun e => !peSwapped e).map peFrame
        let s := s.modSeq h fun q => { q with pages := q.pages.drop 256, relayMap := q.relayMap ++ [target], spill := none, spillDone := false }
        { (s.release q.model gone) with relayStat := bump s.relayStat 0 16 1 }

/-- The address of a member of a sequence's Relay ring: the package in this SLOT_ID on the n-th board from this one (R229). -/
def State.ringMember (s : State) (x : Slice) (n : Nat) : Option (BitVec 16) :=
  (x.ring.findIdx? fun b => decide (b.toNat = adBoard s.address)).bind fun i =>
    (x.ring[(i + n) % x.ring.length]?).map fun b => mkAddr (adRack s.address) b.toNat (adSlot s.address)

/-- The oldest 256 local pages of a sequence, sent as whole frames to the spill's target (R230 step 2; log entry 30). -/
def State.sendSpan (s : State) (q : Seq) (x : Slice) (n : Nat) : State :=
  match s.geometry? q.model, s.ringMember x n with
  | some g, some dest => (List.range 256).foldl (fun s i => match q.pages[i]? with
      | some e =>
        let d := s.frameBytes q.model (peFrame e) 0 (geoFrame g)
        s.relayMessage q.model dest (peFrame e) (toLE 64 (relayHeader q.handle.handle (q.firstPage + i) 0 d.length).toNat ++ d)
      | none => s) s
  | _, _ => s

/-- A spill begins towards a member of the ring (R230 step 2). -/
def State.beginSpill (s : State) (h : Key) (n : Nat) : State :=
  match s.seq? h with
  | none => s
  | some q => match s.sliceOf q.model with
    | none => s
    | some x => (s.modSeq h fun q => { q with spill := some n, spillDone := false }).sendSpan q x n

/-- The states in which a sequence may grow, and so may spill (R230). -/
def Seq.grows (q : Seq) : Bool :=
  decide (q.state = .admitted) || decide (q.state = .ingesting) || decide (q.state = .running) || decide (q.state = .parkedPages)

/-- A spill of one of this package's sequences starts when it holds RELAY_SPAN pages and a member can take a span (R230): sides alternate,
and a member that cannot is skipped. -/
def State.startSpill (s : State) (h : Key) (r : PeerReport) : State :=
  match s.seq? h with
  | none => s
  | some q => match s.sliceOf q.model with
    | none => s
    | some x =>
      let ms := (List.range (x.ring.length - 1)).map (· + 1)
      let side := if q.spillBack then ms else ms.reverse
      let s := s.modSeq h fun q => { q with spillRoom := ms.any fun n => r.spillRoom.contains n }
      if h.isOwn && q.relay && q.spill.isNone && decide (x.relaySpan ≠ 0) && decide (x.relaySpan ≤ q.pages.length) && q.grows then
        match side.find? fun n => r.spillRoom.contains n with
        | none => s
        | some n => (s.modSeq h fun q => { q with spillBack := !q.spillBack }).beginSpill h n
      else s

/-- The frames of a span taken from sources 2 and 3 of R170 and written, with the directory kept; then the carried signal returns to
the home package (R230, R231; log entry 32). -/
def State.takeSpan (s : State) (m : SlotIx) (handle : BitVec 32) (home : BitVec 16) (span : Nat) (frames : List Bytes) : State :=
  let js := (List.range 256).map fun i => 256 * span + i
  match s.geometry? m, s.takeFrames m (handleFn handle) (handleSlot handle) js with
  | some g, some (fs, s) =>
    let s := (fs.zip frames).foldl (fun s y => s.putFrame m y.1 0 (y.2.take (geoFrame g))) s
    let s := { s with spans := s.spans ++ [({ model := m, handle := handle, home := home, pages := js.zip fs } : Span)] }
    s.relayMessage m home 0 (toLE 64 (relayHeader handle (256 * span) 0 0).toNat)
  | _, _ => s

/-- SPILL_DONE (R230, R231): on a package of the home board the spill is marked as written; the target writes the span. -/
def execSpillDone (handle : Key) (span : Nat) (ev : SpillEvent) (s : State) : Host.Outcome State Fault Refusal :=
  match ev with
  | .returned => done s (s.modSeq handle fun q => if q.spill.isSome ∧ q.relayMap.length = span then { q with spillDone := true } else q)
  | .written m home frames => done s ((s.takeSpan m handle.handle home span frames).pageLow m).cutLost

/-! ## Routes (R333, R336) -/

/-- Every pair of members has a route, as far as this package and its peers' reports tell (R336). -/
def State.allRouted (s : State) (x : Slice) (peers : List (Key × PeerReport)) : Bool :=
  (x.members.all fun a => decide (a = s.address) || s.routed s.address a x.members) && peers.all fun p => p.2.routesOk

/-- The routes of a model's slice recomputed: it is DOWN while some pair has none (R333, R336). -/
def State.reroute (s : State) (m : SlotIx) (peers : List (Key × PeerReport)) : State :=
  match s.sliceOf m with
  | none => s
  | some x =>
    let ok := s.allRouted x peers
    { s with slices := s.slices.map fun y =>
        if y.id ≠ x.id ∨ y.memberLost ∨ y.state = .pending then y else { y with state := if ok then .active else .down } }

end Sys2Proof.Machine
end

