-- ==== Sys2Proof/Machine/Malny.lean ====
section
/-!
DEFINITION. Sys2Proof/Machine/Malny.lean: training and discovery of the ports, frames and their retransmission, CUT and LEAVING
(R307, R308, R314 to R328, R335, R336, R372).
-/
namespace Sys2Proof.Machine

/-! ## The wiring plan (R313 to R315, R319) -/

/-- SLOT_MASK and BOARD_MASK in force (R314, R315). -/
def State.masks (s : State) : BitVec 8 × BitVec 16 :=
  match s.um.live.plan with
  | some p => (p.slotMask, p.boardMask)
  | none => (0xFF, BitVec.ofNat 16 (2 ^ s.boot.boardId.toNat))

/-- The peer that the plan expects on a port, and its port there (R313, R314). -/
def State.expected (s : State) (p : PortIx) : Option (BitVec 16 × Nat) :=
  if p.val = 11 then
    match s.um.live.plan with
    | some x => match x.uplink with
      | some t =>
        let a := BitVec.ofNat 16 (leAt t (64 * (s.boot.boardId.toNat * 8 + s.boot.slotId.toNat)) 2)
        if a = 0xFFFF then none else some (a, 11)
      | none => none
    | none => none
  else
    let q := meshPeer s.rackId s.boot.boardId.toNat s.boot.slotId.toNat p.val
    if bit s.masks.2 (adBoard q.1) && bit s.masks.1 (adSlot q.1) then some q else none

/-- Sets fields of MALNY_PORT (R321): position, width, value. -/
def setFlds (w : BitVec 64) (fs : List (Nat × Nat × Nat)) : BitVec 64 := fs.foldl (fun w f => setFld w f.1 f.2.1 f.2.2) w

/-- STATE and CAUSE of a port set (R321), with EXPECTED by the plan. -/
def State.setPort (s : State) (p : PortIx) (state cause : Nat) : State :=
  let e := b2n (s.expected p).isSome
  s.modPort p fun x => { x with reg := setFlds x.reg [(0, 3, state), (3, 2, cause), (63, 1, e)] }

/-- The ARGS of the neighbour events (R359). -/
def State.neighbourArgs (s : State) (p : PortIx) (found : Option (BitVec 16)) (cause : Nat) : List (Nat × Nat × Nat) :=
  let want : BitVec 16 := match s.expected p with | some e => e.1 | none => 0xFFFF
  [(0, 4, p.val), (32, 16, (found.getD 0xFFFF).toNat), (64, 16, want.toNat), (96, 3, cause)]

/-- NEIGHBOUR_MISSING, once until the port is UP again, for a port the plan expects (R319, R320). During LINK_TRAIN it waits for
the end of the stage. -/
def State.missing (s : State) (p : PortIx) (found : Option (BitVec 16)) (cause : Nat) : State :=
  if (s.expected p).isNone || s.ports[p].missingSent || decide (s.boot.stage ≠ .ready) then s
  else (s.modPort p fun x => { x with missingSent := true }).event 0 0x08 4 (s.neighbourArgs p found cause)

/-- What a discovery record comes to (R319). -/
def State.discovered (s : State) (p : PortIx) (d : Discovery) : State :=
  let known := portState s.ports[p] = 3 ∧ portPeer s.ports[p].reg = d.address
  let s := s.modPort p fun x => { x with reg := setFlds x.reg [(57, 4, d.port.toNat), (41, 16, d.address.toNat)], peerDevice := d.device }
  let right := match s.expected p with | some e => decide (e.1 = d.address) && decide (e.2 = d.port.toNat) | none => false
  if right then (s.setPort p 4 0).modPort p fun x => { x with missingSent := false }
  else
    let s := s.setPort p 3 0
    let s := if known then s else s.event 0 0x07 4 (s.neighbourArgs p (some d.address) 0)
    s.missing p (some d.address) 0

/-! ## CUT (R328) -/

/-- A slice's routes leave this package through a port, as they stood while it carried traffic (R328). -/
def State.usesPort (s : State) (x : Slice) (p : PortIx) : Bool :=
  let s := s.modPort p fun y => { y with reg := setFld y.reg 0 3 4 }
  x.members.any fun a => decide (a ≠ s.address) && (match s.nextHop a x.members with | some y => decide (y.1 = p) | none => false)

/-- What a port still owes is lost (R319, R328): the messages not whole on it, for which the slices that used it are cut. -/
def State.dropTraffic (s : State) (p : PortIx) : State :=
  let owing := !s.ports[p].replay.isEmpty || !s.ports[p].waiting.isEmpty || !s.ports[p].transit.isEmpty
  let users := s.slices.filter fun x => s.usesPort x p
  let s := s.modPort p fun x => { x with replay := [], waiting := [], transit := [] }
  if owing then s.cutFor users p.val else s

/-- A port goes DOWN (R319, R326, R328): messages not whole are lost, and the slices that used it are cut. -/
def State.portLost (s : State) (p : PortIx) (cause : Nat) : State :=
  let s := (s.setPort p 0 cause).modPort p fun x => { x with
    reg := setFlds x.reg [(5, 2, 0), (7, 2, 0)], txKey := [], rxKey := [],
    credits := Vector.replicate 4 0, owed := Vector.replicate 4 0, nakSent := false, failures := 0 }
  ((s.dropTraffic p).missing p none cause).rerouteIdle

/-! ## A peer that has left READY (R307, R308, R336) -/

/-- A model's owner is lost because a peer left READY (R306, R307): requests homed here end at once. -/
def State.loseModel (s : State) (m : SlotIx) : State :=
  let s := (s.loseOwner 1 m.val).modLoad m fun l => { l with lost := true }
  let hit := (s.seqsOf m).filter fun q => q.handle.isOwn && (q.gen.isSome || !q.chunks.isEmpty)
  let s := match hit with
    | q :: _ => s.logError 0x0D 4 3 q.handle.fn.val 0 m.val 0
    | [] => s
  let s := (s.cohorts.filter fun k => decide (k.model = m)).foldl (fun s k => (s.cutPass k.model k.index).modCohort k.model k.index fun k => { k with stall := none }) s
  hit.foldl (fun s q => match s.seq? q.handle with
    | some q =>
      let e := q.faulted 0x16 0
      (s.rollBack q.handle).endSeq q.handle e.1 e.2
    | none => s) s

/-- A member of this package's slices has left READY (R307, R308, R336): the slices are DOWN, their models' owners lost. -/
def State.memberLeft (s : State) (a : BitVec 16) : State :=
  let hit := s.slices.filter fun x => x.members.contains a
  let s := { s with slices := s.slices.map fun x => if x.members.contains a && decide (x.state ≠ .pending) then { x with state := .down, memberLost := true } else x }
  ((List.finRange 64).filter fun m => (s.load? m).any fun l => !l.lost && hit.any fun x => decide (x.id = l.sliceId)).foldl
    (fun s m => s.loseModel m) s

/-- What the link layer tells of a lost port's peer (R308): whether the loss is its leaving READY is free, since no rule says how the
two are told apart (log entry 132). -/
def State.peerGone (s : State) : Bool × State := (decide (s.draw.1 % 2 = 1), s.draw.2)

/-- The peer of a lost port may have left READY; where it has, R307 applies to the models it took part in (R308). -/
def State.hearLoss (s : State) (peer : BitVec 16) : State :=
  if s.slices.any fun x => x.members.contains peer then
    (if s.peerGone.1 then s.peerGone.2.memberLeft peer else s.peerGone.2)
  else s

/-- PORT_DOWN (R308, R328). -/
def execPortDown (p : PortIx) (s : State) : Host.Outcome State Fault Refusal :=
  done s (if portState s.ports[p] = 4 ∨ portState s.ports[p] = 5 ∨ portState s.ports[p] = 3 then
    (s.portLost p 1).hearLoss (portPeer s.ports[p].reg) else s)

/-! ## Training (R316 to R320, R372) -/

/-- The width code a receiver chooses from its bad lanes (R317, R321). -/
def widthOf (bad : BitVec 32) : Nat :=
  let good (lo n : Nat) : Bool := decide (fld bad lo n = 0)
  if good 0 32 then 3 else if good 0 16 || good 16 16 then 2
  else if good 0 8 || good 8 8 || good 16 8 || good 24 8 then 1 else 0

/-- A direction key and salt, 36 bytes (R372): the secrets in ascending device number key an HMAC over the sender's device number and
the retrain count (log entry 44). -/
def dirKey (secrets : Bytes) (sender : BitVec 32) (count : Nat) : Bytes :=
  (hmac512 secrets (toLE 4 sender.toNat ++ toLE 4 count)).take 36

/-- A port's direction keys derived for its retrain count (R372). -/
def State.derive (s : State) (p : PortIx) : State :=
  s.modPort p fun x => { x with txKey := dirKey x.secrets s.boot.device x.retrainCount, rxKey := dirKey x.secrets x.peerDevice x.retrainCount }

/-- LINK_DEGRADED for a port narrower than 32 lanes (R320). -/
def State.linkDegraded (s : State) (p : PortIx) : State :=
  let rx := fld s.ports[p].reg 5 2
  let tx := fld s.ports[p].reg 7 2
  if rx < 3 ∨ tx < 3 then s.event 0 0x06 4 [(32, 5, p.val), (64, 2, tx), (66, 2, rx)] else s

/-- What the width step of training notes (R317, R321). -/
def State.noteLanes (s : State) (p : PortIx) (r : PortReport) : State :=
  s.modPort p fun x => { x with
    reg := setFlds x.reg [(5, 2, widthOf r.rx.badLanes), (7, 2, widthOf r.tx.badLanes), (9, 32, r.rx.badLanes.toNat),
      (62, 1, b2n r.rx.polFixed), (61, 1, b2n r.rx.orderFixed)] }

/-- A port fails to come up (R317 to R319): its state and CAUSE, the cause its event names. -/
def State.notUp (s : State) (p : PortIx) (state cause ev : Nat) : State :=
  let s := s.setPort p state cause
  let s := s.modPort p fun x => { x with reg := setFlds x.reg [(57, 4, 0), (41, 16, 0)] }
  s.missing p none ev

/-- Training of one port, all six steps (R316 to R320, R372). -/
def State.train (s : State) (p : PortIx) (r : PortReport) : State :=
  let s := s.modPort p fun x => { x with
    replay := [], waiting := [], transit := [], nakSent := false, failures := 0, seq := 0, wraps := 0, expect := 0,
    credits := Vector.replicate 4 0, owed := Vector.replicate 4 0, reg := setFlds x.reg [(5, 2, 0), (7, 2, 0), (9, 32, 0), (61, 2, 0)] }
  if (r.tx.facingTx || r.rx.facingTx) && !r.rx.signal then s.notUp p 2 2 2
  else if !r.rx.signal then s.notUp p 0 1 1
  else
    let s := s.noteLanes p r
    if widthOf r.rx.badLanes = 0 ∨ widthOf r.tx.badLanes = 0 then s.notUp p 0 1 1
    else if !r.authOk then s.notUp p 2 3 4
    else match r.peer with
      | none => s.notUp p 0 0 0
      | some d =>
        let both := if s.boot.device < d.device then r.ownSecret ++ r.peerSecret else r.peerSecret ++ r.ownSecret
        let s := s.modPort p fun x => { x with secrets := both, retrainCount := 0, peerDevice := d.device }
        (((s.derive p).discovered p d).linkDegraded p)

/-- The Malny PLL runs: from LINK_TRAIN on, while MREFCLK is there (R397, R442). -/
def State.malnyRuns (s : State) : Bool := (decide (s.boot.stage = .linkTrain) || s.isReady) && s.pins.mrefclk

/-- Every port the plan expects is UP (R320). -/
def State.allExpectedUp (s : State) : Bool := (List.finRange 12).all fun p => (s.expected p).isNone || s.portUp p

/-- PORT_TRAIN (R316, R320): what the port still owed is lost (R328). -/
def execPortTrain (p : PortIx) (r : PortReport) (s : State) : Host.Outcome State Fault Refusal :=
  if s.malnyRuns then
    let s1 := ((s.dropTraffic p).train p r).rerouteIdle
    done s (s1.modBoot fun b => { b with trained := b.trained || (decide (b.stage = .linkTrain) && s1.allExpectedUp) })
  else done s s

/-- Every port whose state passes a test is trained (R316, R320). -/
def State.trainAll (s : State) (which : Nat → Bool) (reports : Vector PortReport 12) : State :=
  ((List.finRange 12).foldl (fun s p => if which (portState s.ports[p]) then s.train p reports[p] else s) s).rerouteIdle

/-- PORT_RETRY_TIMER (R320): every port that is DOWN or DISCOVERY_ONLY trains again. -/
def execPortRetryTimer (reports : Vector PortReport 12) (s : State) : Host.Outcome State Fault Refusal :=
  done s (if s.malnyRuns then s.trainAll (fun x => decide (x = 0) || decide (x = 3)) reports else s)

/-- DISCOVERY_RECORD (R319): a record on a port that has passed step 5; a port that does not stay UP carries nothing more. -/
def execDiscoveryRecord (p : PortIx) (d : Discovery) (s : State) : Host.Outcome State Fault Refusal :=
  let x := portState s.ports[p]
  if x = 1 ∨ 3 ≤ x then
    let s1 := s.discovered p d
    done s (if s1.portUp p then s1.rerouteIdle else (s1.dropTraffic p).rerouteIdle)
  else done s s

/-- Discovery repeated on every port (R315, R318, R319): a known peer is compared with the new plan, and a port held off as facing
a transmitter tries again. -/
def State.rediscover (s : State) : State :=
  ((List.finRange 12).foldl (fun s p =>
    let x := s.ports[p]
    let st := portState x
    let s := s.modPort p fun y => { y with missingSent := false, reg := setFld y.reg 63 1 (b2n (s.expected p).isSome) }
    if st = 3 ∨ st = 4 ∨ st = 5 then
      s.discovered p { address := portPeer x.reg, port := BitVec.ofNat 4 (fld x.reg 57 4), device := x.peerDevice }
    else if st = 2 ∧ fld x.reg 3 2 = 2 then s.setPort p 0 0
    else s) s).rerouteIdle

/-! ## Retrains (R326) -/

/-- A port begins to retrain, or goes DOWN at the fourth within one second (R326). -/
def State.startRetrain (s : State) (p : PortIx) : State :=
  let x := s.ports[p]
  let recent := x.retrainTimes.filter fun t => decide (s.now.toNat - t.toNat < oneSecond)
  if 3 ≤ recent.length then s.portLost p 3
  else (s.setPort p 5 0).modPort p fun x => { x with
    retrainTimes := recent ++ [s.now], stat := bump x.stat 56 8 1, failures := 0, nakSent := false }

/-- Frames not acknowledged are sent again (R326): the same bytes but for the clear fields, under the keys in force. -/
def State.replayFrom (s : State) (p : PortIx) (fs : List TxFrame) : State :=
  s.modPort p fun x => { x with
    sent := x.sent ++ fs.map (x.frameOf (0, 0)) }

/-- A retrain ends (R316, R320, R326, R372): steps 2, 3, 4 and 6, fresh keys, and the frames not acknowledged. -/
def State.endRetrain (s : State) (p : PortIx) (r : PortReport) : State :=
  let s := s.noteLanes p r
  if widthOf r.rx.badLanes = 0 ∨ widthOf r.tx.badLanes = 0 then s.portLost p 1
  else
    let s := (s.modPort p fun x => { x with retrainCount := x.retrainCount + 1 }).derive p
    match r.peer with
    | none => s.portLost p 0
    | some d =>
      let s := (s.discovered p d).linkDegraded p
      if s.portUp p then ((s.replayFrom p s.ports[p].replay).pumpPort p).rerouteIdle else (s.dropTraffic p).rerouteIdle

/-- PORT_RETRAIN (R326): a retrain of a port that is UP, or the end of one under way. -/
def execPortRetrain (p : PortIx) (r : PortReport) (s : State) : Host.Outcome State Fault Refusal :=
  let x := portState s.ports[p]
  let s1 := if x = 4 ∨ x = 3 then s.startRetrain p else s
  done s (if portState s1.ports[p] = 5 then s1.endRetrain p r else s1)

/-! ## Frames (R322 to R327, R335) -/

/-- The LINK frame a port sends (R323, R325, R326): it carries the next SEQ unused, and no packet. -/
def Port.linkWire (x : Port) (nak : Bool) : Wire :=
  sealFrame x.txKey (x.wraps * 2 ^ 24 + x.seq.toNat) (linkHeader x.credit 1 false 3 nak x.expect x.seq) []

/-- Sends a LINK frame (R323, R326). -/
def State.linkFrame (s : State) (p : PortIx) (nak : Bool) : State :=
  s.modPort p fun x => { x.returned with sent := x.sent ++ [x.linkWire nak] }

/-- LINK_IDLE_TIMER (R326): a port that carries LINK frames sends one. -/
def execLinkIdleTimer (p : PortIx) (s : State) : Host.Outcome State Fault Refusal :=
  done s (if portState s.ports[p] = 3 ∨ portState s.ports[p] = 4 then s.linkFrame p false else s)

/-- A frame number lies before another (R326). -/
def seqBefore (a b : BitVec 24) : Bool := decide (0 < (b - a).toNat) && decide ((b - a).toNat ≤ 512)

/-- A frame is discarded (R326): one NAK names the frame expected, and at the fourth failure the port retrains. -/
def State.discard (s : State) (p : PortIx) (failed : Bool) : State :=
  let s := if s.ports[p].nakSent then s else (s.linkFrame p true).modPort p fun x => { x with nakSent := true }
  let s := if failed then s.modPort p fun x => { x with failures := x.failures + 1 } else s
  if 4 ≤ s.ports[p].failures then s.startRetrain p else s

/-- The clear fields of a good frame (R323, R326, R327): its credit, its acknowledgement, and the replay a NAK asks for. -/
def State.clearFields (s : State) (p : PortIx) (h : BitVec 64) : State :=
  let ack : BitVec 24 := h.extractLsb' 24 24
  let s := s.modPort p fun x => { x with
    credits := vmod x.credits (Fin.ofNat 4 (fld h 62 2)) fun n => n + fld h 56 6
    replay := x.replay.filter fun f => !seqBefore f.seq ack }
  let s := if bit h 48 then s.replayFrom p (s.ports[p].replay.filter fun f => !seqBefore f.seq ack) else s
  s.pumpPort p

/-- The members of a slice that this package belongs to; none of another. -/
def State.membersOf (s : State) (id : BitVec 16) : List (BitVec 16) :=
  match s.slices.find? fun x => decide (x.id = id) with
  | some x => if x.members.contains s.address then x.members else []
  | none => []

/-- The axis a port lies on: 0 the mesh, 1 x, 2 y, 3 the uplink (R313). -/
def portAxis (p : PortIx) : Nat := if p.val ≤ 6 then 0 else if p.val ≤ 8 then 1 else if p.val ≤ 10 then 2 else 3

/-- The buffer class of a packet forwarded from one port to another (R327): 1 once its hops on the axis have crossed the wrap. -/
def State.forwardClass (s : State) (p q : PortIx) (cls : Bool) : Bool :=
  s.crosses q || (cls && decide (portAxis p = portAxis q))

/-- A packet has crossed a port in a buffer class (R327, R333 to R335): it is for this package, unless it came on TRANSIT, or is
forwarded. -/
def State.deliverPacket (s : State) (from' : PortIx) (vc : BitVec 2) (cls : Bool) (k : Packet) : State :=
  let h := headOf k.hdr
  if h.dest = s.address then (if vc = 2 then s else { s with inbox := s.inbox ++ [k] })
  else match s.nextHop h.dest (s.membersOf h.slice) with
    | some (p, transit) =>
      s.queuePacket p (transit || (decide (vc = 2) && (s.membersOf h.slice).isEmpty)) (if vc = 1 then 1 else 0) (s.forwardClass from' p cls) k
    | none => s.noRoute k

/-- A frame in order is accepted (R326, R327): its buffer is emptied and will be returned. -/
def State.acceptFrame (s : State) (p : PortIx) (vc : BitVec 2) (cls : Bool) (k : Packet) : State :=
  (s.modPort p fun x => { x with expect := x.expect + 1, nakSent := false, failures := 0, owed := vmod x.owed vc.toFin (· + 1) }).deliverPacket p vc cls k

/-- MALNY_FRAME (R322 to R327): FEC, CRC, tag, then the frame's fields and its packet. -/
def execMalnyFrame (p : PortIx) (f : Frame) (s : State) : Host.Outcome State Fault Refusal :=
  let st := portState s.ports[p]
  let vc := fld f.hdr 49 2
  if st ≠ 3 ∧ st ≠ 4 then done s s
  else
    let bad := f.symErrs.any fun n => decide (12 < n)
    let fixed := (f.symErrs.filter fun n => decide (0 < n ∧ n ≤ 12)).length
    let s1 := s.modPort p fun x => { x with stat := bump x.stat 0 32 fixed }
    if bad || !f.crcOk then done s ((s1.modPort p fun x => { x with stat := bump x.stat 32 16 1 }).discard p true)
    else if !f.tagOk then
      let s2 := (s1.modPort p fun x => { x with stat := bump x.stat 48 8 1 }).discard p false
      done s (if portState s2.ports[p] = 4 ∨ portState s2.ports[p] = 3 then s2.startRetrain p else s2)
    else
      let s2 := s1.clearFields p f.hdr
      match f.packet with
      | none => done s s2
      | some k =>
        if vc = 3 ∨ st = 3 then done s s2
        else if f.hdr.extractLsb' 0 24 ≠ s2.ports[p].expect then done s (s2.discard p false)
        else done s (s2.acceptFrame p (BitVec.ofNat 2 vc) (bit f.hdr 51) k).cutLost

/-! ## TRANSIT (R335) -/

/-- The entry that counts a slice's transit bytes (R335): its own, the first unbound, or the last. -/
def State.transitEntry (s : State) (id : BitVec 16) : Fin 64 :=
  match (List.finRange 63).find? fun i => decide (s.transit[i.val].extractLsb' 48 16 = id) with
  | some i => Fin.ofNat 64 i.val
  | none => match (List.finRange 64).find? fun i => decide (s.transit[i].extractLsb' 48 16 = 0xFFFF) with
    | some i => i
    | none => 63

/-- Transit bytes counted for a slice (R335). -/
def State.countTransit (s : State) (id : BitVec 16) (n : Nat) : State :=
  let i := s.transitEntry id
  let w := s.transit[i]
  let old : BitVec 16 := w.extractLsb' 48 16
  let name : BitVec 16 := if old = 0xFFFF ∨ old = id then id else 0xFFFE
  { s with transit := s.transit.set i (bump (setFld w 48 16 name.toNat) 0 48 n) }

/-- TRANSIT_SEND (R335): after some nanoseconds of filling, the first transit packet of a port starts when the allowance holds its
bytes. -/
def execTransitSend (p : PortIx) (elapsed : BitVec 32) (s : State) : Host.Outcome State Fault Refusal :=
  let s1 := s.modPort p fun x => { x with allowance := min 3584 (x.allowance + 112 * elapsed.toNat) }
  match s1.ports[p].transit with
  | [] => done s s1
  | q :: r =>
    let n := packetBytes q.packet
    if n ≤ s1.ports[p].allowance ∧ s1.maySend p 2 then
      let id := (headOf q.packet.hdr).slice
      let s2 := (s1.modPort p fun x => { x with transit := r, allowance := x.allowance - n }).sendFrame p q
      done s (if (s.membersOf id).isEmpty then s2.countTransit id n else s2)
    else done s s1

/-! ## CUT and LEAVING (R307, R308, R328, R336) -/

/-- CUT (R328): a member reports that a message of a slice cannot be delivered; this package is its cohort leader. -/
def execCut (sliceId : BitVec 16) (fromMember : BitVec 8) (s : State) : Host.Outcome State Fault Refusal :=
  done s ((s.takeType 6).cutSlice sliceId fromMember.toNat 0)

/-- The LEAVING of a package, with its MSG_ID, sent through a port (R336). -/
def State.sendLeaving (s : State) (p : PortIx) (address : BitVec 16) (msg : BitVec 32) : State :=
  let peer := portPeer s.ports[p].reg
  let h : Head := { dest := peer, src := address, slice := 0xFFFF, tenant := 0, typ := 7, last := true, signal := false, discard := false,
                    msg := msg, index := 0, count := 1, addr := 0, tile := 0, len := 0, model := 0, cohort := 0, word := 0, value := 0 }
  s.queuePacket p false 1 (s.crosses p) { hdr := h.bits, data := [] }

/-- A LEAVING sent on every port that is UP but one (R336). -/
def State.floodLeaving (s : State) (address : BitVec 16) (msg : BitVec 32) (but : Option PortIx) : State :=
  (List.finRange 12).foldl (fun s p => if s.portUp p && !decide (but = some p) then s.sendLeaving p address msg else s) s

/-- LEAVING (R308, R336): the first copy is flooded on and acted on. -/
def execLeaving (p : PortIx) (address : BitVec 16) (msg : BitVec 32) (s : State) : Host.Outcome State Fault Refusal :=
  let s1 := s.takeType 7
  done s (if s.left.contains (address, msg) ∨ address = s.address then s1
    else (({ s1 with left := s.left ++ [(address, msg)] }).floodLeaving address msg (some p)).memberLeft address)

end Sys2Proof.Machine
end

