-- ==== Sys2Proof/Machine/Rsa.lean ====
section
/-!
DEFINITION. Sys2Proof/Machine/Rsa.lean: RSA-4096 as Umathal uses it, RSASSA-PSS verification and RSAES-OAEP decryption with SHA-512
and MGF1-SHA-512 as PKCS #1 v2.2 publishes them (R364, R366, R380; PRESUMED, log entry 21).
-/
namespace Sys2Proof.Machine

/-- b to the power e modulo n, for an exponent of k bits. -/
def powMod (n : Nat) : Nat → Nat → Nat → Nat
  | 0, _, _ => 1 % n
  | k + 1, b, e =>
    let r := powMod n k (b * b % n) (e / 2)
    if e % 2 = 1 then b * r % n else r

/-- MGF1 with SHA-512: n bytes from a seed. -/
def mgf1 (seed : Bytes) (n : Nat) : Bytes :=
  ((List.range ((n + 63) / 64)).flatMap fun i => sha512 (seed ++ toBE 4 i)).take n

/-- Bytes exclusive-or, to the length of the shorter. -/
def xorBytes (a b : Bytes) : Bytes := List.zipWith (fun x y => x ^^^ y) a b

/-- The EMSA-PSS check of an encoded message of 512 bytes for a 4,096-bit modulus, with a 64-byte salt. -/
def pssOk (em mHash : Bytes) : Bool :=
  let masked := em.take 447
  let h := (em.drop 447).take 64
  let db := xorBytes masked (mgf1 h 447)
  let db := match db with | x :: r => (x &&& 0x7F) :: r | [] => []
  decide (em.getD 511 0 = 0xBC) && decide ((em.getD 0 0).toNat < 128) &&
    (db.take 382).all (fun x => decide (x = 0)) && decide (db.getD 382 0 = 1) &&
    decide (sha512 (List.replicate 8 0 ++ mHash ++ db.drop 383) = h)

/-- RSASSA-PSS verification of a message under a 4,096-bit key. -/
def pssVerify (n e : Nat) (sig msg : Bytes) : Bool :=
  let x := beNat sig
  decide (Nat.log2 n = 4095) && decide (sig.length = 512) && decide (x < n) && pssOk (toBE 512 (powMod n 32 x e)) (sha512 msg)

/-- RSAES-OAEP decryption of 512 bytes with a label; none when anything does not fit. -/
def oaepDecrypt (n d : Nat) (label cipher : Bytes) : Option Bytes :=
  let c := beNat cipher
  if Nat.log2 n ≠ 4095 ∨ cipher.length ≠ 512 ∨ n ≤ c then none
  else
    let em := toBE 512 (powMod n 4096 c d)
    let mdb := em.drop 65
    let seed := xorBytes ((em.drop 1).take 64) (mgf1 mdb 64)
    let db := xorBytes mdb (mgf1 seed 447)
    let rest := (db.drop 64).dropWhile fun x => decide (x = 0)
    if em.getD 0 0 = 0 ∧ db.take 64 = sha512 label then (match rest with | x :: m => if x = 1 then some m else none | [] => none)
    else none

end Sys2Proof.Machine
end

