-- ==== Sys2Proof/Machine/Security.lean ====
section
/-!
DEFINITION. Sys2Proof/Machine/Security.lean: tenants, keys, configuration slots, firmware, slices, the wiring plan and Loupe
(R309, R314, R315, R330 to R332, R351, R366 to R368, R378 to R392). A command whose seal failed never reaches these rows
(R353, TAKE_ENTRY).
-/
namespace Sys2Proof.Machine

/-- The admin command comes from the physical function (R349); otherwise it completes with DENIED. -/
def State.fromPf (s : State) (e : Sub) (opcode : BitVec 8) (k : State) : State :=
  if e.fn = 0 then k else s.completeAdmin e opcode 0x1C

/-- n bytes the spec gives no value or layout for, from draw k on (log entries 41, 42). -/
def freeBytesAt (k n : Nat) : Bytes :=
  (List.range n).map fun i => (Config.freeBits (k + i / 64)).extractLsb' (8 * (i % 64)) 8

/-- n such bytes, and the counter of free values advanced. -/
def State.freeBytes (s : State) (n : Nat) : Bytes × State :=
  (freeBytesAt s.fresh n, { s with fresh := s.fresh + (n + 63) / 64 })

/-! ## Tenants and keys (R378 to R380) -/

/-- TENANT_CREATE (R351, R378): the keys are the random ones Umathal generates. -/
def execTenantCreate (e : Sub) (fn : Fn) (pfx : BitVec 2) (classMap : BitVec 4) (relayEn loupeAllow : Bool)
    (swapKey prefixKey : BitVec 256) (s : State) : Host.Outcome State Fault Refusal :=
  done s (if pfx = 3 then s.completeAdmin e 0x45 0x2E (malformedAt 0x10)
    else s.fromPf e 0x45 <|
      if !s.fns[fn].present then s.completeAdmin e 0x45 0x1C
      else if (s.tenant? fn).isSome then s.completeAdmin e 0x45 0x21
      else
        let t : Tenant := { pfx := pfx, classMap := classMap, relayEn := relayEn, loupeAllow := loupeAllow }
        (s.modUm fun u => { u with
          swapKey := u.swapKey.set fn (some swapKey), prefixKey := u.prefixKey.set fn (some prefixKey)
          live := { u.live with tenants := u.live.tenants.set fn (some t) } }).completeAdmin e 0x45 0x00)

/-- TENANT_DESTROY (R351, R379): the function is disabled, and the command completes when that ends. -/
def execTenantDestroy (e : Sub) (fn : Fn) (s : State) : Host.Outcome State Fault Refusal :=
  done s (s.fromPf e 0x46 <|
    if !s.fns[fn].present then s.completeAdmin e 0x46 0x1C
    else if (s.tenant? fn).isNone then s.completeAdmin e 0x46 0x21
    else s.disableFor fn { sub := e, admin := true, opcode := 0x46, handle := 0 })

/-- FUNC_RESET (R351, R362): from the PF, or from a VF for itself. -/
def execFuncReset (e : Sub) (fn : Fn) (s : State) : Host.Outcome State Fault Refusal :=
  done s (if (e.fn ≠ 0 ∧ e.fn ≠ fn) ∨ !s.fns[fn].present then s.completeAdmin e 0x50 0x1C
    else s.disableFor fn { sub := e, admin := true, opcode := 0x50, handle := 0 })

/-- The label of the wrapped keys, "BX8-KEY" (R380). -/
def keyLabel : Bytes := [0x42, 0x58, 0x38, 0x2D, 0x4B, 0x45, 0x59]

/-- The key a KEY_INSTALL carries, when the ciphertext decrypts to it, FUNCTION and KIND (R380). -/
def State.unwrapKey (s : State) (wrapped : Bytes) (fn : Fn) (kind : Bool) : Option (BitVec 256) :=
  match oaepDecrypt s.um.wrapN s.um.wrapD keyLabel wrapped with
  | some p =>
    if p.length = 34 ∧ (p.getD 32 0).toNat = fn.val ∧ (p.getD 33 0).toNat = b2n kind then some (BitVec.ofNat 256 (leNat (p.take 32)))
    else none
  | none => none

/-- The KEY_INSTALL is DENIED (R349, R380): from a VF for another function, or from the PF for a VF whose command key is set. -/
def State.keyDenied (s : State) (e : Sub) (fn : Fn) : Bool :=
  if e.fn = 0 then decide (fn ≠ 0) && (s.um.cmdKey[fn]).isSome else decide (e.fn ≠ fn)

/-- A sequence of the tenant holds SWAPPED pages (R380). -/
def State.holdsSwapped (s : State) (f : Fn) : Bool :=
  s.seqs.any fun q => q.handle.isOwn && decide (q.handle.fn = f) && q.pages.any peSwapped

/-- KEY_INSTALL (R380). -/
def execKeyInstall (e : Sub) (fn : Fn) (kind : Bool) (wrapped : Bytes) (s : State) : Host.Outcome State Fault Refusal :=
  done s (match s.unwrapKey wrapped fn kind with
    | none => s.completeAdmin e 0x47 0x1A
    | some k =>
      if s.keyDenied e fn then s.completeAdmin e 0x47 0x1C
      else if kind then
        if (s.tenant? fn).isNone ∨ s.holdsSwapped fn then s.completeAdmin e 0x47 0x21
        else (s.modUm fun u => { u with swapKey := u.swapKey.set fn (some k) }).completeAdmin e 0x47 0x00
      else (s.modUm fun u => { u with cmdKey := u.cmdKey.set fn (some k) }).completeAdmin e 0x47 0x00)

/-! ## Configuration slots (R381 to R387) -/

/-- The live configuration (R381). -/
def State.liveCfg (s : State) : Cfg :=
  { s.um.live with slices := s.slices, scrubHours := s.scrubHours, rateLimit := s.rateLimit, hangLimit := s.sync.hangLimit }

/-- A Mirror slot is valid (R382). -/
def Umathal.slotValid (u : Umathal) (x : Option Mirror) : Bool :=
  match x with
  | some m => m.authentic && decide (m.state ≠ 2) &&
      (u.banks[Fin.ofNat 2 (b2n m.cfg.fwBank)]).any fun b => decide (b.digest = m.cfg.bankDigest)
  | none => false

/-- The booted slot (R387); none when the factory configuration booted. -/
def Umathal.bootedSlot (u : Umathal) : Option Mirror := if u.factory then none else if u.booted then u.slotB else u.slotA

/-- The booted slot is UNCONFIRMED (R385, R388). -/
def Umathal.unconfirmed (u : Umathal) : Bool := u.bootedSlot.any fun m => decide (m.state = 1)

/-- The booted slot's VERSION (R387). -/
def Umathal.bootedVersion (u : Umathal) : Nat := match u.bootedSlot with | some m => m.version.toNat | none => 0

/-- Umathal with one slot written, true slot B. -/
def Umathal.putSlot (u : Umathal) (b : Bool) (m : Option Mirror) : Umathal := if b then { u with slotB := m } else { u with slotA := m }

/-- CONFIG_STAGE (R384): the digest is of contents whose layout is open (log entry 41). -/
def execConfigStage (e : Sub) (loupeMode : BitVec 2) (s : State) : Host.Outcome State Fault Refusal :=
  done s (if loupeMode = 3 then s.completeAdmin e 0x49 0x2E (malformedAt 0x10)
    else s.fromPf e 0x49 <|
      let d := (Config.freeBits s.fresh).extractLsb' 0 64
      let s := s.modUm fun u => { u with live := { u.live with loupeMode := loupeMode } }
      let s := { s with fresh := s.fresh + 1 }
      let c := s.liveCfg
      (s.modUm fun u => { u with staged := some c, stagedDigest := d }).completeAdmin e 0x49 0x00 d)

/-- CONFIG_COMMIT with OP COMMIT (R385). -/
def execConfigCommit (e : Sub) (digest : BitVec 64) (s : State) : Host.Outcome State Fault Refusal :=
  done s (s.fromPf e 0x4A <|
    match s.um.staged with
    | none => s.completeAdmin e 0x4A 0x21
    | some c =>
      if s.um.stagedDigest ≠ digest ∨ s.um.unconfirmed ∨ 0xFFFFFFFF ≤ s.um.bootedVersion then s.completeAdmin e 0x4A 0x21
      else
        let m : Mirror := { version := BitVec.ofNat 32 (s.um.bootedVersion + 1), state := 1, boots := 0, authentic := true, cfg := c }
        (s.modUm fun u => u.putSlot (!u.booted) (some m)).completeAdmin e 0x4A 0x00)

/-- SVN of the active bank (R390). -/
def Umathal.activeSvn (u : Umathal) : Nat := match u.banks[Fin.ofNat 2 (b2n u.activeBank)] with | some b => b.svn.toNat | none => 0

/-- The fuses blown up to the active bank's SVN, when the slot names that bank (R368). -/
def Umathal.blow (u : Umathal) (m : Mirror) : Umathal :=
  if m.cfg.fwBank = u.activeBank then { u with fusedSvn := max u.fusedSvn u.activeSvn } else u

/-- CONFIG_COMMIT with OP CONFIRM (R368, R385). -/
def execConfigConfirm (e : Sub) (s : State) : Host.Outcome State Fault Refusal :=
  done s (s.fromPf e 0x4A <|
    match s.um.bootedSlot with
    | some m =>
      if m.state = 0 then s.completeAdmin e 0x4A 0x21
      else (s.modUm fun u => (u.putSlot u.booted (some { m with state := 0 })).blow m).completeAdmin e 0x4A 0x00
    | none => s.completeAdmin e 0x4A 0x21)

/-- CONFIG_REVERT (R386). -/
def execConfigRevert (e : Sub) (s : State) : Host.Outcome State Fault Refusal :=
  done s (s.fromPf e 0x4B <|
    if !s.um.slotValid (if s.um.booted then s.um.slotA else s.um.slotB) then s.completeAdmin e 0x4B 0x21
    else match s.um.bootedSlot with
      | some m => (s.modUm fun u => u.putSlot u.booted (some { m with state := 2 })).completeAdmin e 0x4B 0x00
      | none => s.completeAdmin e 0x4B 0x00)

/-! ## Firmware (R366, R367, R388, R389) -/

/-- Every byte of a run is zero. -/
def zeroRun (b : Bytes) (lo n : Nat) : Bool := ((b.drop lo).take n).all fun x => decide (x = 0)

/-- The header of a firmware image is as R367 lays it out, for an image of that length. -/
def fwHeaderOk (b : Bytes) : Bool :=
  let len := leAt b 0x10 4
  decide (leAt b 0 4 = 0x4F514657) && decide (leAt b 8 4 < 64) && zeroRun b 0x0E 2 && decide (8192 ≤ len) && decide (len ≤ 2 ^ 26) &&
    decide (len % 4096 = 0) && decide (len ≤ b.length) && zeroRun b 0x14 (0x400 - 0x14) && zeroRun b 0xA00 0x600

/-- The three checks of R366 on an image. -/
def Umathal.fwVerifies (u : Umathal) (b : Bytes) : Bool :=
  let key := (b.drop 0x400).take 516
  let msg := b.take 0x800 ++ (b.take (leAt b 0x10 4)).drop 0x1000
  fwHeaderOk b && decide (digestOf key = u.keyHash) &&
    pssVerify (beNat (key.take 512)) (beNat (key.drop 512)) ((b.drop 0x800).take 512) msg && decide (u.fusedSvn ≤ leAt b 8 4 % 64)

/-- The bank an image fills (R367, R371). -/
def bankOf (b : Bytes) : Bank :=
  { version := BitVec.ofNat 32 (leAt b 4 4), svn := BitVec.ofNat 6 (leAt b 8 4), proto := BitVec.ofNat 16 (leAt b 0xC 2), verifies := true,
    digest := digestOf (b.take (leAt b 0x10 4)) }

/-- A bank passes R366. -/
def Umathal.bankOk (u : Umathal) (b : Bank) : Bool := b.verifies && decide (u.fusedSvn ≤ b.svn.toNat)

/-- FW_STAGE (R388). -/
def execFwStage (e : Sub) (readOk : Bool) (img : Bytes) (s : State) : Host.Outcome State Fault Refusal :=
  done s (s.fromPf e 0x4C <|
    let i : Fin 2 := Fin.ofNat 2 (b2n !s.um.activeBank)
    if s.um.unconfirmed then s.completeAdmin e 0x4C 0x21
    else if !readOk then ((s.modUm fun u => { u with banks := u.banks.set i none }).logHostRead e.fn 0xFF).completeAdmin e 0x4C 0x2F
    else if s.um.fwVerifies img then (s.modUm fun u => { u with banks := u.banks.set i (some (bankOf img)) }).completeAdmin e 0x4C 0x00
    else (s.modUm fun u => { u with banks := u.banks.set i none }).completeAdmin e 0x4C 0x22 0)

/-- FW_ACTIVATE (R389): whether the new firmware accepts the handover is the operand. -/
def execFwActivate (e : Sub) (accepted : Bool) (s : State) : Host.Outcome State Fault Refusal :=
  done s (s.fromPf e 0x4D <|
    let proto := match s.um.banks[Fin.ofNat 2 (b2n s.um.activeBank)] with | some a => a.proto | none => 0
    match s.um.banks[Fin.ofNat 2 (b2n !s.um.activeBank)] with
    | none => s.completeAdmin e 0x4D 0x21
    | some b =>
      if b.proto ≠ proto && s.slices.any fun x => decide (1 < x.members.length) then s.completeAdmin e 0x4D 0x21
      else if !s.um.bankOk b then s.completeAdmin e 0x4D 0x22 0
      else if !accepted then s.completeAdmin e 0x4D 0x22 1
      else (s.modUm fun u => { u with
        activeBank := !u.activeBank, live := { u.live with fwBank := !u.activeBank, bankDigest := b.digest } }).completeAdmin e 0x4D 0x00)

/-! ## Job slices (R229, R230, R330 to R332) -/

/-- The addresses of a slice list (R330). -/
def listMembers (n : Nat) (list : Bytes) : List (BitVec 16) := (List.range n).map fun k => BitVec.ofNat 16 (leAt list (2 * k) 2)

/-- The ring boards of a slice list (R330). -/
def listRing (n : Nat) (list : Bytes) : List (BitVec 8) := (List.range n).map fun j => list.getD (512 + j) 0

/-- Strictly ascending addresses. -/
def ascending : List (BitVec 16) → Bool
  | a :: b :: r => decide (a < b) && ascending (b :: r)
  | _ => true

/-- Two boards are torus neighbours (R313). -/
def boardsTouch (a b : Nat) : Bool :=
  let dx := (boardX a + 4 - boardX b) % 4
  let dy := (boardY a + 4 - boardY b) % 4
  decide (dx = 0 ∧ dy % 2 = 1) || decide (dy = 0 ∧ dx % 2 = 1)

/-- Each element and its follower, round the ring. -/
def ringPairs (l : List (BitVec 8)) : List (BitVec 8 × BitVec 8) := l.zip (l.drop 1 ++ l.take 1)

/-- A board lies on one torus axis with every board of a ring (R229: rings of up to 4 boards follow one axis). -/
def oneAxis (l : List (BitVec 8)) : Bool :=
  match l with
  | [] => true
  | a :: r => r.all (fun b => decide (boardX a.toNat = boardX b.toNat)) || r.all fun b => decide (boardY a.toNat = boardY b.toNat)

/-- The ring is one of R229 and R331 step 5. -/
def ringOk (members : List (BitVec 16)) (ring : List (BitVec 8)) : Bool :=
  ring.isEmpty ||
  (decide ring.Nodup && ring.all (fun b => decide (b.toNat < 16)) && (ringPairs ring).all (fun p => boardsTouch p.1.toNat p.2.toNat) &&
    (decide (4 < ring.length) || oneAxis ring) &&
    members.all (fun a => decide (some (adRack a) = members.head?.map adRack) && ring.any fun b => decide (b.toNat = adBoard a)) &&
    ring.all fun b => members.any fun a => decide (b.toNat = adBoard a))

/-- RELAY_SPAN is one R230 allows. -/
def relaySpanOk (ringLen span : Nat) : Bool :=
  if ringLen = 0 then decide (span = 0) else decide (256 ≤ span) && decide (span ≤ 65280) && decide (span % 256 = 0)

/-- Every pair of members has a route as far as this package can tell (R331 step 6). -/
def State.allPairs (s : State) (members : List (BitVec 16)) : Bool :=
  members.all fun a => members.all fun b => s.routed a b members

/-- The checks 1 to 6 and 8 of R331. -/
def State.sliceOk (s : State) (id : BitVec 16) (fn : Fn) (members : List (BitVec 16)) (ringLen : Nat) (ring : List (BitVec 8)) (span : Nat) :
    Bool :=
  decide (ringLen ≠ 1 ∧ ringLen ≤ 16) && ascending members && members.contains s.address &&
    !(s.slices.any fun x => decide (x.fn = fn) && decide (x.id ≠ id)) && s.fns[fn].enabled && relaySpanOk ringLen span &&
    ringOk members ring && s.allPairs members && !(s.slices.any fun x => decide (x.id = id) && decide (x.fn ≠ fn))

/-- The body of SLICE_DEFINE from 0x10 (R330). -/
def sliceBody (id : BitVec 16) (fn : Fn) (members : BitVec 8) (ringLen : BitVec 5) (span : BitVec 16) (addr : BitVec 64) : Bytes :=
  toLE 4 (id.toNat + 65536 * fn.val) ++ toLE 4 (members.toNat + 256 * ringLen.toNat) ++ toLE 8 span.toNat ++ toLE 8 addr.toNat ++
    List.replicate 24 0

/-- The package's SLICE packet to one member (R331 step 7). -/
def State.tellSlice (s : State) (x : Slice) (member : BitVec 16) : State :=
  s.control x.id x.members x.fn.val 8 member (toLE 64 x.digest.toNat)

/-- A pending slice every member agrees on becomes ACTIVE, in place of what was held before (R331, R332). -/
def State.settleSlice (s : State) (id : BitVec 16) : State :=
  match s.slices.find? fun x => decide (x.id = id) && decide (x.state = .pending) with
  | none => s
  | some x =>
    if x.agreed.length = x.members.length then
      let y := { x with state := .active, sub := none }
      let s := { s with slices := s.slices.filter (fun z => !decide (z.id = id)) ++ [y] }
      match x.sub with
      | some e => s.completeAdmin e 0x4E 0x00
      | none => s
    else s

/-- SLICE_DEFINE with MEMBERS above 0 (R330, R331). -/
def execSliceDefine (e : Sub) (sliceId : BitVec 16) (fn : Fn) (members : BitVec 8) (ringLen : BitVec 5) (relaySpan : BitVec 16)
    (listAddr : BitVec 64) (list : Bytes) (s : State) : Host.Outcome State Fault Refusal :=
  done s (if sliceId = 0xFFFF then s.completeAdmin e 0x4E 0x2E (malformedAt 0x10)
    else s.fromPf e 0x4E <|
      let ms := listMembers members.toNat list
      let ring := listRing ringLen.toNat list
      if !s.sliceOk sliceId fn ms ringLen.toNat ring relaySpan.toNat then s.completeAdmin e 0x4E 0x2C
      else
        let x : Slice := { id := sliceId, fn := fn, members := ms, ring := ring, relaySpan := relaySpan.toNat, state := .pending,
                           digest := digestOf (sliceBody sliceId fn members ringLen relaySpan listAddr ++ list.take 528),
                           agreed := (List.range ms.length).filter fun k => decide (ms[k]? = some s.address), sub := some e,
                           memberLost := false }
        let s := { s with slices := (s.slices.filter fun (z : Slice) => !(decide (z.id = sliceId) && decide (z.state = .pending))) ++ [x] }
        ((ms.filter fun a => decide (a ≠ s.address)).foldl (fun (s : State) a => s.tellSlice x a) s).settleSlice sliceId)

/-- SLICE_DEFINE with MEMBERS 0 (R331). -/
def execSliceRemove (e : Sub) (sliceId : BitVec 16) (fn : Fn) (s : State) : Host.Outcome State Fault Refusal :=
  done s (if sliceId = 0xFFFF then s.completeAdmin e 0x4E 0x2E (malformedAt 0x10)
    else s.fromPf e 0x4E <|
      let loaded := (List.finRange 64).any fun m => (s.load? m).any fun l => decide (l.sliceId = sliceId)
      if loaded || !(s.slices.any fun x => decide (x.id = sliceId) && decide (x.fn = fn)) then s.completeAdmin e 0x4E 0x2C
      else ({ s with slices := s.slices.filter fun x => !decide (x.id = sliceId) }).completeAdmin e 0x4E 0x00)

/-- SLICE_AGREEMENT_TIMEOUT (R331 step 7): 100 ms have passed without every member's packet. -/
def execSliceAgreementTimeout (sliceId : BitVec 16) (s : State) : Host.Outcome State Fault Refusal :=
  match s.slices.find? fun x => decide (x.id = sliceId) && decide (x.state = .pending) with
  | none => done s s
  | some x =>
    let s1 := { s with slices := s.slices.filter fun z => !(decide (z.id = sliceId) && decide (z.state = .pending)) }
    done s (match x.sub with | some e => s1.completeAdmin e 0x4E 0x2C | none => s1)

/-- SLICE_PACKET (R331 step 7): a member's digest has arrived; the first one that agrees is answered (log entry 43). -/
def execSlicePacket (sliceId : BitVec 16) (member : BitVec 8) (digest : BitVec 512) (checksOk : Bool) (s : State) :
    Host.Outcome State Fault Refusal :=
  let k := member.toNat
  let s := s.takeType 8
  let hit (x : Slice) : Bool := decide (x.id = sliceId) && checksOk && decide (x.digest = digest) && decide (k < x.members.length) &&
    !x.agreed.contains k
  match s.slices.find? hit with
  | none => done s s
  | some x =>
    let s1 := { s with slices := updFirst hit (fun x => { x with agreed := x.agreed ++ [k] }) s.slices }
    let s1 := match x.members[k]? with | some a => if a = s.address then s1 else s1.tellSlice x a | none => s1
    done s (s1.settleSlice sliceId)

/-! ## The wiring plan (R314, R315) -/

/-- ROUTE_LOAD (R314, R315): the plan takes effect at once, and every port's discovery is repeated (R319). -/
def execRouteLoad (e : Sub) (rackId slotMask : BitVec 8) (boardMask : BitVec 16) (uplink : Bool) (reserved : BitVec 31) (table : Bytes)
    (s : State) : Host.Outcome State Fault Refusal :=
  done s (if reserved ≠ 0 then s.completeAdmin e 0x4F 0x2E (malformedAt 0x14)
    else s.fromPf e 0x4F <|
      if !s.slices.isEmpty || !bit boardMask s.boot.boardId.toNat || !bit slotMask s.boot.slotId.toNat || decide (rackId = 0xFF) then
        s.completeAdmin e 0x4F 0x2D
      else
        let p : Plan := { rackId := rackId, slotMask := slotMask, boardMask := boardMask, uplink := if uplink then some table else none }
        ((s.modUm fun u => { u with live := { u.live with plan := some p } }).rediscover).completeAdmin e 0x4F 0x00)

/-! ## Loupe (R309, R391, R392) -/

/-- Field [lo + w − 1 : lo] of the word at an offset of an entry, given the body from 0x10. -/
def lField (b : BitVec 384) (off lo w : Nat) : Nat := fld b (8 * (off - 16) + lo) w

/-- The tenant exists with LOUPE_ALLOW clear (R392). -/
def State.loupeBars (s : State) (f : Fn) : Bool := match s.tenant? f with | some t => !t.loupeAllow | none => false

/-- A watch entry as LOUPE_READ returns it (R296). -/
def watchBits (k : Watch) : BitVec 64 :=
  pack 64 [(63, 1, 1), (62, 1, b2n k.observe), (46, 16, k.word.toNat), (42, 4, k.tenant.val), (39, 3, k.unitHome.toNat),
    (36, 3, k.engine.toNat), (0, 36, k.registered.toNat)]

/-- One sync entry of a space as LOUPE_READ returns it (R284, R286, R296, R309). -/
def State.syncEntry (s : State) (space i : Nat) : BitVec 64 :=
  if space = 0 then s.word (BitVec.ofNat 16 i)
  else if space = 1 then (match s.sync.watches.find? fun k => decide (k.id = i) with | some k => watchBits k | none => 0)
  else s.owner i

/-- Entries of a sync space (R309). -/
def spaceSize (space : Nat) : Nat := if space = 0 then 65536 else if space = 1 then 16384 else 1024

/-- The status of a LOUPE_READ of sync state, or its bytes (R309, R392). -/
def State.loupeSync (s : State) (b : BitVec 384) : Except (BitVec 8 × BitVec 64) (Bytes × State) :=
  let space := lField b 0x10 8 2
  let first := lField b 0x10 16 16
  let n := lField b 0x14 0 16
  if space = 3 ∨ lField b 0x10 10 6 ≠ 0 then .error (0x2E, malformedAt 0x10)
  else if spaceSize space ≤ first then .error (0x2E, malformedAt 0x10)
  else if n = 0 ∨ 4096 < n ∨ spaceSize space < first + n ∨ lField b 0x14 16 16 ≠ 0 then .error (0x2E, malformedAt 0x14)
  else if lField b 0x18 0 64 ≠ 0 then .error (0x2E, malformedAt 0x18)
  else if decide (space = 0) && (List.range n).any fun i => s.loupeBars (wTenant (s.word (BitVec.ofNat 16 (first + i)))) then .error (0x1C, 0)
  else .ok ((List.range n).flatMap fun i => toLE 8 (s.syncEntry space (first + i)).toNat, s)

/-- A tile's scratchpad range touches a region of a model whose tenant bars Loupe (R392). -/
def State.scratchBarred (s : State) (t : TileIx) (lo n : Nat) : Bool :=
  (List.finRange 64).any fun m => match s.load? m, s.programs? m with
    | some l, some p => decide (l.spBase[t] < lo + n) && decide (lo < l.spBase[t] + p.spSpan[t]) && s.loupeBars l.owner
    | _, _ => false

/-- A monitor's state as the 32 bytes of a LOUPE_READ (R104, R113, R391; log entry 42): DRIFT_ABS, DRIFT_FACTOR, W, B, WARM, the re-run
count, and zeros. -/
def monitorBytes (lim : BitVec 32 × BitVec 32) (x : Monitor) : Bytes :=
  toLE 4 lim.1.toNat ++ toLE 4 lim.2.toNat ++ toLE 4 x.w ++ toLE 4 x.base.toNat ++ toLE 4 (b2n x.warm) ++ toLE 4 x.reruns.toNat ++ toLE 8 0

/-- The bytes a LOUPE_READ returns, or its status (R391, R392). -/
def State.loupeBytes (s : State) (b : BitVec 384) : Except (BitVec 8 × BitVec 64) (Bytes × State) :=
  match lField b 0x10 0 8 with
  | 1 =>
    match slotOf (BitVec.ofNat 16 (lField b 0x14 0 16)) with
    | none => .error (0x2E, malformedAt 0x14)
    | some m => match s.load? m with
      | some l => match l.monitors[lField b 0x18 0 9]? with
        | some x => .ok (monitorBytes (s.driftLimits m (lField b 0x18 0 9)) x, s)
        | none => .error (0x21, 0)
      | none => .error (0x21, 0)
  | 2 =>
    let first := lField b 0x18 0 16
    let n := lField b 0x18 16 16
    if 256 < first + n then .error (0x2E, malformedAt 0x18)
    else match s.seq? (.own (BitVec.ofNat 32 (lField b 0x14 0 32))) with
      | none => .error (0x21, 0)
      | some q =>
        if s.loupeBars q.handle.fn then .error (0x1C, 0)
        else
          let dir := s.freeBytes 1024
          .ok (dir.1 ++ (List.range (256 * n)).flatMap (fun i => toLE 4 (q.pages.getD (256 * first + i) 0).toNat), dir.2)
  | 3 => s.loupeSync b
  | 4 =>
    let t : TileIx := Fin.ofNat 4 (lField b 0x10 8 2)
    let lo := lField b 0x14 0 28
    let n := lField b 0x28 0 32
    if lo % 64 ≠ 0 ∨ 192 * 2 ^ 20 < lo + n then .error (0x2E, malformedAt 0x14)
    else if n < 64 ∨ 1048576 < n then .error (0x2E, malformedAt 0x28)
    else if s.scratchBarred t lo n then .error (0x1C, 0)
    else .ok (s.scrGet t lo n, s)
  | _ => .error (0x2E, malformedAt 0x10)

/-- LOUPE_READ (R309, R391, R392): no more bytes are written than the buffer holds. -/
def execLoupeRead (e : Sub) (body : BitVec 384) (s : State) : Host.Outcome State Fault Refusal :=
  done s (if lField body 0x20 0 6 ≠ 0 then s.completeAdmin e 0x51 0x2E (malformedAt 0x20)
    else if lField body 0x10 0 8 = 0 ∨ 4 < lField body 0x10 0 8 then s.completeAdmin e 0x51 0x2E (malformedAt 0x10)
    else s.fromPf e 0x51 <|
      if s.um.live.loupeMode ≠ 1 ∧ s.um.live.loupeMode ≠ 2 then s.completeAdmin e 0x51 0x1C
      else match s.loupeBytes body with
        | .error x => s.completeAdmin e 0x51 x.1 x.2
        | .ok (bs, s) =>
          let out := bs.take (lField body 0x28 0 32)
          (s.post (.bytes e.fn (BitVec.ofNat 64 (lField body 0x20 0 64)) out)).completeAdmin e 0x51 0x00 (BitVec.ofNat 64 out.length))

/-- The issuer and mode checks of LOUPE_SET (R392), and the tenant check given. -/
def State.loupeSet (s : State) (e : Sub) (barred : Bool) (k : State) : State :=
  s.fromPf e 0x52 (if s.um.live.loupeMode ≠ 2 ∨ barred then s.completeAdmin e 0x52 0x1C else k)

/-- A LOUPE_SET that completes OK is counted (R371, R392). -/
def State.loupeOk (s : State) (e : Sub) : State :=
  (s.modUm fun u => { u with loupeSets := u.loupeSets + 1 }).completeAdmin e 0x52 0x00

/-- The outcome of a sync operation by LOUPE_SET (R309): FULL and OWNER_LOST refuse. -/
def State.loupeSync2 (s : State) (e : Sub) (r : BitVec 3 × State) : State :=
  if r.1 = syOk then r.2.loupeOk e else s.completeAdmin e 0x52 0x2B

/-- LOUPE_SET SYNC FILL (R309). -/
def execLoupeSetFill (e : Sub) (word : BitVec 16) (value : BitVec 48) (s : State) : Host.Outcome State Fault Refusal :=
  done s (s.loupeSet e (s.loupeBars (wTenant (s.word word))) (s.loupeSync2 e (s.applyFill word value)))

/-- LOUPE_SET SYNC CLEAR (R309). -/
def execLoupeSetClear (e : Sub) (word : BitVec 16) (s : State) : Host.Outcome State Fault Refusal :=
  done s (s.loupeSet e (s.loupeBars (wTenant (s.word word))) (s.loupeSync2 e (s.applyClear word)))

/-- LOUPE_SET SYNC POISON (R309). -/
def execLoupeSetPoison (e : Sub) (word : BitVec 16) (s : State) : Host.Outcome State Fault Refusal :=
  done s (s.loupeSet e (s.loupeBars (wTenant (s.word word))) (s.loupeSync2 e (s.applyPoison word)))

/-- LOUPE_SET SCRATCH (R391, R392). -/
def execLoupeSetScratch (e : Sub) (tile : TileIx) (offset : BitVec 28) (data : Bytes) (s : State) : Host.Outcome State Fault Refusal :=
  done s (if offset.toNat % 64 ≠ 0 ∨ 192 * 2 ^ 20 < offset.toNat + data.length then s.completeAdmin e 0x52 0x2E (malformedAt 0x14)
    else if data.length < 64 ∨ 1048576 < data.length then s.completeAdmin e 0x52 0x2E (malformedAt 0x28)
    else s.loupeSet e (s.scratchBarred tile offset.toNat data.length) ((s.scrPut tile offset.toNat data).loupeOk e))

end Sys2Proof.Machine
end

