-- ==== Sys2Proof/Machine/Regs.lean ====
section
/-!
DEFINITION. Sys2Proof/Machine/Regs.lean: the set-up register map (chapter 19): what each register reads as, what a read clears and
what a write changes.
-/
namespace Sys2Proof.Machine

/-- A count that stops at all ones (R421). -/
def satInc (x : BitVec 32) : BitVec 32 := if x = BitVec.allOnes 32 then x else x + 1

/-- What one 8-byte slot of BAR0 shows: its value, its RC fields (position, width), and the state once its word is replaced. -/
structure RegView where
  value : BitVec 64
  rc : List (Nat × Nat)
  store : BitVec 64 → State

/-- A register whose fields no read clears. -/
def State.ro (s : State) (v : BitVec 64) : RegView := { value := v, rc := [], store := fun _ => s }

/-! ## Computed registers -/

/-- STAGE as its code (R395). -/
def stageCode : Stage → Nat
  | .aon => 0
  | .secureBoot => 1
  | .dramTrain => 2
  | .linkTrain => 3
  | .ready => 4

/-- BRINGUP_STATUS (R395). -/
def State.bringupStatus (s : State) : BitVec 64 :=
  pack 64 [(32, 32, s.boot.dropped.toNat), (24, 8, s.boot.failCode.toNat), (12, 12, s.boot.failArg.toNat), (11, 1, b2n s.boot.failed),
    (10, 1, b2n s.um.lastTrip), (0, 3, stageCode s.boot.stage)]

/-- k of the part (R400). -/
def State.partK (s : State) : Nat := if s.boot.partE then 12 else 16

/-- CAUSE of POWER_STAT (R404): power, temperature, pin. -/
def State.throttleCause (s : State) : Nat :=
  b2n (decide (s.power.pk < s.partK)) + 2 * b2n (decide (s.power.tk < s.partK)) + 4 * b2n (!s.pins.throttleInN)

/-- POWER_STAT (R404). -/
def State.powerStat (s : State) : BitVec 64 :=
  pack 64 [(48, 16, s.power.throttled.toNat), (32, 3, s.throttleCause), (16, 12, s.power.watts.toNat), (0, 5, s.power.k)]

/-- STATE_A or STATE_B of MIRROR_STATE (R387). -/
def State.slotState (s : State) (x : Option Mirror) : Nat :=
  match x with
  | some m => if m.authentic && (decide (m.state = 2) || s.um.slotValid x) then m.state.toNat else 3
  | none => 3

/-- MIRROR_STATE (R387). -/
def State.mirrorState (s : State) : BitVec 64 :=
  let boots := match s.um.bootedSlot with | some m => m.boots.toNat | none => 0
  pack 64 [(32, 32, s.um.bootedVersion), (11, 1, b2n s.um.staged.isSome), (10, 1, b2n s.um.factory), (9, 1, b2n s.um.autoReverted),
    (8, 1, b2n s.um.booted), (6, 2, s.slotState s.um.slotB), (4, 2, s.slotState s.um.slotA), (2, 2, boots)]

/-- FW_STATE (R390). -/
def State.fwState (s : State) : BitVec 64 :=
  let u := s.um
  let a := u.banks[Fin.ofNat 2 (b2n u.activeBank)]
  let version := match a with | some b => b.version.toNat | none => 0
  let staged := (u.banks[Fin.ofNat 2 (b2n !u.activeBank)]).any u.bankOk
  pack 64 [(32, 32, version), (26, 6, u.fusedSvn), (20, 6, u.activeSvn), (19, 1, b2n staged), (18, 1, b2n u.activeBank)]

/-- FLASH_WEAR (R267). -/
def State.flashWear (s : State) : BitVec 64 :=
  let f := s.flash
  let total := (f.targets.toList.map (·.toNat)).sum * targetBlocks
  let counts := (f.blocks.filter fun b => !b.bad).map (·.erase)
  let low := if f.blocks.length < total then 0 else counts.foldl min (counts.headD 0)
  pack 64 [(32, 16, min 0xFFFF ((f.blocks.map (·.erase)).foldl max 0)), (16, 16, min 0xFFFF low),
    (0, 16, min 0xFFFF (f.blocks.filter fun b => b.bad).length)]

/-- FLASH_CHAN_STATE (R260). -/
def State.chanState (s : State) : BitVec 64 := pack 64 ((List.finRange 32).map fun c => (2 * c.val, 2, s.flash.chan[c].toNat))

/-- MiB, rounded up (R252). -/
def mib (n : Nat) : Nat := cdiv n (2 ^ 20)

/-- Bytes of a slot's sections of one tier in flash, mirrors left out (R252). -/
def State.tierBytes (s : State) (m : SlotIx) (tier : Nat) : Nat :=
  match s.image? m with
  | some im => ((im.sections.filter fun x => inPart s.models[m].part x && decide (x.tier.toNat = tier)).map fun x => x.length.toNat).sum
  | none => 0

/-- Bytes of swap records written and not read back (R252). -/
def State.swapBytes (s : State) (m : SlotIx) : Nat :=
  ((s.seqsOf m).map fun q => (q.pages.filter peSwapped).length).sum * (s.frameSize m + 128)

/-- STATE of MODEL_STATE as its code (R252). -/
def mstateCode : MState → Nat
  | .empty => 0
  | .incomplete => 1
  | .installed => 2
  | .loading => 3
  | .loaded => 4
  | .erasing => 5

/-- MODEL_STATE (R252). -/
def State.modelState (s : State) (m : SlotIx) : BitVec 64 :=
  let x := s.models[m]
  let has (p : Section → Bool) : Bool := match s.image? m with | some im => im.sections.any p | none => false
  pack 64 [(7, 1, b2n (has fun y => decide (y.tier = 1))), (6, 1, b2n (has fun y => y.mirror)), (4, 1, b2n x.degraded), (0, 4, mstateCode x.state)]

/-- TILE_RS_ALLOC (R99): registers in use and the longest free span. -/
def State.rsAlloc (s : State) (t : TileIx) : BitVec 64 :=
  let us := s.loads.map fun x => (x.1.rsBase[t], x.2.rsSpan[t])
  let us := sortBy (fun (a b : Nat × Nat) => decide (a.1 < b.1)) (us.filter fun u => decide (0 < u.2))
  let r := us.foldl (fun (a : Nat × Nat) u => (max a.1 (u.1 - a.2), max a.2 (u.1 + u.2))) (0, 0)
  pack 64 [(32, 17, (us.map (·.2)).sum), (0, 17, max r.1 (65536 - r.2))]

/-- FN_STATE (R361). -/
def State.fnState (s : State) (f : Fn) : BitVec 64 :=
  let x := s.fns[f]
  pack 64 [(3, 1, b2n (x.enabled && !x.bme)), (2, 1, b2n x.disabling), (1, 1, b2n (s.tenant? f).isSome), (0, 1, b2n x.enabled)]

/-- RING_CTL (R342). -/
def ringCtl (r : Ring) : BitVec 64 :=
  pack 64 [(48, 16, r.index.toNat), (40, 8, r.coalUs.toNat), (32, 8, r.coalCount.toNat), (26, 6, r.vector.toNat), (25, 1, b2n r.irqEn),
    (16, 5, r.log2.toNat), (1, 1, b2n r.fault), (0, 1, b2n r.enable)]

/-! ## The pages (R419, R424 to R430) -/

/-- The identity page (R424). -/
def State.idReg (s : State) (viewer : Fn) (o : Nat) : BitVec 64 :=
  match o with
  | 0x00 => 0x4F514238
  | 0x08 => pack 64 [(32, 16, 1), (24, 8, 0xB0), (8, 8, b2n s.boot.partE), (0, 4, viewer.val)]
  | 0x10 => pack 64 [(0, 32, s.boot.device.toNat)]
  | 0x18 => pack 64 [(48, 16, 1), (32, 16, 0x1F0C), (16, 16, if viewer = 0 then 0xB808 else 0xB809), (0, 16, 0x1F0C)]
  | 0x20 => pack 64 [(16, 1, b2n s.um.live.plan.isSome), (0, 16, s.address.toNat)]
  | _ => 0

/-- Four 16-bit RC fields. -/
def rc16x4 : List (Nat × Nat) := [(48, 16), (32, 16), (16, 16), (0, 16)]
/-- Two 32-bit RC fields. -/
def rc32x2 : List (Nat × Nat) := [(32, 32), (0, 32)]
/-- UNCORRECTABLE and CORRECTED (R257, R408). -/
def rcEcc : List (Nat × Nat) := [(48, 16), (16, 32)]
/-- Two 24-bit RC fields over one of 16 bits. -/
def rc24 : List (Nat × Nat) := [(40, 24), (16, 24), (0, 16)]

/-- The package page below the Malny registers (R426). -/
def State.packageReg (s : State) (o : Nat) : RegView :=
  match o with
  | 0x000 => s.ro (pack 64 [(56, 8, s.power.tileClk.toNat), (0, 20, s.power.pllOffDelay.toNat)])
  | 0x008 => s.ro (pack 64 [(0, 12, s.power.cap.toNat)])
  | 0x010 => { value := s.powerStat, rc := [(48, 16)], store := fun w => s.modPower fun x => { x with throttled := w.extractLsb' 48 16 } }
  | 0x018 => s.ro (pack 64 [(24, 8, s.power.logicThrottle.toNat), (16, 8, s.power.dramThrottle.toNat), (8, 8, 115), (0, 8, 105)])
  | 0x100 => s.ro s.mirrorState
  | 0x108 => s.ro s.fwState
  | 0x200 => s.ro (pack 64 [(16, 16, s.rateLimit.toNat), (0, 8, s.scrubHours.toNat)])
  | 0x300 => s.ro s.chanState
  | 0x308 => { value := s.flash.readStat, rc := rc16x4, store := fun w => s.modFlash fun x => { x with readStat := w } }
  | 0x310 => s.ro s.flashWear
  | 0x318 => s.ro (pack 64 [(32, 32, s.flash.freeMiB), (0, 32, s.flash.capacity)])
  | 0x400 => s.ro (pack 64 [(0, 20, s.sync.hangLimit.toNat)])
  | 0x408 => { value := s.sync.stat, rc := rc16x4, store := fun w => s.modSync fun x => { x with stat := w } }
  | 0x410 => { value := pack 64 [(16, 16, s.sync.peak.toNat), (0, 16, s.sync.watches.length)], rc := [(16, 16)],
               store := fun w => s.modSync fun x => { x with peak := w.extractLsb' 16 16 } }
  | 0x418 => s.ro s.sync.blockLog
  | 0x500 => { value := s.swapStat, rc := rc24, store := fun w => { s with swapStat := w } }
  | 0x508 => { value := s.relayStat, rc := rc24, store := fun w => { s with relayStat := w } }
  | 0x510 => { value := s.specStat, rc := [(42, 22), (20, 22), (0, 20)], store := fun w => { s with specStat := w } }
  | 0x518 => { value := s.specSource, rc := rc32x2, store := fun w => { s with specSource := w } }
  | 0x520 => { value := s.boot.hubEcc, rc := rcEcc, store := fun w => s.modBoot fun x => { x with hubEcc := w } }
  | 0xC00 => { value := s.boot.errCtl, rc := [(32, 32)], store := fun w => s.modBoot fun x => { x with errCtl := w } }
  | _ => s.ro 0

/-- The indexed registers of the package page (R426). -/
def State.packageIndexed (s : State) (o : Nat) : RegView :=
  if 0x020 ≤ o ∧ o < 0x088 then
    let i : Fin 13 := Fin.ofNat 13 ((o - 0x020) / 8)
    { value := (s.power.thermal[i]).setWidth 64, rc := [(16, 16)],
      store := fun w => s.modPower fun x => { x with thermal := x.thermal.set i (w.setWidth 32) } }
  else if 0x208 ≤ o ∧ o < 0x248 then
    let i : Fin 8 := Fin.ofNat 8 ((o - 0x208) / 8)
    let t : TileIx := Fin.ofNat 4 (i.val / 2)
    let h : Fin 2 := Fin.ofNat 2 i.val
    { value := s.tiles[t].eccStat[h], rc := rcEcc, store := fun w => s.modTile t fun x => { x with eccStat := x.eccStat.set h w } }
  else if 0x800 ≤ o ∧ o < 0x860 then s.ro s.ports[(Fin.ofNat 12 ((o - 0x800) / 8) : PortIx)].reg
  else if 0x880 ≤ o ∧ o < 0x8E0 then
    let p : PortIx := Fin.ofNat 12 ((o - 0x880) / 8)
    { value := s.ports[p].stat, rc := [(56, 8), (48, 8), (32, 16), (0, 32)], store := fun w => s.modPort p fun x => { x with stat := w } }
  else if 0x900 ≤ o ∧ o < 0xB00 then
    let i : Fin 64 := Fin.ofNat 64 ((o - 0x900) / 8)
    { value := s.transit[i], rc := [(0, 48)], store := fun w => { s with transit := s.transit.set i w } }
  else if 0x1000 ≤ o ∧ o < 0x1400 then
    let e := s.boot.errLog[(Fin.ofNat 64 ((o - 0x1000) / 16) : Fin 64)]
    if o % 16 = 0 then s.ro (e.extractLsb' 0 64)
    else s.ro (match s.boot.errLatch with | some t => t | none => e.extractLsb' 64 64)
  else s.packageReg o

/-- A model block (R252, R428). -/
def State.modelReg (s : State) (m : SlotIx) (o : Nat) : RegView :=
  let x := s.models[m]
  let p := x.pool
  let on (v : BitVec 64) : BitVec 64 := if s.loaded m then v else 0
  match o with
  | 0x00 => s.ro (s.modelState m)
  | 0x08 => s.ro (pack 64 [(32, 32, mib (s.tierBytes m 1)), (0, 32, mib (s.modelBytes m))])
  | 0x10 => s.ro (pack 64 [(32, 32, mib (s.swapBytes m)), (0, 32, mib (s.tierBytes m 2))])
  | 0x18 => s.ro (x.windowTimeout.setWidth 64)
  | 0x20 => { value := on x.apertureStat, rc := [(48, 16), (32, 16), (0, 32)], store := fun w => s.modModel m fun y => { y with apertureStat := w } }
  | 0x28 => s.ro (on (pack 64 [(24, 24, p.frames), (0, 24, p.free.length)]))
  | 0x30 => s.ro (on (pack 64 [(24, 24, s.cachedCount m), (0, 24, s.reservedCount m)]))
  | 0x38 => s.ro (on (pack 64 [(48, 16, min 0xFFFF (s.parkedCount m)), (24, 24, s.target m), (0, 24, p.guard.length)]))
  | 0x40 => { value := on p.events, rc := rc16x4, store := fun w => s.modPool m fun y => { y with events := w } }
  | _ => s.ro 0

/-- A tile page (R429). A read of TILE_KV_LAYER_SEL between a write and the boundary at which it takes effect gives the selection
still in force; the spec does not say (DESIGN CHOICE, log entry 116). -/
def State.tileReg (s : State) (t : TileIx) (o : Nat) : RegView :=
  let x := s.tiles[t]
  let rc (v : BitVec 64) (fs : List (Nat × Nat)) (g : Tile → BitVec 64 → Tile) : RegView :=
    { value := v, rc := fs, store := fun w => s.modTile t fun y => g y w }
  match o with
  | 0x000 => s.ro x.sticky
  | 0x008 => s.ro x.vecFirst
  | 0x010 => rc x.sramEcc rcEcc fun y w => { y with sramEcc := w }
  | 0x018 => rc x.longsum rc32x2 fun y w => { y with longsum := w }
  | 0x020 => s.ro (s.rsAlloc t)
  | 0x040 => rc x.exchErr rc32x2 fun y w => { y with exchErr := w }
  | 0x048 => rc x.exchGroups rc32x2 fun y w => { y with exchGroups := w }
  | 0x050 => s.ro x.exchVerdicts
  | 0x058 => rc x.kvErr rc32x2 fun y w => { y with kvErr := w }
  | 0x060 => rc x.kvGroups rc32x2 fun y w => { y with kvGroups := w }
  | 0x068 => s.ro (x.kvLayerSel.setWidth 64)
  | 0x070 => rc x.vqErr rc32x2 fun y w => { y with vqErr := w }
  | 0x080 => rc x.plorynDec [(48, 16), (32, 16), (0, 32)] fun y w => { y with plorynDec := w }
  | 0x088 => rc x.collStall rc32x2 fun y w => { y with collStall := w }
  | 0x090 => rc x.plorynEnc rc32x2 fun y w => { y with plorynEnc := w }
  | 0x098 => s.ro x.plorynBad
  | 0x0A0 => rc x.prismPages rc32x2 fun y w => { y with prismPages := w }
  | 0x0A8 => rc x.prismCycles rc32x2 fun y w => { y with prismCycles := w }
  | 0x0B0 => rc x.prismRows [(48, 16), (32, 16), (0, 32)] fun y w => { y with prismRows := w }
  | 0x0B8 => rc x.lensStat [(48, 16), (32, 16), (0, 32)] fun y w => { y with lensStat := w }
  | _ => s.ro 0

/-- The ring whose registers lie at an offset of a function page, and whether it is RING_CTL (R430). -/
def ringAt (o : Nat) : Option (SetIx × RingIx × Bool) :=
  if 0x100 ≤ o ∧ o < 0x300 then
    let n := (o - 0x100) % 0x80 / 0x10
    if hn : n < 5 then some (Fin.ofNat 4 ((o - 0x100) / 0x80), ⟨n, hn⟩, decide (o % 16 = 8)) else none
  else none

/-- A function page (R361, R377, R430). -/
def State.fnReg (s : State) (f : Fn) (o : Nat) : RegView :=
  let x := s.fns[f]
  match o with
  | 0x000 => s.ro (s.fnState f)
  | 0x008 => { value := x.stat, rc := [(48, 16), (32, 16), (0, 32)], store := fun w => s.modFn f fun y => { y with stat := w } }
  | 0x010 => s.ro s.um.next[f]
  | 0x018 => { value := pack 64 [(33, 1, b2n x.locked), (32, 1, b2n (s.um.cmdKey[f]).isSome), (0, 32, x.sealFails.toNat)], rc := [(0, 32)],
               store := fun w => s.modFn f fun y => { y with sealFails := w.extractLsb' 0 32 } }
  | _ => match ringAt o with
    | some (k, n, true) => s.ro (ringCtl (s.ring f k n))
    | some (k, n, false) => s.ro (pack 64 [(12, 52, (s.ring f k n).base.toNat)])
    | none => s.ro 0

/-- A place in BAR0 (R419). -/
inductive Place where
  | identity (o : Nat)
  | status (o : Nat)
  | package (o : Nat)
  | model (m : SlotIx) (o : Nat)
  | tile (t : TileIx) (o : Nat)
  | function (f : Fn) (o : Nat)
  | none
deriving DecidableEq, Repr, Inhabited

/-- Where an offset of a function's BAR0 lies (R419). -/
def placeOf (viewer : Fn) (off : Nat) : Place :=
  if off < 0x1000 then .identity off
  else if off < 0x2000 then .status (off - 0x1000)
  else if viewer ≠ 0 then (if off < 0x3000 then .function viewer (off - 0x2000) else .none)
  else if 0x10000 ≤ off ∧ off < 0x20000 then .package (off - 0x10000)
  else if 0x40000 ≤ off ∧ off < 0x44000 then .model (Fin.ofNat 64 ((off - 0x40000) / 0x100)) (off % 0x100)
  else if 0x80000 ≤ off ∧ off < 0x84000 then .tile (Fin.ofNat 4 ((off - 0x80000) / 0x1000)) (off % 0x1000)
  else if 0x100000 ≤ off ∧ off < 0x110000 then .function (Fin.ofNat 16 ((off - 0x100000) / 0x1000)) (off % 0x1000)
  else .none

/-- The register at a place, an 8-byte slot. -/
def State.regAt (s : State) (viewer : Fn) (p : Place) : RegView :=
  match p with
  | .identity o => s.ro (s.idReg viewer o)
  | .status 0x00 => { value := s.bringupStatus, rc := [(32, 32)], store := fun w => s.modBoot fun b => { b with dropped := w.extractLsb' 32 32 } }
  | .status 0x08 => s.ro s.now
  | .status 0x10 => s.ro s.boot.pkgFault
  | .status _ => s.ro 0
  | .package o => s.packageIndexed o
  | .model m o => s.modelReg m o
  | .tile t o => s.tileReg t o
  | .function f o => s.fnReg f o
  | .none => s.ro 0

/-- The page responds in the package's present stage (R394). -/
def State.responds (s : State) (p : Place) : Bool :=
  match p with
  | .identity _ => true
  | .status _ => true
  | _ => s.isReady

/-- The viewer's accesses clear and change fields there (R422). -/
def mayChange (viewer : Fn) (p : Place) : Bool :=
  match p with
  | .function f _ => decide (f = viewer)
  | _ => decide (viewer = 0)

/-! ## Reads (R396, R420 to R422, R427) -/

/-- A word with the RC fields that lie within the bits [lo, lo + w) cleared (R421). -/
def clearRc (v : BitVec 64) (rc : List (Nat × Nat)) (lo w : Nat) : BitVec 64 :=
  rc.foldl (fun v f => if lo ≤ f.1 ∧ f.1 + f.2 ≤ lo + w then setFld v f.1 f.2 0 else v) v

/-- The place without its offset within the slot. -/
def slotPlace (viewer : Fn) (off : Nat) : Place := placeOf viewer (off - off % 8)

/-- A read of an aligned 32-bit or 64-bit word (R420): what it clears, and its value in readData. -/
def State.readReg (s : State) (viewer : Fn) (off bytes : Nat) : State :=
  let ret (s : State) (v : BitVec 64) : State := s.modBoot fun b => { b with readData := v }
  let p := slotPlace viewer off
  if !(decide (bytes = 4) || decide (bytes = 8)) || decide (off % bytes ≠ 0) || !s.responds p then ret s 0
  else
    let lo := 8 * (off % 8)
    let w := 8 * bytes
    let r := s.regAt viewer p
    let v := (r.value >>> lo) &&& (if bytes = 8 then BitVec.allOnes 64 else 0xFFFFFFFF)
    if p = .status 0x08 ∧ bytes = 4 then
      (if lo = 0 then ret (s.modBoot fun b => { b with timeLatch := s.now.extractLsb' 32 32 }) v
       else ret s (s.boot.timeLatch.setWidth 64))
    else
      let s1 := if mayChange viewer p && !r.rc.isEmpty then r.store (clearRc r.value r.rc lo w) else s
      let s1 := match p with
        | .package o =>
          if 0x1000 ≤ o ∧ o < 0x1400 then
            (if o % 16 = 0 ∧ bytes = 8 then
               s1.modBoot fun b => { b with errLatch := some ((b.errLog[(Fin.ofNat 64 ((o - 0x1000) / 16) : Fin 64)]).extractLsb' 64 64) }
             else if o % 16 = 8 then s1.modBoot fun b => { b with errLatch := none }
             else s1)
          else s1
        | _ => s1
      ret s1 v

/-- CLEARING_READ (R420 to R422): a read of a register of BAR0. -/
def execClearingRead (viewer : Fn) (offset : BitVec 26) (bytes : Nat) (s : State) : Host.Outcome State Fault Refusal :=
  done s (s.readReg viewer offset.toNat bytes)

/-- LOCAL_TIME_READ (R396). -/
def execLocalTimeRead (viewer : Fn) (bytes : Nat) (high : Bool) (s : State) : Host.Outcome State Fault Refusal :=
  done s (s.readReg viewer (0x1008 + if high then 4 else 0) bytes)

/-- ERR_LOG_READ (R414, R427): a 64-bit read of one half of an entry. -/
def execErrLogRead (n : Fin 64) (high : Bool) (s : State) : Host.Outcome State Fault Refusal :=
  done s (s.readReg 0 (0x11000 + 16 * n.val + if high then 8 else 0) 8)

/-! ## Writes (R342, R420 to R423) -/

/-- A write covers a field wholly (R420). -/
def covers (lo w flo fw : Nat) : Bool := decide (lo ≤ flo) && decide (flo + fw ≤ lo + w)

/-- An RW field after a write: the written value where the write covers it and it is in range, the old one otherwise. -/
def rwField (lo w : Nat) (v : BitVec 64) (flo fw old : Nat) (ok : Nat → Bool) : Nat :=
  if covers lo w flo fw && ok (fld v flo fw) then fld v flo fw else old

/-- A word with the W1C bits of a list cleared where a write holds 1 (R421). -/
def w1c (word : BitVec 64) (lo w : Nat) (v : BitVec 64) (ones : List Nat) : BitVec 64 :=
  ones.foldl (fun x i => if covers lo w i 1 && bit v i then clrBit x i else x) word

/-- A dropped ring write is counted (R342, R343, R361). -/
def State.dbErr (s : State) (f : Fn) : State := s.modFn f fun x => { x with stat := bump x.stat 48 16 1 }

/-- Requests taken from a ring, or records owed to it, are outstanding (R342, R350). -/
def State.ringBusy (s : State) (f : Fn) (k : SetIx) (n : RingIx) : Bool :=
  let heldHere := s.held.any fun h => match h with
    | .completion g j _ => decide (g = f) && decide (j = k) && decide (n = 2)
    | .emission g j _ => decide (g = f) && decide (j = k) && decide (n = 3)
  match n.val with
  | 0 => s.fns[f].openReqs.any fun o => o.admin && decide (o.sub.set = k)
  | 1 => s.fns[f].openReqs.any fun o => !o.admin && decide (o.sub.set = k)
  | 2 => decide (0 < (s.ring f k n).reserved) || heldHere
  | 3 => decide (0 < (s.ring f k n).reserved) || heldHere || s.seqs.any fun q => q.handle.isOwn && decide (q.handle.fn = f) && decide (q.emitSet = k)
  | _ => false

/-- A write of the bits [lo, lo + w) of RING_CTL (R342, R346, R362). -/
def State.writeRingCtl (s : State) (f : Fn) (k : SetIx) (n : RingIx) (lo w : Nat) (v : BitVec 64) : State :=
  let r := s.ring f k n
  let any (_ : Nat) : Bool := true
  let sizeOk (x : Nat) : Bool := decide (4 ≤ x ∧ x ≤ 16)
  let r1 := { r with
    coalUs := BitVec.ofNat 8 (rwField lo w v 40 8 r.coalUs.toNat any)
    coalCount := BitVec.ofNat 8 (let c := rwField lo w v 32 8 r.coalCount.toNat any; if c = 0 then 1 else c)
    vector := BitVec.ofNat 6 (rwField lo w v 26 6 r.vector.toNat any)
    irqEn := if 2 ≤ n.val then decide (rwField lo w v 25 1 (b2n r.irqEn) any = 1) else r.irqEn
    log2 := BitVec.ofNat 5 (rwField lo w v 16 5 r.log2.toNat fun x => !r.enable && sizeOk x)
    fault := r.fault && !(covers lo w 1 1 && bit v 1) }
  if !covers lo w 0 1 then s.modRing f k n fun _ => r1
  else if bit v 0 then
    if r.enable then s.modRing f k n fun _ => r1
    else if s.fns[f].enabled && !s.fns[f].disabling && sizeOk (fld v 16 5) then
      (s.modRing f k n fun _ => { r1 with
        enable := true, halted := false, index := 0, doorbell := 0, phase := true, reserved := 0, unsignalled := 0 }).flushHeld f
    else s.modRing f k n fun _ => r1
  else if r.enable && s.ringBusy f k n then (s.modRing f k n fun _ => r1).dbErr f
  else s.modRing f k n fun _ => { r1 with enable := false }

/-- A write of the bits [lo, lo + w) of RING_BASE (R342, R420, R430). -/
def State.writeRingBase (s : State) (f : Fn) (k : SetIx) (n : RingIx) (lo w : Nat) (v : BitVec 64) : State :=
  s.modRing f k n fun r =>
    if r.enable then r
    else
      let old : BitVec 64 := pack 64 [(12, 52, r.base.toNat)]
      { r with base := (setFld old lo w (fld v lo w)).extractLsb' 12 52 }

/-- The largest CAP of the part (R404). -/
def State.capMax (s : State) : Nat := if s.boot.partE then 1100 else 1500

/-- CAP of POWER_CTL written (R401, R404). -/
def State.setCap (s : State) (watts : Nat) : State :=
  if 600 ≤ watts ∧ watts ≤ s.capMax then s.modPower fun x => { x with cap := BitVec.ofNat 12 watts } else s

/-- A write of the package page (R257, R301, R305, R399, R404, R414). -/
def State.writePackage (s : State) (o lo w : Nat) (v : BitVec 64) : State :=
  let rw := rwField lo w v
  match o with
  | 0x000 => s.modPower fun x => { x with
      pllOffDelay := BitVec.ofNat 20 (rw 0 20 x.pllOffDelay.toNat fun n => decide (n = 0 ∨ (100 ≤ n ∧ n ≤ 1000000))) }
  | 0x008 => if covers lo w 0 12 then s.setCap (fld v 0 12) else s
  | 0x018 => s.modPower fun x => { x with
      logicThrottle := BitVec.ofNat 8 (rw 24 8 x.logicThrottle.toNat fun n => decide (70 ≤ n ∧ n ≤ 110))
      dramThrottle := BitVec.ofNat 8 (rw 16 8 x.dramThrottle.toNat fun n => decide (70 ≤ n ∧ n ≤ 100)) }
  | 0x200 => { s with
      rateLimit := BitVec.ofNat 16 (rw 16 16 s.rateLimit.toNat fun _ => true)
      scrubHours := BitVec.ofNat 8 (rw 0 8 s.scrubHours.toNat fun n => decide (1 ≤ n ∧ n ≤ 168)) }
  | 0x400 => s.modSync fun x => { x with hangLimit := BitVec.ofNat 20 (rw 0 20 x.hangLimit.toNat fun n => decide (10 ≤ n ∧ n ≤ 1000000)) }
  | 0x418 => s.modSync fun x => { x with blockLog := w1c x.blockLog lo w v [63] }
  | _ =>
    if 0x1000 ≤ o ∧ o < 0x1400 ∧ o % 16 = 0 then
      let i : Fin 64 := Fin.ofNat 64 ((o - 0x1000) / 16)
      if covers lo w 63 1 && bit v 63 then s.modBoot fun b => { b with errLog := b.errLog.set i (clrBit b.errLog[i] 63) } else s
    else s

/-- TILE_KV_LAYER_SEL written (R112, R113): it takes effect once every cohort that is open has had its next step boundary, at
once where none is open (log entry 116). -/
def State.selectLayer (s : State) (t : TileIx) (lo w : Nat) (v : BitVec 64) : State :=
  s.modTile t fun x =>
    let old := (x.kvLayerNext.map (·.1)).getD x.kvLayerSel
    let all := rwField lo w v 8 1 (fld old 8 1) fun _ => true
    let layer := rwField lo w v 0 8 (fld old 0 8) fun _ => true
    if lo = 0 then
      ({ x with kvLayerNext := some (BitVec.ofNat 32 (256 * all + layer), s.openCohorts) } : Tile).layerBoundary fun _ => true
    else x

/-- A write of an aligned word (R420, R422). -/
def State.writeReg (s : State) (viewer : Fn) (off bytes : Nat) (value : BitVec 64) : State :=
  let p := slotPlace viewer off
  if !(decide (bytes = 4) || decide (bytes = 8)) || decide (off % bytes ≠ 0) then s
  else if !s.responds p then s.modBoot fun b => { b with dropped := satInc b.dropped }
  else if !mayChange viewer p then s
  else
    let lo := 8 * (off % 8)
    let w := 8 * bytes
    let v : BitVec 64 := value <<< lo
    match p with
    | .status 0x10 => s.modBoot fun b => { b with pkgFault := w1c b.pkgFault lo w v [0] }
    | .package o => s.writePackage o lo w v
    | .model m 0x18 => s.modModel m fun x => { x with
        windowTimeout := BitVec.ofNat 14 (rwField lo w v 0 14 x.windowTimeout.toNat fun n => decide (1 ≤ n ∧ n ≤ 10000)) }
    | .tile t 0x000 => s.modTile t fun x => { x with sticky := w1c x.sticky lo w v [1, 2, 3, 4, 5, 6, 7, 8] }
    | .tile t 0x008 => s.modTile t fun x => { x with vecFirst := w1c x.vecFirst lo w v [63] }
    | .tile t 0x068 => s.selectLayer t lo w v
    | .tile t 0x098 => s.modTile t fun x => { x with plorynBad := w1c x.plorynBad lo w v [63] }
    | .function f o => match ringAt o with
      | some (k, n, true) => s.writeRingCtl f k n lo w v
      | some (k, n, false) => s.writeRingBase f k n lo w v
      | none => s
    | _ => s

/-- A write by a function to its own page (R394, R422): k is what it changes once the package is READY. -/
def State.ownWrite (s : State) (fn : Fn) (k : State) : State :=
  if !s.fns[fn].present then s else if s.isReady then k else s.modBoot fun b => { b with dropped := satInc b.dropped }

/-- REGISTER_WRITE (R420 to R423). -/
def execRegisterWrite (viewer : Fn) (offset : BitVec 26) (bytes : Nat) (value : BitVec 64) (s : State) : Host.Outcome State Fault Refusal :=
  done s (s.writeReg viewer offset.toNat bytes value)

/-- KV_LAYER_SELECT (R112, R113): a 32-bit write of TILE_KV_LAYER_SEL. -/
def execKvLayerSelect (tile : TileIx) (value : BitVec 32) (s : State) : Host.Outcome State Fault Refusal :=
  done s (s.writeReg 0 (0x80000 + 0x1000 * tile.val + 0x68) 4 (value.setWidth 64))

/-- PLDM_CAP_SET (R401): the board management controller sets CAP. -/
def execPldmCapSet (watts : BitVec 12) (s : State) : Host.Outcome State Fault Refusal := done s (s.setCap watts.toNat)

end Sys2Proof.Machine
end

