-- ==== Sys2Proof/Machine/Bringup.lean ====
section
/-!
DEFINITION. Sys2Proof/Machine/Bringup.lean: PCIe events, entry to AON and the stages of bring-up (R337, R339, R347, R362 to R368,
R383, R393 to R396, R405, R413, R442).
-/
namespace Sys2Proof.Machine

/-! ## PCIe events (R347, R362, R413) -/

/-- A function is enabled: it may use its rings, and its FUNCTION owner is bound (R286, R306, R361). -/
def State.enableFn (s : State) (f : Fn) : State := (s.modFn f fun x => { x with enabled := true }).rebindOwner 2 f f.val

/-- Bus Master Enable cleared (R347). -/
def execBmeClear (fn : Fn) (s : State) : Host.Outcome State Fault Refusal := done s (s.modFn fn fun x => { x with bme := false })

/-- Bus Master Enable set again: the records held are written (R347). Memory Space Enable comes with it (log entry 1). -/
def execBmeSet (fn : Fn) (s : State) : Host.Outcome State Fault Refusal :=
  done s (if s.fns[fn].present then (s.modFn fn fun x => { x with bme := true, mse := true }).flushHeld fn else s)

/-- An FLR of one function; before READY it only resets its configuration space. -/
def State.flrOne (s : State) (f : Fn) : State :=
  if s.isReady then (s.modFn f fun x => { x with flrActive := true }).beginDisable f
  else s.modFn f fun x => { x with bme := false, mse := x.mse && decide (f ≠ 0) }

/-- Every VF of the package. -/
def vfs : List Fn := (List.finRange 16).filter fun f => decide (f ≠ 0)

/-- FLR (R362, R363): of the PF, every VF is disabled as well and is gone when the FLR ends. -/
def execFlr (fn : Fn) (s : State) : Host.Outcome State Fault Refusal :=
  done s (if !s.fns[fn].present then s
    else if fn = 0 then
      let s1 := s.modFn 0 fun x => { x with flrActive := s.isReady }
      let s1 := (vfs.filter fun f => s.fns[f].present).foldl (fun s f => s.flrOne f) s1
      let s1 := if s.isReady then s1 else { s1 with fns := Vector.ofFn fun f => { s1.fns[f] with present := decide (f = 0) } }
      s1.flrOne 0
    else s.flrOne fn)

/-- A function goes from the bus: what falls due for it is discarded, and it is disabled (R362, R413). -/
def State.dropFn (s : State) (f : Fn) (present : Bool) : State :=
  let s := s.modFn f fun x => { x with present := present, bme := false, mse := false }
  if s.fns[f].enabled || s.fns[f].disabling then s.beginDisable f else s

/-- VF Enable cleared (R362). -/
def execVfEnableClear (s : State) : Host.Outcome State Fault Refusal := done s (vfs.foldl (fun s f => s.dropFn f false) s)

/-- VF Enable set (R286): VFs 1 to numVfs appear, and at READY each is enabled and its FUNCTION owner bound. -/
def execVfEnableSet (numVfs : Fn) (s : State) : Host.Outcome State Fault Refusal :=
  done s ((vfs.filter fun f => decide (f ≤ numVfs)).foldl (fun s f =>
    let s := s.modFn f fun x => { x with present := true, mse := true }
    if s.isReady && s.pins.pcieUp && !s.fns[f].disabling && !s.fns[f].enabled then s.enableFn f else s) s)

/-- The PCIe link goes down without PERST_N (R413): every function is disabled and its records discarded. -/
def State.linkLost (s : State) : State :=
  if !s.pins.pcieUp then s
  else
    let s := { s with pins := { s.pins with pcieUp := false } }
    let first := ((vfs ++ [0]).find? fun (f : Fn) => !s.fns[f].openReqs.isEmpty).getD 0
    let s := if s.isReady then s.logError 0x0F 7 4 first.val 0 0xFF 0 else s
    (vfs.foldl (fun s f => s.dropFn f false) s).dropFn 0 true

/-- DL_DOWN (R413). -/
def execDlDown (s : State) : Host.Outcome State Fault Refusal := done s s.linkLost

/-- DL_UP (R413): the PF is enabled again. -/
def execDlUp (s : State) : Host.Outcome State Fault Refusal :=
  let s1 := { s with pins := { s.pins with pcieUp := decide (s.pins.perstN = true), refclk := true } }
  done s (if s1.isReady && s1.pins.pcieUp && !s1.fns[0].disabling && !s1.fns[0].enabled then s1.enableFn 0 else s1)

/-! ## Entry to AON (R381, R393, R405, R410) -/

/-- A model slot after a package reset (R266, R271, R381, R405): what flash holds stays. -/
def Model.afterReset (x : Model) : Model :=
  let st := match x.state with | .loading => .installed | .loaded => .installed | y => y
  { state := st, degraded := x.degraded, image := x.image, part := x.part, flashKey := x.flashKey, catalogued := x.catalogued,
    quarantine := x.quarantine, lostUnits := x.lostUnits }

/-- The flash tier after a package reset (R266, R267). -/
def Flash.afterReset (f : Flash) : Flash :=
  { targets := f.targets, blocks := f.blocks, baseChan := f.baseChan, catalogueSeq := f.catalogueSeq, journal := f.journal }

/-- Umathal after a package reset: its store, banks and fuses stay (R364, R365, R381, R405). -/
def Umathal.afterReset (u : Umathal) (trip : Bool) : Umathal :=
  { u with live := {}, staged := none, stagedDigest := 0, loupeSets := 0, factory := false, autoReverted := false, lastTrip := trip }

/-- A function after a package reset; without reset of configuration space its enables stay (R393). -/
def Func.afterReset (x : Func) (f : Fn) (config : Bool) : Func :=
  if config then { present := decide (f = 0) } else { bme := x.bme, mse := x.mse, present := x.present }

/-- A port after a package reset: only the record of what it sent is kept. -/
def Port.afterReset (x : Port) : Port := { sent := x.sent }

/-- CAP after reset (R404). -/
def capReset (e : Bool) : BitVec 12 := if e then 1100 else 1500

/-- The power block after a package reset (R401, R403, R404); a trip's hold stays. -/
def Power.afterReset (x : Power) (e : Bool) : Power :=
  let k := if e then 12 else 16
  { cap := capReset e, pk := k, k := k, tripped := x.tripped, tripCool := x.tripCool }

/-- Bring-up's own state at an entry to AON (R395, R396, R412); the log begins with a saved fatal entry after a self-reset (R414). -/
def Boot.afterReset (b : Boot) (self : Bool) (saved : Option (BitVec 128)) : Boot :=
  let c : Boot := { localTime := b.localTime, pkgFault := if self then setBit b.pkgFault 0 else clrBit b.pkgFault 0, partE := b.partE,
                    device := b.device, slotId := b.slotId, boardId := b.boardId, readData := b.readData }
  match self, saved with
  | true, some e => { c with errLog := c.errLog.set 0 e, errCtl := 1 }
  | _, _ => c

/-- Every rail is in range and AON_REFCLK runs (R436, R442). -/
def Pins.powered (p : Pins) : Bool := decide (p.rails = 0x3FF) && p.aonRefclk

/-- The package enters AON (R393): everything but what persists returns to its reset value (R381). What a reset of any kind leaves to
software's procedure (R418): the store of Umathal with its Mirror slots and keys, and the images in flash; sequences, with the records of
their swaps, are lost. -/
def State.enterAon (s : State) (config self : Bool) : State :=
  { pending := s.pending, out := s.out, fresh := s.fresh
    fns := Vector.ofFn fun f => s.fns[f].afterReset f config
    models := s.models.map Model.afterReset
    ports := s.ports.map Port.afterReset
    um := s.um.afterReset s.power.tripped
    flash := s.flash.afterReset
    boot := s.boot.afterReset self s.um.savedFatal
    pins := { s.pins with thermAlertN := s.pins.powered && !s.power.tripped }
    power := s.power.afterReset s.boot.partE
    side := { s.side with i3c := none }
    spdm := { nextId := s.spdm.nextId, out := s.spdm.out } }

/-- LEAVING of this package, sent while its firmware still runs (R336). -/
def State.leaveNotice (s : State) : State :=
  if s.isReady then { s.floodLeaving s.address s.msgId none with msgId := s.msgId + 1 } else s

/-- PERST_N asserted (R393, R436). -/
def execPerstN (s : State) : Host.Outcome State Fault Refusal :=
  if s.pins.powered then
    let s1 := s.leaveNotice.enterAon true false
    done s { s1 with pins := { s1.pins with perstN := false, pcieUp := false } }
  else done s { s with pins := { s.pins with perstN := false } }

/-- RESET_N asserted (R393, R436, R438): with PERST_N high the PCIe link and configuration space stay. -/
def execResetN (s : State) : Host.Outcome State Fault Refusal :=
  if s.pins.powered then
    let s1 := s.leaveNotice.enterAon (!s.pins.perstN) false
    done s { s1 with pins := { s1.pins with resetN := false } }
  else done s { s with pins := { s.pins with resetN := false } }

/-- PERST_N goes high (R393). -/
def execPerstNHigh (s : State) : Host.Outcome State Fault Refusal := done s { s with pins := { s.pins with perstN := true } }

/-! ## The stages (R393 to R395) -/

/-- AON (R312, R393, R438): the resets are released, the straps are sampled, the PCIe link comes up. PERST_N low or a trip's hold
keeps the package here. -/
def execAon (slotId : BitVec 3) (boardId : BitVec 4) (s : State) : Host.Outcome State Fault Refusal :=
  if s.boot.stage = .aon ∧ s.pins.perstN ∧ !s.power.tripped then
    let s1 := s.modBoot fun b => { b with stage := .secureBoot, slotId := slotId, boardId := boardId }
    done s { s1 with pins := { s1.pins with
      rails := 0x3FF, aonRefclk := true, resetN := true, thermAlertN := true, pcieUp := s1.pins.pcieUp || s1.pins.refclk } }
  else done s s

/-- Bring-up stops in its stage (R395). -/
def State.bringupFails (s : State) (code : BitVec 8) (arg : BitVec 12) : State :=
  s.modBoot fun b => { b with failed := true, failCode := code, failArg := arg }

/-- The firmware bank a slot names. -/
def Umathal.bankFor (u : Umathal) (m : Mirror) : Option Bank := u.banks[Fin.ofNat 2 (b2n m.cfg.fwBank)]

/-- A Mirror slot, true slot B. -/
def Umathal.slot (u : Umathal) (b : Bool) : Option Mirror := if b then u.slotB else u.slotA

/-- The valid slot of higher VERSION among those not set aside (R383). -/
def Umathal.bestSlot (u : Umathal) (skipA skipB : Bool) : Option Bool :=
  let version (x : Option Mirror) : Nat := match x with | some m => m.version.toNat | none => 0
  let a := !skipA && u.slotValid u.slotA
  let b := !skipB && u.slotValid u.slotB
  if a && b then some (decide (version u.slotA < version u.slotB)) else if a then some false else if b then some true else none

/-- The slot that boots (R366, R383), trying n picks: an UNCONFIRMED slot at its fourth boot is REVERTED, and a slot whose bank
fails is set aside. -/
def Umathal.bootPick : Nat → Umathal → Bool → Bool → Option Bool × Umathal
  | 0, u, _, _ => (none, u)
  | n + 1, u, skipA, skipB =>
    match u.bestSlot skipA skipB with
    | none => (none, u)
    | some x => match u.slot x with
      | none => (none, u)
      | some m =>
        if m.state = 1 ∧ m.boots = 3 then
          Umathal.bootPick n { u.putSlot x (some { m with state := 2 }) with autoReverted := true } skipA skipB
        else if (u.bankFor m).any u.bankOk then (some x, if m.state = 1 then u.putSlot x (some { m with boots := m.boots + 1 }) else u)
        else Umathal.bootPick n u (skipA || !x) (skipB || x)

/-- Umathal once a slot is chosen, or the factory configuration when its bank passes (R366, R383, R405); none: nothing boots. -/
def Umathal.boot (u : Umathal) : Option Umathal × Umathal :=
  match u.bootPick 4 false false with
  | (some x, u') => match u'.slot x with
    | some m =>
      let v := { u' with booted := x, factory := false, activeBank := m.cfg.fwBank, live := m.cfg }
      (some (if m.state = 0 then v.blow m else v), u')
    | none => (none, u')
  | (none, u') =>
    if u'.banks[(0 : Fin 2)].any u'.bankOk then (some { u' with booted := false, factory := true, activeBank := false, live := {} }, u')
    else (none, u')

/-- Swap and prefix keys at bring-up (R365): those without a tenant are erased, and a tenant without keys gets random ones. -/
def Umathal.renewKeys (u : Umathal) (key : Nat → BitVec 256) : Umathal :=
  let pick (old : Option (BitVec 256)) (f : Fin 16) (i : Nat) : Option (BitVec 256) :=
    if (u.live.tenants[f]).isNone then none else some (old.getD (key i))
  { u with swapKey := Vector.ofFn fun f => pick u.swapKey[f] f (2 * f.val), prefixKey := Vector.ofFn fun f => pick u.prefixKey[f] f (2 * f.val + 1)
           next := u.ceiling, swapCounter := u.swapReserved }

/-- A committed slice after a boot: agreed, and DOWN until the ports give it routes (R332, R336). -/
def Slice.rebooted (x : Slice) : Slice := { x with state := .down, sub := none, memberLost := false }

/-- SECURE_BOOT (R365, R366, R383, R393, R395): the random keys are operands. The booted slot's contents, tenants, slices and the wiring
plan among them, are live again after a reset (R381, R418). -/
def execSecureBoot (secretBlank : Bool) (keys : List (BitVec 256)) (s : State) : Host.Outcome State Fault Refusal :=
  if s.boot.stage ≠ .secureBoot ∨ s.boot.failed then done s s
  else if secretBlank then done s (s.bringupFails 0x02 0)
  else match s.um.boot with
    | (none, u) => done s (({ s with um := u }).bringupFails 0x01 0)
    | (some u, _) =>
      let key (i : Nat) : BitVec 256 := (keys[i]?).getD ((Config.freeBits (s.fresh + i)).extractLsb' 0 256)
      let s1 := { s with
        um := u.renewKeys key, fresh := s.fresh + 32, slices := (u.live.slices.filter fun (x : Slice) => decide (x.state ≠ SliceState.pending)).map Slice.rebooted
        scrubHours := u.live.scrubHours, rateLimit := u.live.rateLimit, sync := { s.sync with hangLimit := u.live.hangLimit } }
      done s (s1.modBoot fun b => { b with stage := .dramTrain })

/-- LINK_DEGRADED for the flash channels that are not at full width (R260). -/
def State.flashDegraded (s : State) : State :=
  (List.finRange 32).foldl (fun s c =>
    if s.flash.chan[c] = 1 then s else s.event 0 0x06 4 [(0, 1, 1), (32, 5, c.val), (64, 2, (s.flash.chan[c]).toNat)]) s

/-- DRAM_TRAIN (R4, R256, R260, R266, R393, R395): a pseudo-channel that fails stops it; so does a catalogue that is lost. A flash channel has
at most 8 targets. -/
def execDramTrain (failPc : Option (BitVec 11)) (uncorrectable : Bool) (chans : Vector (BitVec 2) 32) (targets : Vector (BitVec 4) 32)
    (catalogueOk : Bool) (s : State) : Host.Outcome State Fault Refusal :=
  if s.boot.stage ≠ .dramTrain ∨ s.boot.failed then done s s
  else match failPc with
    | some pc =>
      let s1 := if uncorrectable then s.logError 0x02 15 5 0 pc.toNat 0xFF 0 else s
      done s (s1.bringupFails (if uncorrectable then 0x11 else 0x10) (pc.setWidth 12))
    | none =>
      let s1 := (s.modFlash fun f => { f with chan := chans, targets := targets.map fun n => if n ≤ 8 then n else 8 }).flashDegraded
      done s (if !catalogueOk && s.flash.catalogueSeq ≠ 0 then s1.bringupFails 0x12 0 else s1.modBoot fun b => { b with stage := .linkTrain })

/-- LINK_TRAIN (R316, R320): every port trains; with every expected port UP the stage ends. -/
def execLinkTrain (reports : Vector PortReport 12) (s : State) : Host.Outcome State Fault Refusal :=
  if s.boot.stage ≠ .linkTrain then done s s
  else
    let s1 := if s.pins.mrefclk then s.trainAll (fun _ => true) reports else s
    done s (s1.modBoot fun b => { b with trained := b.trained || s1.allExpectedUp })

/-- The CAUSE its NEIGHBOUR_MISSING names for a port that is not UP (R319, R321): 4 for failed authentication. -/
def missingCause (x : Port) : Nat := if portState x = 2 ∧ fld x.reg 3 2 = 3 then 4 else fld x.reg 3 2

/-- The address a port that is not UP has found (R319). -/
def foundPeer (x : Port) : Option (BitVec 16) := if portState x = 3 then some (portPeer x.reg) else none

/-- LINK_TRAIN_TIMEOUT (R320): 1 s has passed; each expected port that is not UP raises NEIGHBOUR_MISSING once. -/
def execLinkTrainTimeout (s : State) : Host.Outcome State Fault Refusal :=
  if s.boot.stage ≠ .linkTrain then done s s
  else
    let s1 := (List.finRange 12).foldl (fun (s : State) p =>
      if (s.expected p).isNone || s.portUp p || s.ports[p].missingSent then s
      else (s.modPort p fun x => { x with missingSent := true }).event 0 0x08 4 (s.neighbourArgs p (foundPeer s.ports[p]) (missingCause s.ports[p]))) s
    done s (s1.modBoot fun b => { b with trained := true })

/-- READY (R271, R286, R393): the functions that exist are enabled and INCOMPLETE slots are erased. -/
def execReady (s : State) : Host.Outcome State Fault Refusal :=
  if s.boot.stage = .linkTrain ∧ s.boot.trained then
    let s1 := s.modBoot fun b => { b with stage := .ready }
    let s1 := (List.finRange 16).foldl (fun (s : State) f => if s.fns[f].present && s.pins.pcieUp then s.enableFn f else s) s1
    let s1 := (List.finRange 64).foldl (fun (s : State) m => if s.models[m].state = .incomplete then s.eraseSlot m else s) s1
    done s s1.rerouteIdle
  else done s s

end Sys2Proof.Machine
end

