-- ==== Sys2Proof/Machine/Exchange.lean ====
section
/-!
DEFINITION. Sys2Proof/Machine/Exchange.lean: the EXCHANGE descriptors and the drift monitor (R100 to R109).
-/
namespace Sys2Proof.Machine

/-- The fields of an EXCHANGE descriptor (R101). -/
structure ExchOp where
  src : Nat
  fp : Bool
  srcStride : Nat
  length : Nat
  route : Nat
  dstTile : TileIx
  dst : Nat
  dstStride : Nat
  mon : Nat
deriving DecidableEq, Repr, Inhabited

/-- Reads an EXCHANGE descriptor (R101). -/
def exchOf (d : BitVec 512) : ExchOp :=
  { src := dField d 0x10 0 28, fp := decide (dField d 0x10 28 1 = 1), srcStride := dField d 0x14 0 24,
    length := dField d 0x18 0 20, route := dField d 0x1C 0 16, dstTile := Fin.ofNat 4 (dField d 0x1C 16 2),
    dst := dField d 0x20 0 28, dstStride := dField d 0x24 0 24, mon := dField d 0x28 0 9 }

/-- A run of data that travels as packets: its bytes, cut at unit bytes, each expanding to step bytes at the destination. -/
structure Run where
  dst : Nat
  data : Bytes
  /-- bytes of one unit, and the destination bytes it expands to. -/
  unit : Nat
  step : Nat
deriving DecidableEq, Repr, Inhabited

/-- The packets' data of one run: at most 3,552 bytes of whole units each (R322, R324). -/
def cutRun (r : Run) : Nat → Nat → Bytes → List (Nat × Bytes)
  | 0, _, _ => []
  | _ + 1, _, [] => []
  | n + 1, at0, b :: l =>
    let k := 3552 / r.unit
    (at0, (b :: l).take (k * r.unit)) :: cutRun r n (at0 + k * r.step) ((b :: l).drop (k * r.unit))

/-- The signal that a message's last packet carries (R13, R29). -/
structure Carried where
  word : Nat
  value : Nat
deriving DecidableEq, Repr, Inhabited

/-- Sends a message of a slice (R13, R101, R324): its rows cut into packets, the signal or the DISCARD mark on the last. -/
def State.sendMessage (s : State) (x : Slice) (dest : BitVec 16) (c : DCtx) (typ : Nat) (tile : TileIx) (msg : BitVec 32)
    (runs : List Run) (carried : Option Carried) (discard : Bool) : State :=
  let cuts := runs.flatMap fun r => cutRun r (r.data.length + 1) r.dst r.data
  let cuts := if cuts.isEmpty then [(0, [])] else cuts
  let n := cuts.length
  let ks := (cuts.zip (List.range n)).map fun y =>
    let last := decide (y.2 + 1 = n)
    let h : Head := { dest := dest, src := s.address, slice := x.id, tenant := x.fn.val, typ := typ, last := last,
                      signal := last && carried.isSome, discard := last && discard, msg := msg, index := y.2, count := n,
                      addr := y.1.1, tile := tile, len := y.1.2.length, model := c.model.val, cohort := c.cohort.val,
                      word := if last then (carried.map (·.word)).getD 0 else 0,
                      value := if last then (carried.map (·.value)).getD 0 else 0 }
    ({ hdr := h.bits, data := y.1.2 } : Packet)
  s.sendAll x.members false ks

/-- One source row (R101): its elements. -/
def State.exchRow (s : State) (c : DCtx) (e : ExchOp) (r : Fin 32) : List Num :=
  let at0 := s.spBase c.model c.tile + e.src + r.val * e.srcStride
  (List.range e.length).map fun i =>
    if e.fp then fp32 (BitVec.ofNat 32 (leNat (s.scrGet c.tile (at0 + 4 * i) 4)))
    else bf16 (BitVec.ofNat 16 (leNat (s.scrGet c.tile (at0 + 2 * i) 2)))

/-- A list cut into groups of n. -/
def groupsOf (n : Nat) (l : List Num) : List (List Num) := (List.range (l.length / n)).map fun i => (l.drop (n * i)).take n

/-- The link groups of a row (R59). -/
def linkGroups (xs : List Num) : List (List Num × Group) := (groupsOf 32 xs).map fun g => (g, narrowMx g)

/-- The bytes of a row's link groups: 32 codes and the scale byte of each (R59; log entry 34). -/
def linkBytes (gs : List (List Num × Group)) : Bytes :=
  gs.flatMap fun g => g.2.codes.map (BitVec.ofNat 8) ++ [BitVec.ofNat 8 g.2.scale]

/-- The wide runs of a message (R53, R101, R102): Ploryn blocks of each row, counted by the encoder; an FP32 element that
overflows BF16 sets OVERFLOW. -/
def State.wideRuns (s : State) (c : DCtx) (e : ExchOp) (rows : List (Fin 32)) : List Run × State :=
  rows.foldl (fun (a : List Run × State) r =>
    let ys := (s.exchRow c e r).map toBf16
    let xs := ys.map (·.1)
    let b := (List.range (e.length / 64)).foldl (fun (y : Bytes × State) i =>
      let z := y.2.encodeBlock c.tile ((xs.drop (64 * i)).take 64)
      (y.1 ++ z.1, z.2)) ([], if ys.any (·.2) then a.2.sticky c.tile stOverflow else a.2)
    (a.1 ++ [{ dst := e.dst + r.val * e.dstStride, data := b.1, unit := 56, step := 128 }], b.2)) ([], s)

/-! ## The drift monitor (R104 to R106, R109) -/

/-- The verdict of R105: a pass is true. -/
def driftPass (x : Monitor) (abs factor err : BitVec 32) (n : Nat) : Bool :=
  if n = 0 then true
  else if lt32 (mul32 abs (nat32 n)) err then false
  else if x.warm && lt32 (mul32 (mul32 factor x.base) (nat32 n)) err then false
  else true

/-- The monitor after a verdict (R105). -/
def driftUpdate (x : Monitor) (pass : Bool) (err : BitVec 32) (n : Nat) : Monitor :=
  if n = 0 then x
  else
    let m := div32 err (nat32 n)
    if x.warm then
      (if pass then { x with base := add32 x.base (mul32 (sub32 m x.base) 0x3D800000) } else x)
    else if x.w < 64 then
      let y := { x with w := x.w + 1, sum := if pass then add32 x.sum m else x.sum, passes := if pass then x.passes + 1 else x.passes }
      if y.w = 64 ∧ 0 < y.passes then { y with base := div32 y.sum (nat32 y.passes), warm := true } else y
    else if pass then { x with base := m, warm := true }
    else x

/-- The monitor's place in a model's load replaced by f of it. -/
def State.modMonitor (s : State) (m : SlotIx) (mon : Nat) (f : Monitor → Monitor) : State :=
  s.modLoad m fun l => { l with monitors := l.monitors.modify mon f }

/-- A monitor's state. -/
def State.monitor? (s : State) (m : SlotIx) (mon : Nat) : Option Monitor :=
  match s.load? m with
  | some l => l.monitors[mon]?
  | none => none

/-- A failed verdict is counted and, when due, reported (R107, R109): the first of a monitor, then at most one in 65,536
steps; the spec does not say of which count of steps, and the model takes those this monitor has judged since (DESIGN CHOICE,
log entry 114). -/
def State.driftFail (s : State) (c : DCtx) (layer mon : Nat) : State :=
  let s := s.modTile c.tile fun t => { t with exchVerdicts := bump t.exchVerdicts 32 32 1 }
  match s.monitor? c.model mon with
  | none => s
  | some x =>
    let n := BitVec.ofNat 32 (min 0xFFFFFFFF (x.reruns.toNat + 1))
    let due := match x.quiet with | none => true | some q => decide (65536 ≤ q)
    let s := s.modMonitor c.model mon fun x => { x with reruns := n, quiet := if due then some 0 else x.quiet }
    if due then s.event 0 0x09 c.tile.val [(0, 16, c.model.val), (32, 8, layer), (64, 9, mon), (96, 32, n.toNat)] else s

/-- The error and the signal of each group that is not special (R100). -/
def groupErrors (gs : List (List Num × Group)) : List (BitVec 32 × BitVec 32) :=
  (gs.filter fun g => !g.2.special).map fun g => groupError g.1 g.2.back

/-- The groups a NARROW descriptor narrows, as its tile counts them (R58, R100, R112): their errors and signals, their number,
and OVERFLOW where an element saturated. -/
def State.countNarrow (s : State) (t : TileIx) (gs : List (List Num × Group)) : State :=
  let es := groupErrors gs
  let s := s.modTile t fun x => { x with
    exchErr := es.foldl (fun (w : BitVec 64) e =>
      (add32 (w.extractLsb' 32 32) e.2) ++ (add32 (w.extractLsb' 0 32) e.1)) x.exchErr
    exchGroups := bump (bump x.exchGroups 0 32 es.length) 32 32 (gs.length - es.length) }
  if gs.any fun g => g.2.overflow then s.sticky t stOverflow else s

/-- A cohort's verdict kept (R106), in place of the one of its step before. -/
def keepVerdict (l : List (CohIx × BitVec 64 × Bool)) (v : CohIx × BitVec 64 × Bool) : List (CohIx × BitVec 64 × Bool) :=
  (l.filter fun x => decide (x.1 ≠ v.1)) ++ [v]

/-- Judges a message of groups (R105, R106): the verdict, and the state with the monitor and the verdict counters. -/
def State.judge (s : State) (c : DCtx) (k : Cohort) (layer mon : Nat) (gs : List (List Num × Group)) : Bool × State :=
  let es := groupErrors gs
  match s.monitor? c.model mon with
  | none => (true, s)
  | some x =>
    let lim := s.driftLimits c.model mon
    let err := es.foldl (fun a e => add32 a e.1) 0
    let n := 32 * es.length
    let pass := driftPass x lim.1 lim.2 err n
    let s := s.modMonitor c.model mon fun x =>
      { driftUpdate x pass err n with last := keepVerdict x.last (c.cohort, k.step, pass), quiet := x.quiet.map (· + 1) }
    if pass then (true, s.modTile c.tile fun t => { t with exchVerdicts := bump t.exchVerdicts 0 32 1 })
    else (false, s.driftFail c layer mon)

/-- The verdict already reached for this cohort step (R106). -/
def State.judged? (s : State) (c : DCtx) (k : Cohort) (mon : Nat) : Option Bool :=
  match s.monitor? c.model mon with
  | some x => (x.last.find? fun y => decide (y.1 = c.cohort) && decide (y.2.1 = k.step)).map (·.2.2)
  | none => none

/-! ## The descriptors -/

/-- The signal of an EXCHANGE descriptor (R29). -/
def carriedOf (d : BitVec 512) (k : Cohort) : Option Carried :=
  if dDoneMode d = 2 then some { word := dDoneWord d, value := (k.step.extractLsb' 0 48).toNat } else none

/-- The destination of an EXCHANGE descriptor in its slice (R334): none when ROUTE is refused with DENIED (R16). -/
def State.exchDest (s : State) (m : SlotIx) (e : ExchOp) : Option (Slice × BitVec 16) :=
  match s.sliceOf m with
  | some x => (x.members[e.route]?).map fun a => (x, a)
  | none => none

/-- An EXCHANGE descriptor: it starts, sends by g, and completes; a message that finds no route is lost and its slice cut
(R328). A refused destination gives the sender DENIED and sends nothing (R16, R334); the spec does not say what becomes of the
descriptor's DONE then, and the model completes it and issues a DONE FILL of this package (DESIGN CHOICE, log entry 115). -/
def State.exchange (s : State) (c : DCtx) (d : BitVec 512)
    (g : State → Cohort → ExchOp → Slice → BitVec 16 → List (Fin 32) → State) : State :=
  let e := exchOf d
  let r := s.startDesc c d 5
  match r.1 with
  | none => r.2
  | some k =>
    match r.2.exchDest c.model e with
    | none => (r.2.syncResult syDenied 0).endDesc c d 5
    | some y =>
      let t := g r.2 k e y.1 y.2 (maskRows (effMask k d))
      (({ t with msgId := t.msgId + 1 }).endDesc c d 5).cutLost

/-- The runs of a NARROW message. -/
def narrowRuns (e : ExchOp) (rows : List (Fin 32 × List (List Num × Group))) : List Run :=
  rows.map fun r => { dst := e.dst + r.1.val * e.dstStride, data := linkBytes r.2, unit := 33, step := 64 }

/-- Sends the rows of an EXCHANGE descriptor as a WIDE message (R101). -/
def State.sendWide (s : State) (c : DCtx) (d : BitVec 512) (k : Cohort) (e : ExchOp) (x : Slice) (dest : BitVec 16)
    (rows : List (Fin 32)) : State :=
  let w := s.wideRuns c e rows
  w.2.sendMessage x dest c 1 e.dstTile s.msgId w.1 (carriedOf d k) false

/-- Sends the rows of a NARROW descriptor (R106, R107). -/
def State.sendNarrow (s : State) (c : DCtx) (d : BitVec 512) (k : Cohort) (e : ExchOp) (x : Slice) (dest : BitVec 16)
    (rows : List (Fin 32)) : State :=
  let gs := rows.map fun r => (r, linkGroups (s.exchRow c e r))
  match s.judged? c k e.mon with
  | some true =>
    (s.countNarrow c.tile (gs.flatMap (·.2))).sendMessage x dest c 0 e.dstTile s.msgId (narrowRuns e gs) (carriedOf d k) false
  | some false => s.sendWide c d k e x dest rows
  | none =>
    let v := (s.countNarrow c.tile (gs.flatMap (·.2))).judge c k (dLayer d).toNat e.mon (gs.flatMap (·.2))
    if v.1 then v.2.sendMessage x dest c 0 e.dstTile s.msgId (narrowRuns e gs) (carriedOf d k) false
    else
      let t := if dRunAhead d then v.2.sendMessage x dest c 0 e.dstTile s.msgId (narrowRuns e gs) none true else v.2
      t.sendWide c d k e x dest rows

/-- EXCHANGE_NARROW (R101, R105 to R107): link groups under the drift monitor; a failed verdict sends the rows wide. -/
def execExchangeNarrow (c : DCtx) (d : BitVec 512) (s : State) : Host.Outcome State Fault Refusal :=
  done s (s.exchange c d fun s k e x dest rows => s.sendNarrow c d k e x dest rows)

/-- EXCHANGE_WIDE (R101, R102): Ploryn blocks. -/
def execExchangeWide (c : DCtx) (d : BitVec 512) (s : State) : Host.Outcome State Fault Refusal :=
  done s (s.exchange c d fun s k e x dest rows => s.sendWide c d k e x dest rows)

/-- EXCHANGE_RAW (R101, R102): bytes unchanged. -/
def execExchangeRaw (c : DCtx) (d : BitVec 512) (s : State) : Host.Outcome State Fault Refusal :=
  done s (s.exchange c d fun s k e x dest rows =>
    let runs := rows.map fun r =>
      ({ dst := e.dst + r.val * e.dstStride, data := s.scrGet c.tile (s.spBase c.model c.tile + e.src + r.val * e.srcStride) e.length,
         unit := 1, step := 1 } : Run)
    s.sendMessage x dest c 2 e.dstTile s.msgId runs (carriedOf d k) false)

end Sys2Proof.Machine
end

