-- ==== Sys2Proof/Machine/Power.lean ====
section
/-!
DEFINITION. Sys2Proof/Machine/Power.lean: the power controller, the sensors, thermal trips, clock gating, and the loss of power, of a rail
or of a clock (R397 to R405, R436, R442).
-/
namespace Sys2Proof.Machine

/-! ## The issue rate (R400, R401, R404) -/

/-- P_k and its count of intervals after an interval's estimate (R401). -/
def Power.nextP (x : Power) (limit estimate : Nat) : Power :=
  if x.cap.toNat < estimate then { x with pk := max 4 (x.pk - 1), below := 0 }
  else if estimate + 50 < x.cap.toNat then
    if 9 ≤ x.below then { x with pk := min limit (x.pk + 1), below := 0 } else { x with below := x.below + 1 }
  else { x with below := 0 }

/-- The lowest of the limits on k (R400). -/
def issueRate (limit pk tk : Nat) (pinN : Bool) : Nat := min (min limit pk) (min tk (if pinN then 16 else 8))

/-- A sensor's latest reading, 1/16 °C. -/
def Power.temp (x : Power) (i : Fin 13) : Nat := fld x.thermal[i] 0 16

/-- The threshold of a sensor in 1/16 °C (R402): LOGIC_THROTTLE for tiles and hub, DRAM_THROTTLE for stacks. -/
def Power.threshold (x : Power) (i : Fin 13) : Nat := 16 * (if i.val < 5 then x.logicThrottle.toNat else x.dramThrottle.toNat)

/-- The first sensor of highest reading among some. -/
def Power.hottest (x : Power) (l : List (Fin 13)) : Option (Fin 13) :=
  l.foldl (fun a i => match a with | none => some i | some j => if x.temp j < x.temp i then some i else some j) none

/-- The sensor a THERMAL_THROTTLE for temperature names: the hottest at its threshold, or the hottest of all. -/
def Power.hotSensor (x : Power) : Fin 13 :=
  let all := List.finRange 13
  match x.hottest (all.filter fun i => decide (x.threshold i ≤ x.temp i)) with
  | some i => i
  | none => (x.hottest all).getD 0

/-- The unit of a sensor (R404): its tile, a stack's tile, or the hub. -/
def sensorUnit (i : Fin 13) : Nat := if i.val ≤ 4 then i.val else (i.val - 5) / 2

/-- The unit a THERMAL_THROTTLE names: pin, then temperature, then power (R404). -/
def State.throttleUnit (s : State) : Nat :=
  if !s.pins.throttleInN then 15 else if s.power.tk < s.partK then sensorUnit s.power.hotSensor else 15

/-- Writes a THERMAL_THROTTLE event for the k in force (R404). -/
def State.throttleEvent (s : State) : State :=
  let hot := (List.finRange 13).foldl (fun a i => max a (s.power.temp i)) 0
  (s.event 0 0x0D 4 [(0, 8, 100 * s.power.k / 16), (32, 16, hot), (64, 4, s.throttleUnit)]).modPower fun x =>
    { x with lastEvent := some (s.now, s.power.k) }

/-- 100 ms of AON_REFCLK cycles. -/
def throttleGap : Nat := 2500000

/-- A THERMAL_THROTTLE is due (R404): k has just fallen below the part's limit, or differs from the k the last event named, 100 ms
or more ago. -/
def State.throttleDue (s : State) (before : Nat) : Bool :=
  (decide (s.power.k < s.partK) && decide (s.partK ≤ before)) ||
    match s.power.lastEvent with
    | some (t, k) => decide (s.power.k ≠ k) && decide (throttleGap ≤ s.now.toNat - t.toNat)
    | none => false

/-- THERM_ALERT_N by the limits in force (R404): low while k is below the part's limit for a reason other than the pin. -/
def State.alertLow (s : State) : Bool := decide (min s.power.pk s.power.tk < s.partK)

/-- POWER_INTERVAL (R400, R401, R404): the estimate of one 100 µs interval, and the pin as sampled. -/
def execPowerInterval (estimate : BitVec 12) (throttleInN : Bool) (s : State) : Host.Outcome State Fault Refusal :=
  if s.boot.stage = .aon then done s s
  else
    let x := s.power.nextP s.partK estimate.toNat
    let k := issueRate s.partK x.pk x.tk throttleInN
    let s1 := { s with
      power := { x with k := k, watts := estimate
                        throttled := if k < s.partK ∧ x.throttled ≠ 0xFFFF then x.throttled + 1 else x.throttled }
      pins := { s.pins with throttleInN := throttleInN } }
    let s2 := { s1 with pins := { s1.pins with thermAlertN := !s1.alertLow } }
    done s (if s2.throttleDue s.power.k then s2.throttleEvent else s2)

/-! ## Temperature (R402, R403) -/

/-- A sensor's register after a reading (R404). -/
def sensorReg (w : BitVec 32) (t : BitVec 16) : BitVec 32 := setFld (setFld w 16 16 (max (fld w 16 16) t.toNat)) 0 16 t.toNat

/-- T_k and its count of milliseconds after a set of readings (R402). -/
def Power.nextT (x : Power) (temps : Vector (BitVec 16) 13) : Power :=
  let x := { x with thermal := Vector.ofFn fun i => sensorReg x.thermal[i] temps[i] }
  if (List.finRange 13).any fun i => decide (x.threshold i ≤ x.temp i) then { x with tk := max 4 (x.tk - 1), cool := 0 }
  else if (List.finRange 13).all fun i => decide (x.temp i + 48 ≤ x.threshold i) then
    if 9 ≤ x.cool then { x with tk := min 16 (x.tk + 1), cool := 0 } else { x with cool := x.cool + 1 }
  else { x with cool := 0 }

/-- The trip point of a sensor in 1/16 °C (R403). -/
def tripPoint (i : Fin 13) : Nat := if i.val < 5 then 16 * 115 else 16 * 105

/-- Some sensor has reached its trip point (R403). -/
def trips (temps : Vector (BitVec 16) 13) : Bool := (List.finRange 13).any fun i => decide (tripPoint i ≤ (temps[i]).toNat)

/-- Every sensor has read at least 15 °C below its trip point (R403). -/
def cooled (temps : Vector (BitVec 16) 13) : Bool := (List.finRange 13).all fun i => decide ((temps[i]).toNat + 16 * 15 ≤ tripPoint i)

/-- The package trips (R403): every clock but the always-on domain's stops, THERM_ALERT_N is held low, and no LEAVING is sent. -/
def State.trip (s : State) : State :=
  if s.power.tripped || !s.pins.powered then s
  else
    let s1 := (s.modPower fun x => { x with tripped := true, tripCool := 0 }).enterAon true false
    { s1 with pins := { s1.pins with thermAlertN := false, pcieUp := false } }

/-- THERMAL_INTERVAL (R402): the readings of one millisecond. -/
def execThermalInterval (temps : Vector (BitVec 16) 13) (s : State) : Host.Outcome State Fault Refusal :=
  if s.boot.stage = .aon then done s s
  else if trips temps then done s s.trip
  else done s (s.modPower fun x => x.nextT temps)

/-- THERMAL_TRIP (R403): readings of which one has reached its trip point. -/
def execThermalTrip (temps : Vector (BitVec 16) 13) (s : State) : Host.Outcome State Fault Refusal :=
  done s (if trips temps then s.trip else s)

/-- TRIP_RESTART (R403): Umathal's readings of one millisecond of a trip's stop; the hundredth cool one in a row ends the stop, and AON
follows. -/
def execTripRestart (temps : Vector (BitVec 16) 13) (s : State) : Host.Outcome State Fault Refusal :=
  if !s.power.tripped then done s s
  else if !cooled temps then done s (s.modPower fun x => { x with tripCool := 0 })
  else if s.power.tripCool < 99 then done s (s.modPower fun x => { x with tripCool := x.tripCool + 1 })
  else
    let s1 := s.modPower fun x => { x with tripped := false, tripCool := 0 }
    done s { s1 with pins := { s1.pins with thermAlertN := s1.pins.powered } }

/-! ## Clocks (R398, R399) -/

/-- PLL_OFF_TIMER (R398): PLL_OFF_DELAY has passed since the last unload, and no model has been loaded. -/
def execPllOffTimer (s : State) : Host.Outcome State Fault Refusal :=
  done s (if s.loadedCount = 0 ∧ s.power.pllOffDelay ≠ 0 then s.modPower fun x => { x with tileClk := 0 } else s)

/-- An engine has a watch or a repeated operation outstanding (R300). -/
def State.waiting (s : State) (t : TileIx) (engine : BitVec 3) : Bool :=
  (s.sync.watches.any fun k => decide (k.unitHome.toNat = t.val + 1) && decide (k.engine = engine)) ||
    s.sync.retries.any fun k => decide (k.unitHome.toNat = t.val + 1) && decide (k.engine = engine)

/-- ENGINE_GATE (R398, R399): an engine of a tile has been idle for 4,096 cycles; one that waits is never gated. -/
def execEngineGate (tile : TileIx) (engine : BitVec 3) (s : State) : Host.Outcome State Fault Refusal :=
  done s (if fld s.power.tileClk (2 * tile.val) 2 = 2 ∧ engine ≠ 7 ∧ !s.waiting tile engine then
    s.modTile tile fun x => { x with gated := setBit x.gated engine.toNat } else s)

/-! ## Power, rails and clocks lost (R405, R436, R442) -/

/-- The package stops as at a loss of power (R405, R436); loss of the always-on rail resets the local time counter and PKG_FAULT
(R396, R412). -/
def State.loseSupply (s : State) (aon : Bool) : State :=
  let s1 := s.enterAon true false
  { s1 with
    pins := { s1.pins with thermAlertN := false, pcieUp := false }
    power := { s1.power with tripped := false, tripCool := 0 }
    boot := if aon then { s1.boot with localTime := 0, pkgFault := 0 } else s1.boot
    side := if aon then {} else s1.side }

/-- POWER_LOSS (R405). -/
def execPowerLoss (s : State) : Host.Outcome State Fault Refusal :=
  let s1 := s.loseSupply true
  done s { s1 with pins := { s1.pins with rails := 0 } }

/-- RAIL_FAULT (R436): the rail, numbered as R434 lists them, leaves its range. -/
def execRailFault (rail : Fin 10) (s : State) : Host.Outcome State Fault Refusal :=
  let s1 := s.loseSupply (decide (rail = 0))
  done s { s1 with pins := { s1.pins with rails := clrBit s1.pins.rails rail.val } }

/-- AON_REFCLK_LOSS (R442): as a rail that leaves its range. -/
def execAonRefclkLoss (s : State) : Host.Outcome State Fault Refusal :=
  let s1 := s.loseSupply false
  done s { s1 with pins := { s1.pins with aonRefclk := false } }

/-- MREFCLK_LOSS (R328, R442): every port goes DOWN. -/
def execMrefclkLoss (s : State) : Host.Outcome State Fault Refusal :=
  let s1 := { s with pins := { s.pins with mrefclk := false } }
  done s ((List.finRange 12).foldl (fun (s : State) p => if portState s.ports[p] = 0 then s else s.portLost p 1) s1)

/-- MREFCLK_RETURN (R442): the ports that are DOWN train again. -/
def execMrefclkReturn (reports : Vector PortReport 12) (s : State) : Host.Outcome State Fault Refusal :=
  let s1 := { s with pins := { s.pins with mrefclk := true } }
  done s (if s1.malnyRuns then s1.trainAll (fun x => decide (x = 0)) reports else s1)

/-- REFCLK_LOSS (R413, R442): the PCIe link goes down. -/
def execRefclkLoss (s : State) : Host.Outcome State Fault Refusal :=
  let s1 := s.linkLost
  done s { s1 with pins := { s1.pins with refclk := false } }

end Sys2Proof.Machine
end

