-- ==== Sys2Proof/Machine/Faults.lean ====
section
/-!
DEFINITION. Sys2Proof/Machine/Faults.lean: uncorrectable words of on-die memory and package fatal errors (R407 to R414).
-/
namespace Sys2Proof.Machine

/-! ## On-die memory (R408) -/

/-- An uncorrectable word counted in a register of R408's layout. -/
def countSram (w : BitVec 64) : BitVec 64 := bump w 48 16 1

/-- An uncorrectable word of a descriptor's data (R408): its requests end at the step boundary. -/
def State.sramData (s : State) (r : SramRead) (rowMask : BitVec 32) : State :=
  match s.cohort? r.model r.cohort with
  | some k => s.endRows k rowMask 0x14 (s.faultDetail r.model r.layer.toNat 0xFFFF) 0x04 r.tile.val 2 0 r.layer.toNat
  | none => s

/-- The owner and tenant of a word's allotment; nothing for a word in none (R408). -/
def allotKept (inSpan : Bool) (x : BitVec 64) : BitVec 64 :=
  if inSpan then pack 64 [(58, 4, fld x 58 4), (48, 10, fld x 48 10)] else 0

/-- An uncorrectable sync word of a tile (R408): the cohort whose span holds it is cut, what waits on it is withdrawn, and it is
rewritten empty. -/
def State.sramSync (s : State) (t : TileIx) (w : BitVec 16) : State :=
  let span := s.spanOf w
  let s1 := match span with
    | some (m, c) => s.cutCohort m c 0x14 (s.faultDetail m 0 0xFFFF) 0x04 t.val 2 w.toNat 0
    | none => s
  let s2 := s1.modSync fun y => { y with
    watches := y.watches.filter fun k => !decide (k.word = w)
    retries := y.retries.filter fun k => !decide (k.word = w)
    held := y.held.filter fun k => !decide (k.word = w)
    completions := y.completions.filter fun k => !decide (k.1.word = w) }
  (s2.putWord w (allotKept span.isSome (s.word w))).releaseCredits

/-! ## Package fatal errors (R410, R412, R414) -/

/-- Step 1 of R410: the firmware that found the error completes every open request it can write. -/
def State.fatalCompletions (s : State) : State :=
  (List.finRange 16).foldl (fun (s : State) f => if s.hostOpen f then s.abortAll f 0x1B else s) s

/-- Steps 2 and 3 of R410: the notice, the entry saved for the log, and the self-reset. -/
def State.selfReset (s : State) (cls : Nat) : State :=
  let s1 := s.post .aerInternal
  let s1 := s1.floodLeaving s1.address s1.msgId none
  let s1 := s1.modUm fun u => { u with savedFatal := some (errEntry s1.now cls (if cls = 0x11 then 15 else 4) 5 0 0 0xFF 0) }
  let s1 := s1.modBoot fun b => { b with pkgFault := setFld (bump b.pkgFault 48 16 1) 40 8 cls }
  s1.enterAon false true

/-- A package fatal error that the hub firmware detected (R410). -/
def State.packageFatal (s : State) (cls : Nat) : State := (s.fatalCompletions).selfReset cls

/-- The hub firmware runs: once SECURE_BOOT has started it (R393, R397). -/
def State.hubRuns (s : State) : Bool := decide (s.boot.stage ≠ .aon) && decide (s.boot.stage ≠ .secureBoot)

/-- An uncorrectable word of hub memory, the owner table, a hub sync word or the watch table (R408): package fatal. -/
def State.sramHub (s : State) : State := if s.hubRuns then (s.modBoot fun b => { b with hubEcc := countSram b.hubEcc }).packageFatal 0x05 else s

/-- SRAM_UNCORRECTABLE (R408). -/
def execSramUncorrectable (r : SramRead) (s : State) : Host.Outcome State Fault Refusal :=
  let tile (s : State) : State := s.modTile r.tile fun x => { x with sramEcc := countSram x.sramEcc }
  match r.place with
  | .tileData mask => done s ((tile s).sramData r mask)
  | .tileModelData mask => done s (((tile s).sramData r mask).placeResident r.model)
  | .tileSync w => done s (if wordHome w = 0 then s.sramHub else (tile s).sramSync r.tile w)
  | .hub => done s s.sramHub

/-- PACKAGE_FATAL (R410): an error of CLASS 0x05 or 0x11. -/
def execPackageFatal (cls : BitVec 8) (s : State) : Host.Outcome State Fault Refusal :=
  done s (if s.hubRuns && (decide (cls = 0x05) || decide (cls = 0x11)) then s.packageFatal cls.toNat else s)

/-- WATCHDOG_EXPIRY (R410): nothing is written for the open requests. -/
def execWatchdogExpiry (s : State) : Host.Outcome State Fault Refusal := done s (if s.hubRuns then s.selfReset 0x10 else s)

end Sys2Proof.Machine
end

