-- ==== Sys2Proof/Machine/Requests.lean ====
section
/-!
DEFINITION. Sys2Proof/Machine/Requests.lean: the request opcodes (R21 to R24, R35, R162, R173, R183, R188, R192, R194, R228, R229,
R234, R339, R340, R350, R352, R353). TAKE_ENTRY has taken the entry and applied the checks before these.
-/
namespace Sys2Proof.Machine

/-! ## Checks that requests share (R339, R352, R353) -/

/-- Checks 4 and 5 of a request that names a handle, and the states it is accepted in (R23, R339, R352): the sequence, or the
status. -/
def State.named (s : State) (e : Sub) (h : BitVec 32) (ok : Seq → Bool) : Except (BitVec 8) Seq :=
  if (s.tenant? e.fn).isNone ∨ handleFn h ≠ e.fn then .error 0x1C
  else match s.seq? (.own h) with
    | none => .error 0x21
    | some q => if ok q then .ok q else .error 0x21

/-- A request that names a handle refused (R354): POSITION is the sequence's, when it is the function's own. -/
def State.refuse (s : State) (e : Sub) (opcode status : BitVec 8) (h : BitVec 32) (detail : BitVec 64 := 0) : State :=
  s.completeFull e false opcode status h
    (match s.seq? (.own h) with | some q => if handleFn h = e.fn then q.highest else 0 | none => 0) 0 detail

/-- A token word that is no token id of the model (R353 step 6). -/
def State.badToken (s : State) (m : SlotIx) (w : BitVec 32) : Bool := !tokenWord w.toNat || decide (s.vocab m ≤ w.toNat)

/-- A list entry whose address is not aligned to 4 KiB (R350). -/
def misaligned (x : BitVec 128) : Bool := decide (fld x 0 12 ≠ 0)

/-- Address and length of a list entry (R188, R350). -/
def entryAddr (x : BitVec 128) : BitVec 64 := x.extractLsb' 0 64
/-- Its length. -/
def entryLen (x : BitVec 128) : BitVec 64 := x.extractLsb' 64 64

/-- The sequence has rows in an open cohort. -/
def State.inCohort (s : State) (q : Seq) : Bool :=
  s.cohorts.any fun k => decide (k.model = q.model) && (rowHandles k 0xFFFFFFFF).contains q.handle

/-- The position after every position accepted for a sequence so far. -/
def Seq.endPos (q : Seq) : Nat :=
  match q.chunks.getLast? with
  | some c => c.last + 1
  | none => q.tokens.length + (q.imps.map (·.positions)).sum

/-- n further positions would carry a sequence past the last position of its class (R162, R231; log entry 130 for the Relay). -/
def State.tooLong (s : State) (q : Seq) (first n : Nat) : Bool := decide (s.lastPosition q + 1 < first + n)

/-- n further pages would carry a list past 65,536 entries (R162, R231), or find no list segments (R170; log entry 126). -/
def State.listFull (s : State) (q : Seq) (n : Nat) : Bool :=
  let l := q.pages.length + (q.imps.map fun i => i.frames.length).sum
  let p := s.models[q.model].pool
  decide (65536 < l + n) ||
  decide (2 * cdiv p.frames 256 + p.maxSeq < s.segments q.model + s.target q.model + (cdiv (l + n) 256 - cdiv q.pages.length 256))

/-! ## ADMIT (R21, R23, R173, R228, R229, R340, R350) -/

/-- The lowest unused slot of a function (R21). -/
def State.freeSlot (s : State) (f : Fn) : Option Nat :=
  let used := (s.seqs.filter fun q => q.handle.isOwn && decide (q.handle.fn = f)).map fun q => q.handle.slot
  (List.range (min 16384 (used.length + 1))).find? fun i => !used.contains i

/-- The handle of a slot with its present reuse count (R21). -/
def State.newHandle (s : State) (f : Fn) (slot : Nat) : BitVec 32 :=
  pack 32 [(28, 4, f.val), (14, 14, (sget 0 s.reuse (16384 * f.val + slot)).toNat), (0, 14, slot)]

/-- Why an ADMIT to a model is refused before its policy is looked at (R269, R281, R307, R336, R340, R350); relay tells a sequence
that would be Relayed. -/
def State.admitRefusal (s : State) (e : Sub) (m : SlotIx) (emitSet : SetIx) (full : Bool) : Option (BitVec 8) :=
  match s.load? m with
  | none => some 0x21
  | some l =>
    if l.owner ≠ e.fn then some 0x1C
    else if !s.loaded m ∨ l.lost ∨ !(s.ring e.fn emitSet 3).enable then some 0x21
    else match s.sliceOf m with
      | none => some 0x2C
      | some x =>
        if x.state ≠ .active then
          some (if full && !x.ring.isEmpty && (s.tenant? e.fn).any (fun t => t.relayEn) then 0x27 else 0x2C)
        else if s.models[m].degraded then some 0x19 else none

/-- The sequence that an ADMIT creates. -/
def newSeq (h : Key) (m : SlotIx) (full relay : Bool) (emitSet : SetIx) (p : Policy) (order : Nat) : Seq :=
  { handle := h, model := m, state := .admitted, full := full, relay := relay, emitSet := emitSet, policy := p, order := order }

/-- Order of the next admission. -/
def State.nextOrder (s : State) : Nat := (s.seqs.map fun q => q.order + 1).foldl max 0

/-- ADMIT (R23, R350). -/
def execAdmit (e : Sub) (model : BitVec 16) (traffic : BitVec 2) (emitSet : SetIx) (policy : Bytes) (bias : List (BitVec 64))
    (abias : List (BitVec 128)) (peersOk : Bool) (s : State) : Host.Outcome State Fault Refusal :=
  match slotOf model with
  | none => done s (s.completeReq e 0x01 0x2E 0 (malformedAt 0x10))
  | some m =>
    if 64 < abias.length then done s (s.completeReq e 0x01 0x2E 0 (malformedAt 0x28))
    else match s.tenant? e.fn with
      | none => done s (s.completeReq e 0x01 0x1C 0)
      | some t =>
        let full := (s.lens? m).isNone || t.classMap.getLsbD traffic.toNat
        match s.admitRefusal e m emitSet full with
        | some st => done s (s.completeReq e 0x01 st 0)
        | none =>
          if !policyAllOk policy bias abias then done s (s.completeReq e 0x01 0x23 0)
          else
            let p := s.models[m].pool
            if p.frames = 0 ∨ p.maxSeq ≤ (s.seqsOf m).length ∨ !peersOk then done s (s.completeReq e 0x01 0x18 0)
            else match s.freeSlot e.fn, s.growGuard m e.fn with
              | some slot, some s1 =>
                let h := s.newHandle e.fn slot
                let relay := full && t.relayEn && (s.sliceOf m).any fun x => !x.ring.isEmpty
                let q := newSeq (.own h) m full relay emitSet { block := policy, bias := usedBias policy bias, abias := abias } s.nextOrder
                let s1 := { s1 with seqs := s1.seqs ++ [q] }
                let s1 := ((s1.bindOwner 3 e.fn h.toNat).2).pageLow m
                done s (s1.completeReq e 0x01 0x00 h)
              | _, _ => done s (s.completeReq e 0x01 0x18 0)

/-! ## INGEST and EXTEND (R23, R24, R162, R183, R350) -/

/-- A chunk accepted for a sequence (R26, R350): what the cohort leader matches takes no rows (R183). -/
def State.acceptChunk (s : State) (q : Seq) (e : Sub) (fin : Bool) (toks : List (BitVec 18)) : State :=
  let h := q.handle
  let c : Chunk := { sub := e, opcode := 0x02, fin := fin, tokens := [], last := q.endPos + toks.length - 1 }
  let s := s.modSeq h fun q => { q with
    state := .ingesting, gen := if fin && h.isOwn then some { sub := e, opcode := 0x02 } else q.gen
    genToks := if fin then [] else q.genToks }
  let r := if q.chunks.isEmpty && q.imps.isEmpty then s.matchChunk h (s.ngramEn q.model) fin toks else (toks, s)
  let s := r.2.pageLow q.model
  if r.1.isEmpty && !fin then
    match s.seq? h with
    | some q => s.finishReq q e 0x02 0x00
    | none => s
  else s.modSeq h fun q => { q with chunks := q.chunks ++ [{ c with tokens := r.1 }], matching := false }

/-- The token ids of a chunk's words. -/
def tokenIds (ws : List (BitVec 32)) : List (BitVec 18) := ws.map fun w => w.extractLsb' 0 18

/-- COUNT of a chunk is out of range (R350, R353 step 1). -/
def badCount (n : Nat) : Bool := decide (n = 0) || decide (1048576 < n)

/-- INGEST (R23, R350). -/
def execIngest (e : Sub) (handle : BitVec 32) (fin : Bool) (tokens : List (BitVec 32)) (s : State) : Host.Outcome State Fault Refusal :=
  if badCount tokens.length then done s (s.refuse e 0x02 0x2E handle (malformedAt 0x10))
  else match s.named e handle fun q => decide (q.state = .admitted) || (decide (q.state = .ingesting) && q.gen.isNone) with
    | .error st => done s (s.refuse e 0x02 st handle)
    | .ok q =>
      if tokens.any (s.badToken q.model) then done s (s.finishReq q e 0x02 0x2E 0 (malformedAt 0x18))
      else if s.tooLong q q.endPos tokens.length then done s (s.finishReq q e 0x02 0x18)
      else done s (s.acceptChunk q e fin (tokenIds tokens))

/-- Tokens emitted at positions that no step has run (R23). -/
def Seq.carried (q : Seq) : List (BitVec 18) := (q.tokens.drop q.written).filterMap id

/-- The chunk of an EXTEND, whose first token is the carried one (R23). -/
def Seq.extendChunk (q : Seq) (e : Sub) (ts : List (BitVec 18)) : Seq :=
  { q with matching := false, chunks := [{ sub := e, opcode := 0x04, fin := true, tokens := ts, last := q.written + ts.length - 1 }] }

/-- An EXTEND takes effect (R23): its tokens are ingested and the new-token count restarts. -/
def Seq.extend (q : Seq) (e : Sub) (ts : List (BitVec 18)) : Seq :=
  { (q.extendChunk e ts) with state := .ingesting, gen := if q.handle.isOwn then some { sub := e, opcode := 0x04 } else none
                              genToks := [], endStatus := 0 }

/-- An EXTEND on one package (R23, R173, R192, R194): with swapped pages every frame is taken and the read-back begins, and the sequence keeps
what it ended with until that succeeds; with none the guard grows. None when frames cannot be had. -/
def State.extendSeq (s : State) (q : Seq) (e : Sub) (ts : List (BitVec 18)) (buf : BitVec 64) : Option State :=
  if q.swappedPages.isEmpty then
    (s.growGuard q.model q.handle.fn).map fun s => s.modSeq q.handle fun q => { (q.extend e ts) with ent := .intact }
  else
    (s.takeBack q).map fun r => (r.2.enterResuming q e 0x04 buf r.1).modSeq q.handle fun q => q.extendChunk e ts

/-- EXTEND (R23, R162, R173, R194, R350). -/
def execExtend (e : Sub) (handle : BitVec 32) (tokens : List (BitVec 32)) (swap : List (BitVec 128)) (peersOk : Bool) (s : State) :
    Host.Outcome State Fault Refusal :=
  if badCount tokens.length then done s (s.refuse e 0x04 0x2E handle (malformedAt 0x10))
  else match s.named e handle fun q => decide (q.state = .ended) && (decide (q.endStatus = 0x01) || decide (q.endStatus = 0x02) || decide (q.endStatus = 0x03)) with
    | .error st => done s (s.refuse e 0x04 st handle)
    | .ok q =>
      let ts := q.carried ++ tokenIds tokens
      if tokens.any (s.badToken q.model) then done s (s.finishReq q e 0x04 0x2E 0 (malformedAt 0x18))
      else if !q.swappedPages.isEmpty && swap.any misaligned then done s (s.finishReq q e 0x04 0x2E 0 (malformedAt 0x20))
      else if s.tooLong q q.written ts.length ∨ !peersOk then done s (s.finishReq q e 0x04 0x18)
      else match s.extendSeq q e ts (s.ownBuffer q.model swap) with
        | none => done s (s.finishReq q e 0x04 0x18)
        | some s1 => done s (s1.pageLow q.model)

/-! ## IMPORT_KV (R162, R350, R355) -/

/-- Every buffer of an import list is aligned and holds the frames of its package (R350, R353 step 6). -/
def State.importOk (s : State) (m : SlotIx) (n : Nat) (bufs : List (BitVec 128)) : Bool :=
  (bufs.zip (List.range bufs.length)).all fun b =>
    !misaligned b.1 && decide (n * s.memberFrame m b.2 ≤ (entryLen b.1).toNat)

/-- The frames of an import of n pages taken for a sequence (R350): none when they cannot be had. -/
def State.takeImport (s : State) (q : Seq) (e : Sub) (positions : Nat) : Option State :=
  let n := cdiv positions 256
  let first := q.endPos / 256
  if s.listFull q n then none
  else (s.takeFrames q.model q.handle.fn q.handle.slot ((List.range n).map (first + ·))).map fun r => r.2.modSeq q.handle fun q =>
    { q with imps := q.imps ++ [{ sub := e, first := first, positions := positions, frames := r.1 }] }

/-- IMPORT_KV (R350): the frames are taken before anything is read. -/
def execImportKv (e : Sub) (handle : BitVec 32) (positions : BitVec 25) (bufs : List (BitVec 128)) (peersOk : Bool) (s : State) :
    Host.Outcome State Fault Refusal :=
  if positions = 0 ∨ 16777216 < positions.toNat then done s (s.refuse e 0x03 0x2E handle (malformedAt 0x10))
  else match s.named e handle fun q => decide (q.state = .admitted) && decide (q.endPos % 256 = 0) with
    | .error st => done s (s.refuse e 0x03 st handle)
    | .ok q =>
      if !s.importOk q.model (cdiv positions.toNat 256) bufs then
        done s (s.finishReq q e 0x03 0x2E 0 (malformedAt 0x18))
      else if s.tooLong q q.endPos positions.toNat ∨ !peersOk then done s (s.finishReq q e 0x03 0x18)
      else match s.takeImport q e positions.toNat with
        | none => done s (s.finishReq q e 0x03 0x18)
        | some s1 => done s (s1.pageLow q.model)

/-- The pages of an import written and linked (R159, R350). -/
def State.linkImport (s : State) (q : Seq) (i : Import) (data : List Bytes) : State :=
  let n := s.frameSize q.model
  let s := (i.frames.zip data).foldl (fun (s : State) x => s.putFrame q.model x.1 0 (x.2.take n)) s
  s.modSeq q.handle fun q => { q with
    pages := q.pages ++ i.frames.map fun f => pack 32 [(0, 24, f)], tokens := q.tokens ++ List.replicate i.positions none
    written := q.written + i.positions, matching := false, imps := q.imps.drop 1 }

/-- IMPORT_COMPLETE (R222, R350, R355): the oldest import of a sequence is read, its full pages are summarised, and it completes, on its
home package once every package has read its buffer (log entry 128); a failed read gives its frames back. -/
def execImportComplete (handle : Key) (readOk : Bool) (data : List Bytes) (s : State) : Host.Outcome State Fault Refusal :=
  match s.seq? handle with
  | none => done s s
  | some q => match q.imps with
    | [] => done s s
    | i :: _ =>
      if readOk then
        let s1 := s.linkImport q i data
        match s1.seq? handle with
        | some q' => done s ((s1.summariseBack q' ((List.range i.frames.length).map fun j => i.first + j)).finishReq q' i.sub 0x03 0x00)
        | none => done s s1
      else
        let s1 := (s.giveBackAll q.model i.frames).modSeq handle fun q => { q with imps := q.imps.drop 1 }
        done s ((s1.logHostRead handle.fn q.model.val).finishReq q i.sub 0x03 0x2F)

/-! ## SET_POLICY (R23, R34, R35, R205) -/

/-- SET_POLICY is accepted in these states (R23). -/
def policyState (q : Seq) : Bool :=
  decide (q.state = .admitted) || decide (q.state = .ingesting) || decide (q.state = .running) || decide (q.state = .parkedPages) ||
  decide (q.state = .swapped)

/-- SET_POLICY (R23, R34, R35): in force from the next step boundary, at once for a sequence in no cohort. -/
def execSetPolicy (e : Sub) (handle : BitVec 32) (keep : Bool) (policy : Bytes) (bias : List (BitVec 64)) (abias : List (BitVec 128))
    (s : State) : Host.Outcome State Fault Refusal :=
  if 64 < abias.length ∨ (keep ∧ !abias.isEmpty) then done s (s.refuse e 0x05 0x2E handle (malformedAt 0x28))
  else match s.named e handle policyState with
    | .error st => done s (s.refuse e 0x05 st handle)
    | .ok q =>
      if !policyAllOk policy bias abias then done s (s.finishReq q e 0x05 0x23)
      else
        let old := ((q.newPolicy.getLast?.map (·.2)).getD q.policy).abias
        let p : Policy := { block := policy, bias := usedBias policy bias, abias := if keep then old else abias }
        let s1 := s.modSeq q.handle fun q => { q with newPolicy := q.newPolicy ++ [(e, p)] }
        done s (if s.inCohort q then s1 else s1.applyPolicy q.handle)

/-! ## PREEMPT, RESUME, CANCEL, RELEASE (R23, R24, R173, R188, R192, R194, R234) -/

/-- PREEMPT (R23, R188, R234). The spec does not say what becomes of a PREEMPT while another waits for its boundary and the state is still
RUNNING or PARKED_PAGES: that it is refused with REFUSED_STATE is the model's choice (DESIGN CHOICE, log entry 124). -/
def execPreempt (e : Sub) (handle : BitVec 32) (swap : List (BitVec 128)) (s : State) : Host.Outcome State Fault Refusal :=
  match s.named e handle fun q => (decide (q.state = .running) || decide (q.state = .parkedPages)) && q.pendPreempt.isNone with
  | .error st => done s (s.refuse e 0x06 st handle)
  | .ok q =>
    if swap.any misaligned then done s (s.finishReq q e 0x06 0x2E 0 (malformedAt 0x20))
    else if !q.relayMap.isEmpty then done s (s.finishReq q e 0x06 0x27)
    else if !s.swapHolds q.model q.pageCount swap then done s (s.finishReq q e 0x06 0x26)
    else
      let s1 := { (s.modSeq q.handle fun q => { q with pendPreempt := some (e, swap) }) with swapQueue := s.swapQueue ++ [q.handle] }
      done s (if s.inCohort q then s1 else s1.takePreempt q.handle)

/-- RESUME (R192, R286): every frame and a guard frame are taken, and the owner bound anew, before anything is read. -/
def execResume (e : Sub) (handle : BitVec 32) (swap : List (BitVec 128)) (peersOk : Bool) (s : State) : Host.Outcome State Fault Refusal :=
  match s.named e handle fun q => decide (q.state = .swapped) with
  | .error st => done s (s.refuse e 0x07 st handle)
  | .ok q =>
    if swap.any misaligned then done s (s.finishReq q e 0x07 0x2E 0 (malformedAt 0x20))
    else if !peersOk then done s (s.finishReq q e 0x07 0x18)
    else match s.takeBack q with
      | none => done s (s.finishReq q e 0x07 0x18)
      | some (fs, s1) =>
        let s1 := s1.enterResuming q e 0x07 (s.ownBuffer q.model swap) fs
        done s ((s1.rebindOwner 3 e.fn handle.toNat).pageLow q.model)

/-- CANCEL of a sequence that is swapping (R194): at the next record boundary, at once while its swap waits its turn. -/
def State.cancelSwap (s : State) (q : Seq) (e : Sub) : State :=
  let out := decide (q.state = .preempting)
  let s1 := s.modSeq q.handle fun q => { q with swap := q.swap.map fun w => { w with stop := w.stop ++ [e] } }
  if s.activeSwap out = some q.handle then s1 else s1.stopSwap q.handle 0x03

/-- CANCEL (R23, R34, R194). -/
def execCancel (e : Sub) (handle : BitVec 32) (s : State) : Host.Outcome State Fault Refusal :=
  match s.named e handle fun _ => true with
  | .error st => done s (s.refuse e 0x08 st handle)
  | .ok q =>
    if q.state = .ending ∨ q.state = .ended then done s (s.finishReq q e 0x08 0x00)
    else if q.state = .preempting ∨ q.state = .resuming then done s (s.cancelSwap q e)
    else
      let s1 := s.modSeq q.handle fun q => { q with pendCancel := q.pendCancel ++ [e] }
      done s (if s.inCohort q then s1 else s1.endSeq q.handle 0x03)

/-- RELEASE (R21 to R23): the sequence goes to FREE. -/
def execRelease (e : Sub) (handle : BitVec 32) (s : State) : Host.Outcome State Fault Refusal :=
  match s.named e handle fun q => decide (q.state = .ended) with
  | .error st => done s (s.refuse e 0x09 st handle)
  | .ok q => done s ((s.finishReq q e 0x09 0x00).freeSeq q.handle)

end Sys2Proof.Machine
end

