-- ==== Sys2Proof/Machine/Peers.lean ====
section
/-!
DEFINITION. Sys2Proof/Machine/Peers.lean: what a package of a slice applies for sequences homed on another package, and the cohort
leader's decisions on the prefix tree (R22, R23, R26, R34, R157, R173 to R175, R181, R183, R185, R188, R192, R205, R230, R247; log
entries 127 and 128).
-/
namespace Sys2Proof.Machine

/-! ## The leader's decisions on the prefix tree (R181, R183, R185) -/

/-- A node as the cohort records carry it (R181; log entry 128): its slot's bytes, FRAME and REFCOUNT zero. -/
def nodeBytes (n : Node) : Bytes :=
  toLE 8 n.hash.toNat ++ toLE 4 (n.parent.getD 0xFFFFFFFF) ++ toLE 8 0 ++
  toLE 4 (n.tokens.length + 512 * n.tenant.val + 8192 * b2n n.cross) ++ toLE 8 n.lastUse.toNat ++ List.replicate 16 0xFF ++
  List.replicate 16 0 ++ n.tokens.flatMap (fun t => toLE 4 t.toNat) ++ List.replicate (4 * (256 - n.tokens.length)) 0

/-- A decision as bytes after the 576 of a cohort record (log entry 128). -/
def opBytes : TreeOp → Bytes
  | .insert home handle page n => [1, home, 0, 0] ++ toLE 4 handle.toNat ++ toLE 4 page ++ toLE 4 n.id ++ nodeBytes n
  | .link home handle node use => [2, home, 0, 0] ++ toLE 4 handle.toNat ++ toLE 4 node ++ toLE 8 use.toNat
  | .evict node taken => [3, if taken then 1 else 0, 0, 0] ++ toLE 4 node

/-- An insertion that the leader sent: the node names this package's frame of the page (R181). -/
def State.applyInsert (s : State) (m : SlotIx) (h : Key) (page : Nat) (n : Node) : State :=
  match (s.seq? h).bind fun q => q.ownFrame page with
  | some f => s.addNode m { n with frame := f }
  | none => s

/-- Tokens that a link of the leader's covers leave the sequence's first chunk, which completes when nothing of it is left (R183, R350). -/
def State.linkTokens (s : State) (h : Key) (n : Nat) : State :=
  (s.modSeq h fun q => match q.chunks with
    | [] => q
    | c :: r => { q with chunks := { c with tokens := c.tokens.drop n } :: r }).settleChunks h

/-- A match that the leader sent: this package's frame of the node is linked as the sequence's next page (R183). -/
def State.applyLink (s : State) (m : SlotIx) (h : Key) (id : Nat) (step : BitVec 64) : State :=
  match s.node? m id with
  | some n => (s.linkNode h n (s.ngramEn m) step).linkTokens h n.tokens.length
  | none => s

/-- An eviction that the leader sent (R181, R185): a frame that nothing names any more is free at once when the leader's was taken,
and else at the next boundary (R182). -/
def State.applyEvict (s : State) (m : SlotIx) (id : Nat) (taken : Bool) : State :=
  match s.node? m id with
  | some n =>
    if taken then
      let s := s.dropNode m id true
      if s.refs m n.frame = 0 then s.giveBack m n.frame else s
    else s.evictNode m n
  | none => s

/-- One decision of the leader applied by another package, in the order sent (R181). -/
def State.applyOp (s : State) (m : SlotIx) (o : TreeOp) : State :=
  match o with
  | .insert home h page n => s.applyInsert m (s.keyOf m home h) page n
  | .link home h id use => s.applyLink m (s.keyOf m home h) id use
  | .evict id taken => s.applyEvict m id taken

/-! ## What a sequence's home package tells the others -/

/-- A sequence admitted on another package (R23, R173): this package's guard holds an entitlement for it too, from a frame that its
report promised. -/
def State.hearAdmit (s : State) (h : Key) (m : SlotIx) (full relay : Bool) (p : Policy) : State :=
  if (s.seq? h).isSome then s
  else match s.growGuard m h.fn with
    | some s => ({ s with seqs := s.seqs ++ [newSeq h m full relay 0 p s.nextOrder] }).pageLow m
    | none => s

/-- A PREEMPT took effect at the home package: this package writes its own records (R188, R189). -/
def State.hearPreempt (s : State) (h : Key) (buf : BitVec 64) : State := s.enterPreempting h default buf

/-- A RESUME: this package takes its frames and a guard frame, and reads its records (R192). -/
def State.hearResume (s : State) (q : Seq) (buf : BitVec 64) : State :=
  match s.takeBack q with
  | some r => (r.2.enterResuming q default 0x07 buf r.1).pageLow q.model
  | none => s

/-- A sequence ended at the home package (R22, R194): its swap or its cohort rows stop here too. -/
def State.hearEnd (s : State) (q : Seq) : State :=
  if q.state = .ended then s
  else if q.swap.isSome then s.stopSwap q.handle 0x03
  else s.endSeq q.handle 0x03

/-- One thing that a sequence's home package has done, as it takes effect on another package of the slice. -/
def State.hear (s : State) (h : Key) (q : Seq) (n : Notice) : State :=
  match n with
  | .admitted _ _ _ _ _ => s
  | .policy b bias abias => s.modSeq h fun q => { q with policy := { block := b, bias := usedBias b bias, abias := abias } }
  | .imported n => (s.takeImport q default n).getD s
  | .chunk fin toks => s.acceptChunk q default fin toks
  | .extended toks buf => (s.extendSeq q default toks buf).getD s
  | .parked => s.modSeq h fun q => if q.state = .parkedPages then q else
      { q with state := .parkedPages, parkedFrom := q.state, parkedAt := s.stepCount, tree := [] }
  | .unparked => s.modSeq h fun q => if q.state = .parkedPages then { q with state := q.parkedFrom } else q
  | .preempting buf => s.hearPreempt h buf
  | .swapped => s.swapOutDone h
  | .resuming buf => s.hearResume q buf
  | .resumed => match q.swap with | some w => s.backDone h w | none => s
  | .backFailed => s.failBack h 0x1A
  | .ended => s.hearEnd q
  | .released => s.freeSeq h
  | .spill n => s.beginSpill h n

/-- A notice of another package's sequence (log entry 128). -/
def State.notice (s : State) (x : Key × Notice) : State :=
  match x.1.home with
  | none => s
  | some (m, _) => match s.seq? x.1, x.2 with
    | none, .admitted full relay b bias abias =>
      s.hearAdmit x.1 m full relay { block := b, bias := usedBias b bias, abias := abias }
    | none, _ => s
    | some q, n => s.hear x.1 q n

/-- The notices of a model's sequences in the order they were sent. -/
def State.notices (s : State) (m : SlotIx) (l : List (Key × Notice)) : State :=
  (l.filter fun x => decide (x.1.home.map (·.1) = some m)).foldl State.notice s

/-- The tokens that a sequence's home package accepted (R32, R241, R247): they are committed, and the accepted path and the next tree
are kept for the boundary. -/
def State.hearAccepted (s : State) (m : SlotIx) (a : Accepted) : State :=
  let h := s.keyOf m a.home a.handle
  if h.isOwn then s
  else s.modSeq h fun q =>
    { (a.tokens.foldl (fun (q : Seq) t => q.commit false (some t)) q) with
      genToks := q.genToks ++ a.tokens, tree := a.tree
      pass := some { root := a.root, path := a.path, tokens := [], nodes := a.path.length } }

end Sys2Proof.Machine
end

