-- ==== Sys2Proof/Machine/Form.lean ====
section
/-!
DEFINITION. Sys2Proof/Machine/Form.lean: the forming of cohorts (R25 to R28, R43, R44, R171, R172, R216, R240, R241, R248, R279,
R289), and the messages that carry cohort records and tokens (R28, R32, R241).
-/
namespace Sys2Proof.Machine

/-! ## Rows given -/

/-- A cohort being formed: the state so far, its rows, the rows still free, the sequences with a DECODE row, and those that sat
out for want of an emission slot. What a sequence's home package alone does (R26) is done where the sequence is homed. -/
structure Build where
  s : State
  rows : Vector Row 32 := Vector.replicate 32 {}
  free : List (Fin 32)
  roots : List (Key × Fin 32) := []
  stalled : List Key := []

/-- One row placed in the lowest free row. -/
def Build.place (b : Build) (r : Row) : Build :=
  match b.free with
  | i :: rest => { b with rows := b.rows.set i r, free := rest }
  | [] => b

/-- Emission slots that can be reserved for a sequence (R43, R347); for one homed elsewhere, those its home package offered. -/
def State.openSlots (s : State) (q : Seq) : Nat :=
  if !q.handle.isOwn then q.offer
  else if s.busMaster q.handle.fn then (s.ring q.handle.fn q.emitSet 3).unreserved else 0

/-- n emission slots reserved for a sequence (R43). -/
def State.takeSlots (s : State) (q : Seq) (n : Nat) : State :=
  if q.handle.isOwn then
    (s.modRing q.handle.fn q.emitSet 3 fun r => { r with reserved := r.reserved + n }).modSeq q.handle fun q => { q with slots := q.slots + n }
  else s.modSeq q.handle fun q => { q with offer := q.offer - n }

/-- A step sat out for want of an emission slot, counted on the home package (R43, R361). -/
def State.emitStall (s : State) (h : Key) : State := if h.isOwn then s.modFn h.fn fun f => { f with stat := bump f.stat 0 32 1 } else s

/-- The sequence is in a cohort of its model other than c. -/
def State.elsewhere (s : State) (q : Seq) (c : CohIx) : Bool :=
  s.cohorts.any fun k => decide (k.model = q.model) && decide (k.index ≠ c) && (rowHandles k 0xFFFFFFFF).contains q.handle

/-- A sequence that may get rows in cohort c: its state is st, its entitlement intact, its function not being disabled. -/
def State.mayRun (s : State) (c : CohIx) (st : SeqState) (q : Seq) : Bool :=
  decide (q.state = st) && decide (q.ent = .intact) && q.imps.isEmpty && !(q.handle.isOwn && s.fns[q.handle.fn].disabling) && !s.elsewhere q c

/-- The sequence's newest accepted token as a DECODE row (R25, R26, R43, R172). -/
def Build.decode (b : Build) (m : SlotIx) (h : Key) : Build :=
  match b.free, b.s.seq? h with
  | i :: _, some q =>
    if b.s.openSlots q = 0 then { b with s := b.s.emitStall h }
    else
      let p := q.tokens.length - 1
      let r := b.s.ensure h p p false
      if !r.1 then b
      else
        let s := (r.2.takeSlots q 1).modSeq h fun q => { q with lastStep := b.s.stepCount + 1 }
        { (b.place { handle := h, position := BitVec.ofNat 28 p, token := (q.tokens.getLast?.bind id).getD 0, kind := 1, sample := true,
                     home := b.s.homeOf m h }) with s := s, roots := b.roots ++ [(h, i)] }
  | _, _ => b

/-- Tokens of a sequence that wait for rows (R26). -/
def Seq.waiting (q : Seq) : List (BitVec 18) := q.chunks.flatMap (·.tokens)

/-- n tokens taken from the front of the chunks. -/
def dropTokens : Nat → List Chunk → List Chunk
  | _, [] => []
  | n, c :: r => { c with tokens := c.tokens.drop n } :: dropTokens (n - c.tokens.length) r

/-- The pages for ingest rows of positions p to p + n − 1 (R172, R174): how many rows they allow, and the state with them. -/
def State.ingestPages (s : State) (q : Seq) (p n : Nat) : Nat × State :=
  let one := min n (256 - p % 256)
  let both := decide (one < n) && s.needsCopy q (p / 256) && q.reserve.isNone
  let r := s.ensure q.handle p (p + n - 1) false
  if !both && r.1 then (n, r.2)
  else
    let r := s.ensure q.handle p (p + one - 1) false
    if r.1 then (one, r.2) else (0, s)

/-- The prompt tokens of rows committed as they are given rows; a carried token is committed already (R23, R183). -/
def Seq.ingest (q : Seq) (ngram : Bool) (p : Nat) (ts : List (BitVec 18)) (step : Nat) : Seq :=
  let q' := (ts.zip (List.range ts.length)).foldl (fun (q : Seq) y =>
    if p + y.2 < q.tokens.length then q else q.commit ngram (some y.1)) q
  { q' with chunks := dropTokens ts.length q.chunks, matching := false, lastStep := step }

/-- Rows of a sequence already in the cohort being formed. -/
def Build.have (b : Build) (h : Key) : Nat := (b.rows.toList.filter fun r => decide (r.kind ≠ 0) && decide (r.handle = h)).length

/-- A sequence gets no row in the step for want of an emission slot, counted once (R43, R361). -/
def Build.stall (b : Build) (h : Key) : Build :=
  if b.stalled.contains h then b else { b with s := b.s.emitStall h, stalled := b.stalled ++ [h] }

/-- Up to n ingest rows of a sequence, 32 in all (R26, R43): the cohort with them, and how many were given. Its sampled row waits
while no emission slot can be had. -/
def Build.ingest (b : Build) (m : SlotIx) (h : Key) (n : Nat) : Build × Nat :=
  match b.s.seq? h with
  | none => (b, 0)
  | some q =>
    let ts := q.waiting
    let n := min (min n (32 - b.have h)) (min ts.length b.free.length)
    let ends (n : Nat) : Bool := decide (0 < n) && decide (n = ts.length) && (q.chunks.getLast?.any fun c => c.fin)
    let short := ends n && decide (b.s.openSlots q = 0)
    let n := if short then n - 1 else n
    if n = 0 then (if short && decide (b.have h = 0) then b.stall h else b, 0)
    else
      let s := b.s
      let p := q.written + b.have h
      let r := s.ingestPages q p n
      let n := r.1
      if n = 0 then (b, 0)
      else
        let s := if ends n then r.2.takeSlots q 1 else r.2
        let s := s.modSeq h fun q => q.ingest (s.ngramEn m) p (ts.take n) (b.s.stepCount + 1)
        let home := b.s.homeOf m h
        let b := ((ts.take n).zip (List.range n)).foldl (fun (b : Build) y =>
          b.place { handle := h, position := BitVec.ofNat 28 (p + y.2), token := y.1, kind := 2,
                    sample := ends n && decide (y.2 + 1 = n), home := home }) { b with s := s }
        (b, n)

/-- Ingest rows up to a number, in admission order (R26). -/
def Build.ingestAll (b : Build) (m : SlotIx) (c : CohIx) (n : Nat) : Build :=
  let qs := sortBy (fun (a b : Seq) => decide (a.order < b.order)) ((b.s.seqsOf m).filter (b.s.mayRun c .ingesting))
  (qs.foldl (fun (x : Build × Nat) q => let y := x.1.ingest m q.handle x.2; (y.1, x.2 - y.2)) (b, n)).1

/-! ## Draft trees (R241, R248) -/

/-- The node that a trim removes: the deepest, in the highest row (R248); none of an empty tree. -/
def trimNode (t : List Draft) : List Draft :=
  let d := (t.map (·.depth)).foldl max 0
  match ((List.range t.length).filter fun i => decide ((t[i]?).any fun x => x.depth = d)).getLast? with
  | some i => (t.eraseIdx i).map fun x => if i + 1 < x.parent then { x with parent := x.parent - 1 } else x
  | none => t

/-- A tree trimmed to n nodes and a depth (R248). -/
def trimTree (n depth : Nat) : Nat → List Draft → List Draft
  | 0, t => t
  | f + 1, t => if n < t.length ∨ depth < (t.map (·.depth)).foldl max 0 then trimTree n depth f (trimNode t) else t

/-- TRIMMED of SPEC_SOURCE, which counts on the home package (R250). -/
def State.countTrims (s : State) (h : Key) (n : Nat) : State :=
  if h.isOwn then { s with specSource := bump s.specSource 0 32 n } else s

/-- The DRAFT rows of a sequence whose root is placed (R172, R241, R248). -/
def Build.draft (b : Build) (m : SlotIx) (peers : List (Key × PeerReport)) (x : Key × Fin 32) : Build :=
  match b.s.seq? x.1 with
  | none => b
  | some q =>
    if q.tree.isEmpty then b
    else
      let p := q.tokens.length - 1
      let most := match b.s.spec? m with | some d => d.maxNodes | none => 0
      let n := min (min most b.free.length) (b.s.lastPosition q - p)
      let depth := min (b.s.openSlots q) (polMaxNew q.policy - q.genToks.length - 1)
      let t1 := trimTree n depth 32 q.tree
      let far := p + t1.length
      let here := 256 * (p / 256 + 1) - 1 - p
      let need := decide (far / 256 ≠ p / 256)
      let r := if need && !t1.isEmpty then
          (if decide (far / 256 < q.pageCount) || (peerOf peers x.1).framesOk then b.s.ensure x.1 p far true else (false, b.s))
        else (true, b.s)
      let t2 := if r.1 then t1 else trimTree here depth 32 t1
      let s := if r.1 then r.2 else b.s
      let s := (s.takeSlots q ((t2.map (·.depth)).foldl max 0)).modSeq x.1 fun q => { q with tree := [] }
      let s := s.countTrims x.1 (q.tree.length - t2.length)
      let rows := b.free.take t2.length
      let parent (i : Nat) : BitVec 5 := BitVec.ofNat 5 (if i = 0 then x.2.val else ((rows[i - 1]?).map (·.val)).getD 0)
      (t2.zip (List.range t2.length)).foldl (fun (b : Build) y =>
        b.place { handle := x.1, position := BitVec.ofNat 28 (p + y.2 + 1), token := y.1.token, kind := 3, sample := true,
                  parent := parent y.1.parent, home := b.s.homeOf m x.1 }) { b with s := s }

/-! ## A cohort formed (R26, R28, R289) -/

/-- The rows of a new step in the order of R26. -/
def State.fillRows (s : State) (m : SlotIx) (c : CohIx) (free : List (Fin 32)) (peers : List (Key × PeerReport)) : Build :=
  let b : Build := { s := s, free := free }
  let dec := sortBy (fun (a b : Seq) => decide (a.lastStep < b.lastStep) || (decide (a.lastStep = b.lastStep) && decide (a.order < b.order)))
    ((s.seqsOf m).filter (s.mayRun c .running))
  let b := dec.foldl (fun (b : Build) q => b.decode m q.handle) b
  let waiting := (((b.s.seqsOf m).filter (b.s.mayRun c .ingesting)).map fun q => q.waiting.length).sum
  let b := b.ingestAll m c (min 8 waiting)
  let b := b.roots.foldl (fun (b : Build) x => b.draft m peers x) b
  b.ingestAll m c b.free.length

/-- A cohort record as its 576 bytes (R28). -/
def recordBytes (k : Cohort) : Bytes :=
  toLE 8 k.step.toNat ++ toLE 2 k.model.val ++ toLE 1 k.index.val ++ [0] ++ toLE 4 k.mask.toNat ++ List.replicate 48 0 ++
  k.rows.toList.flatMap rowBytes

/-- A step of a cohort with given rows, nothing of it done yet. -/
def newStep (m : SlotIx) (c : CohIx) (step : BitVec 64) (mask : BitVec 32) (rows : Vector Row 32) (blocked : BitVec 32) : Cohort :=
  { model := m, index := c, step := step, mask := mask, rows := rows, blocked := blocked, stall := none, doneCount := [], abandoned := 0,
    opsDone := Vector.replicate 4 (Vector.replicate 8 0), prismIn := [], prismPages := Vector.replicate 4 (0, 0), stepEnd := false, cutNow := false }

/-- A cohort enters a step (R289, R398): its span is cleared, every engine is woken, what its last step left is dropped. -/
def State.putCohort (s : State) (k : Cohort) : State :=
  let s := s.enterStep k.model k.index k.step
  let mine (m : SlotIx) (c : CohIx) : Bool := decide (m = k.model) && decide (c = k.index)
  { s with
    cohorts := s.cohorts.filter (fun x => !mine x.model x.index) ++ [k]
    cands := s.cands.filter fun x => !mine x.model x.cohort
    sampled := s.sampled.filter fun x => !mine x.model x.cohort
    tiles := s.tiles.map fun t => { t with gated := 0 }
    stepCount := s.stepCount + 1 }

/-- The cohort closed. -/
def State.closeCohort (s : State) (m : SlotIx) (c : CohIx) : State :=
  { s with cohorts := s.cohorts.filter fun x => !(decide (x.model = m) && decide (x.index = c)) }

/-- The record, and after it the decisions on the prefix tree since the last one, sent to every other member of the slice (R28, R181; log
entry 128). -/
def State.sendRecord (s : State) (k : Cohort) : State :=
  let mine := s.treeOps.filter fun o => decide (o.1 = k.model)
  let s := { s with treeOps := s.treeOps.filter fun o => !decide (o.1 = k.model) }
  match s.sliceOf k.model with
  | some x => (x.members.filter fun a => decide (a ≠ s.address)).foldl
      (fun (s : State) a => s.control x.id x.members x.fn.val 4 a (recordBytes k ++ mine.flatMap fun o => opBytes o.2)) s
  | none => s

/-- A row whose sequence takes no step: it has ended, or it parks, or it is being swapped (R44, R174, R188). -/
def State.rowIdle (s : State) (k : Cohort) (r : Fin 32) : Bool :=
  match s.seq? k.rows[r].handle with
  | some q => decide (q.state ≠ .running) && decide (q.state ≠ .ingesting)
  | none => true

/-- The rows that a boundary freed, which run empty for one step (R44). -/
def State.freedRows (s : State) (k : Cohort) : BitVec 32 := rowsMask ((maskRows k.mask).filter (s.rowIdle k))

/-- The cohort leader forms a cohort (R26 to R28; log entry 129 for the time of its record). -/
def State.formCohort (s : State) (m : SlotIx) (c : CohIx) (blocked : BitVec 32) (peers : List (Key × PeerReport)) : State :=
  let b := s.fillRows m c ((List.finRange 32).filter fun r => !blocked.getLsbD r.val) peers
  let mask := rowsMask ((List.finRange 32).filter fun r => decide (b.rows[r].kind ≠ 0))
  if mask = 0 then b.s.closeCohort m c
  else
    let k := newStep m c (b.s.stepOf m c + 1) mask b.rows blocked
    (b.s.putCohort k).sendRecord k

/-! ## A record on another member (R26, R28, R43, R44, R172) -/

/-- Rows that leave a cohort's mask (R44, R241). -/
def dropRows (k : Cohort) (rs : List (Fin 32)) : Cohort :=
  rs.foldl (fun (k : Cohort) r =>
    { k with mask := clrBit k.mask r.val, rows := vmod k.rows r fun x => { x with kind := 0, sample := false } }) k

/-- The pages of a sequence's rows (R172): those of DECODE and INGEST rows first, which may use the guard, then those of DRAFT rows. -/
def State.rowPages (s : State) (k : Cohort) (h : Key) : State :=
  let at' (draft : Bool) : List Nat :=
    ((rowsOf k h).filter fun r => decide (k.rows[r].kind = 3) == draft).map fun r => k.rows[r].position.toNat
  let span (s : State) (ps : List Nat) (draft : Bool) : State :=
    if ps.isEmpty then s else (s.ensure h (ps.foldl min (ps.headD 0)) (ps.foldl max 0) draft).2
  span (span s (at' false) false) (at' true) true

/-- The rows of a sequence that its home package can reserve no emission slot for (R43): every one when not even one slot is there and a row
is sampled, and DRAFT rows deeper than the slots cover. -/
def State.unslotted (s : State) (k : Cohort) (q : Seq) : List (Fin 32) :=
  let rs := rowsOf k q.handle
  let a := (rs.map fun r => k.rows[r].position.toNat).foldl min 268435455
  let n := s.openSlots q
  if !rs.any (fun r => k.rows[r].sample) then []
  else if n = 0 then rs
  else rs.filter fun r => decide (k.rows[r].kind = 3) && decide (n ≤ nodePos k r - a)

/-- The depth of a sequence's rows in its tree (R242). -/
def treeDepth (k : Cohort) (h : Key) : Nat :=
  let rs := rowsOf k h
  let a := (rs.map fun r => k.rows[r].position.toNat).foldl min 268435455
  rs.foldl (fun n r => if k.rows[r].kind = 3 then max n (nodePos k r - a) else n) 0

/-- The prompt tokens of a sequence's rows are committed, or its step is noted (R26). -/
def State.enterRows (s : State) (k : Cohort) (h : Key) : State :=
  let ing := (rowsOf k h).filter fun r => decide (k.rows[r].kind = 2)
  let a := (ing.map fun r => k.rows[r].position.toNat).foldl min 268435455
  s.modSeq h fun q =>
    if ing.isEmpty then { q with lastStep := s.stepCount, tree := [] }
    else q.ingest (s.ngramEn k.model) a (q.waiting.take ing.length) s.stepCount

/-- What a member does for a sequence that the leader gave rows (R26, R43, R172): pages are there, prompt tokens are committed, and on
the home package emission slots are reserved; rows for which none can be had leave the mask. -/
def State.memberRows (s : State) (k : Cohort) (h : Key) : State :=
  match s.seq? h with
  | none => s
  | some q =>
    let out := if h.isOwn then s.unslotted k q else []
    let k' := dropRows k out
    let s := if out.isEmpty then s else s.modCohort k.model k.index fun k => dropRows k out
    if (rowsOf k' h).isEmpty then s.emitStall h
    else
      let s := s.rowPages k' h
      let s := if h.isOwn && (rowsOf k' h).any (fun r => k'.rows[r].sample) then s.takeSlots q (treeDepth k' h + 1) else s
      let s := s.countTrims h (q.tree.length - ((rowsOf k' h).filter fun r => decide (k'.rows[r].kind = 3)).length)
      s.enterRows k' h

/-- A RUNNING sequence of this package that the leader gave no row for want of an emission slot (R43, R361). -/
def State.satOut (s : State) (k : Cohort) (q : Seq) : Bool :=
  q.handle.isOwn && s.mayRun k.index .running q && !(rowHandles k 0xFFFFFFFF).contains q.handle && decide (s.openSlots q = 0)

/-- A cohort enters the step of a record from the leader (R28, R44): rows of sequences that have ended run empty. -/
def State.startRecord (s : State) (k : Cohort) : State :=
  let out := ((s.seqsOf k.model).filter (s.satOut k)).map (·.handle)
  let k := dropRows k ((maskRows k.mask).filter (s.rowIdle k))
  let s := s.putCohort k
  let s := (rowHandles k 0xFFFFFFFF).foldl (fun s h => s.memberRows k h) s
  (out.foldl State.emitStall s).pageLow k.model

/-- The record that waits for a cohort's boundary, if one does, starts the next step (R28, R44). -/
def State.startWaiting (s : State) (m : SlotIx) (c : CohIx) : State :=
  match s.nextCohorts.find? fun k => decide (k.model = m) && decide (k.index = c) with
  | some k => ({ s with nextCohorts := s.nextCohorts.filter fun k => !(decide (k.model = m) && decide (k.index = c)) }).startRecord k
  | none => s

/-- A row of a cohort record (R28). -/
def State.rowOfRecord (s : State) (m : SlotIx) (w : BitVec 4608) (i : Fin 32) : Row :=
  let o := 8 * (0x40 + 16 * i.val)
  { handle := s.keyOf m (BitVec.ofNat 8 (fld w (o + 104) 8)) (BitVec.ofNat 32 (fld w o 32)), position := BitVec.ofNat 28 (fld w (o + 32) 28),
    token := BitVec.ofNat 18 (fld w (o + 64) 18), kind := BitVec.ofNat 2 (fld w (o + 96) 2), sample := bit w (o + 98),
    parent := BitVec.ofNat 5 (fld w (o + 99) 5), home := BitVec.ofNat 8 (fld w (o + 104) 8) }

/-- COHORT_RECORD (R28, R44, R181, R289): a record of the cohort leader reaches another member, with the leader's decisions on the prefix
tree. While the cohort's step still runs here the record waits for the boundary. -/
def execCohortRecord (rec' : CohortMessage) (s : State) : Host.Outcome State Fault Refusal :=
  let m : SlotIx := Fin.ofNat 64 (fld rec'.words 64 16)
  let c : CohIx := Fin.ofNat 8 (fld rec'.words 80 8)
  let s := s.takeType 4
  match s.load? m with
  | none => done s s
  | some l =>
    if !s.isReady || !s.loaded m || l.lost then done s s
    else
      let s1 := rec'.ops.foldl (fun s o => s.applyOp m o) s
      let k := newStep m c (rec'.words.extractLsb' 0 64) (rec'.words.extractLsb' 96 32) (Vector.ofFn (s1.rowOfRecord m rec'.words)) 0
      if (s1.cohort? m c).isNone then done s (s1.startRecord k)
      else done s { s1 with nextCohorts := s1.nextCohorts.filter (fun x => !(decide (x.model = m) && decide (x.index = c))) ++ [k] }

/-- A row as a home package's token message gives it (R28, R241): a DRAFT row of a block that its new tree does not use leaves the
mask. -/
def fillRow (k : Cohort) (r : TokenRow) : Cohort :=
  if r.kind = 0 then dropRows k [r.row]
  else { k with rows := vmod k.rows r.row fun x => { x with token := r.token, position := r.position, kind := r.kind, parent := r.parent } }

/-- TOKEN_MESSAGE (R28, R32, R241, R247): a home package's token ids fill the rows of a cohort's next step, of the record that waits if one
does; the tokens it accepted are committed. -/
def execTokenMessage (model : SlotIx) (cohort : CohIx) (rows : TokenRows) (s : State) :
    Host.Outcome State Fault Refusal :=
  let s := s.takeType 5
  let s1 := rows.accepted.foldl (fun s a => s.hearAccepted model a) s
  let mine (k : Cohort) : Bool := decide (k.model = model) && decide (k.index = cohort)
  if s1.nextCohorts.any mine then
    done s { s1 with nextCohorts := s1.nextCohorts.map fun k => if mine k then rows.filled.foldl fillRow k else k }
  else done s (s1.modCohort model cohort fun k => rows.filled.foldl fillRow k)

/-! ## STEP_BOUNDARY (R34, R43, R171, R174 to R177, R187, R230, R333) -/

/-- Sequences of this package in no cohort whose page list cannot be read end (R163, R256). -/
def State.endListBad (s : State) (m : SlotIx) : State :=
  ((s.seqsOf m).filter fun q => q.handle.isOwn && q.listBad && (decide (q.state = .running) || decide (q.state = .ingesting) || decide (q.state = .parkedPages)) &&
    !(s.cohorts.any fun k => decide (k.model = m) && (rowHandles k 0xFFFFFFFF).contains q.handle)).foldl
    (fun s q => s.endSeq q.handle 0x14 (s.faultDetail m 0 0xFFFF)) s

/-- The emission slots that the home packages of sequences homed elsewhere offer (R43). -/
def State.takeOffers (s : State) (m : SlotIx) (peers : List (Key × PeerReport)) : State :=
  (s.seqsOf m).foldl (fun s q => if q.handle.isOwn then s else s.modSeq q.handle fun q => { q with offer := (peerOf peers q.handle).slots }) s

/-- What the allocator does at a boundary (R171, R175, R177, R187, R230). -/
def State.allocate (s : State) (m : SlotIx) (peers : List (Key × PeerReport)) : State :=
  let hs := (s.seqsOf m).map (·.handle)
  let s := hs.foldl (fun s h => s.endSpill h) s
  let s := s.dropSpans fun x => decide (x.model = m) && peers.any fun p => decide (p.1.handle = x.handle) && decide (p.2.freedBy = some x.home)
  let s := ((s.allocatorBoundary m).unpark m peers).pageLow m
  let s := s.sweepTenant m (fun f => (s.tenant? f).isNone) s.models[m].pool.nodes.length
  let s := hs.foldl (fun s h => s.reserveFor h) s
  hs.foldl (fun s h => s.startSpill h (peerOf peers h)) s

/-- The functions being disabled that now have no rows left go through the rest of R362. -/
def State.finishDisabled (s : State) : State := (List.finRange 16).foldl (fun s f => s.tryFinish f) s

/-- The cohort's step has ended on this package, by its STEP_END or by a cut. -/
def Cohort.over (k : Cohort) : Bool := k.stepEnd || k.cutNow

/-- In Aperture mode a pass of the model is under way: some other cohort has begun it and has not ended it, so that no cohort is formed
before the next pass (R279). -/
def State.passRuns (s : State) (m : SlotIx) (c : CohIx) : Bool :=
  !(s.windowLayers m).isEmpty &&
  s.cohorts.any fun k => decide (k.model = m) && decide (k.index ≠ c) && !k.over && !k.doneCount.isEmpty

/-- The rest of a boundary once the cohort's finished step is settled (R34, R43, R175): what the other packages tell, the allocator, and the
next step: on the leader formed now, on another member that of a record that waits. -/
def State.boundary (s : State) (m : SlotIx) (c : CohIx) (blocked : BitVec 32) (peers : List (Key × PeerReport))
    (news : List (Key × Notice)) : State :=
  let s := ((s.notices m news).settleSwaps m peers).endListBad m
  let s := ((s.finishDisabled.allocate m peers).takeOffers m peers).layerBoundary m c
  if s.leads m then (if s.passRuns m c then s else s.formCohort m c blocked peers).pageLow m else s.startWaiting m c

/-- STEP_BOUNDARY (R34): the finished step of the cohort is settled, the allocator works, and the leader forms the next step. -/
def execStepBoundary (model : SlotIx) (cohort : CohIx) (peers : BoundaryNews) (s : State) :
    Host.Outcome State Fault Refusal :=
  match s.load? model with
  | none => done s s
  | some l =>
    if !s.isReady || !s.loaded model || l.lost then done s s
    else match s.cohort? model cohort with
      | none => done s ((s.reroute model peers.reports).boundary model cohort 0 peers.reports peers.news).cutLost
      | some k =>
        if !k.over then done s s
        else
          let s1 := (s.reroute model peers.reports).settleCohort k peers.reports
          done s (((s1.updateCosts k).closeCohort model cohort).boundary model cohort (s1.freedRows k) peers.reports peers.news).cutLost

end Sys2Proof.Machine
end

