-- ==== Sys2Proof/Machine/Sync.lean ====
section
/-!
DEFINITION. Sys2Proof/Machine/Sync.lean: the commands on sync words (R290 to R302). The operations reach words of the
issuer's own package and tenant, so the check of R303 never fails for them.
-/
namespace Sys2Proof.Machine

/-- SYNC_FILL (R290, R293): FILL of a word. -/
def execSyncFill (word : BitVec 16) (v : BitVec 48) (s : State) : Host.Outcome State Fault Refusal :=
  let r := s.applyFill word v
  done s (r.2.syncResult r.1 0)

/-- SYNC_TAKE (R290, R295): TAKE of a word for an engine. -/
def execSyncTake (word : BitVec 16) (unit engine : BitVec 3) (s : State) : Host.Outcome State Fault Refusal :=
  let r := s.applyTake word unit engine
  done s (r.2.2.syncResult r.1 r.2.1)

/-- SYNC_PEEK (R290, R295): PEEK of a word for an engine. -/
def execSyncPeek (word : BitVec 16) (unit engine : BitVec 3) (s : State) : Host.Outcome State Fault Refusal :=
  let r := s.applyPeek word unit engine
  done s (r.2.2.syncResult r.1 r.2.1)

/-- SYNC_CLEAR (R290). -/
def execSyncClear (word : BitVec 16) (s : State) : Host.Outcome State Fault Refusal :=
  let r := s.applyClear word
  done s (r.2.syncResult r.1 0)

/-- SYNC_POISON (R290). -/
def execSyncPoison (word : BitVec 16) (s : State) : Host.Outcome State Fault Refusal :=
  let r := s.applyPoison word
  done s (r.2.syncResult r.1 0)

/-- The state without the repeated operation at place i. -/
def State.dropRetry (s : State) (i : Nat) : State := s.modSync fun y => { y with retries := y.retries.eraseIdx i }

/-- DONE_FILL_RETRY (R298): the DONE FILL at place idx of the repeated operations is issued again; it stays while the
word is full. -/
def execDoneFillRetry (idx : Nat) (s : State) : Host.Outcome State Fault Refusal :=
  match s.sync.retries[idx]? with
  | some r =>
    if r.op = 0 then
      let a := s.applyFill r.word r.v
      if a.1 = syFull then done s (s.syncResult syFull 0) else done s ((a.2.dropRetry idx).syncResult a.1 0)
    else done s s
  | none => done s s

/-- Delivers the outcome of a repeated TAKE or PEEK to the engine that waits for it (R295, R297). -/
def State.deliverRetry (s : State) (r : Retry) (st : BitVec 3) (v : BitVec 48) : State :=
  s.modSync fun y => { y with completions := y.completions ++
    [({ id := 16384, observe := decide (r.op = 2), word := r.word, tenant := 0, unitHome := r.unitHome, engine := r.engine,
        registered := 0, limit := r.limit, hung := r.hung }, st, v)] }

/-- The watch that a repeated TAKE or PEEK has registered at last goes on with the same wait (R295, R302): its limit, and whether its
HANG_WATCH is written. -/
def State.sameWait (s : State) (r : Retry) : State :=
  s.modSync fun y => { y with watches := y.watches.dropLast ++ (y.watches.getLast?.map fun k =>
    { k with limit := r.limit, hung := r.hung }).toList }

/-- WATCH_RETRY (R295): the TAKE or PEEK at place idx that found no watch entry is issued again; it stays while it finds none. -/
def execWatchRetry (idx : Nat) (s : State) : Host.Outcome State Fault Refusal :=
  match s.sync.retries[idx]? with
  | some r =>
    if r.op = 0 then done s s
    else
      let b := if r.op = 1 then s.applyTake r.word r.unitHome r.engine else s.applyPeek r.word r.unitHome r.engine
      let c := if b.1 = syNoWatch then b.2.2
        else if b.1 = syWatching then (b.2.2.dropRetry idx).sameWait r
        else (b.2.2.dropRetry idx).deliverRetry r b.1 b.2.1
      done s (c.syncResult b.1 b.2.1)
  | none => done s s

/-- UNIT of an event for a word's home (R358). -/
def homeUnit (h : Nat) : Nat := if h = 0 then 4 else h - 1

/-- The HANG_WATCH event of one wait, once (R302): to the function of the word's TENANT and, when different, to the PF. -/
def State.hangEvent (s : State) (word : BitVec 16) (kind : Nat) (unitHome engine : BitVec 3) (waited : BitVec 64) : State :=
  let t := wTenant (s.word word)
  let args := [(0, 16, word.toNat), (32, 3, kind), (64, 3, unitHome.toNat), (67, 3, engine.toNat), (128, 64, waited.toNat)]
  let u := homeUnit (wordHome word)
  let s := s.event t 0x0B u args
  let s := if t = 0 then s else s.event 0 0x0B u args
  s.modSync fun y => { y with stat := bump y.stat 32 16 1 }

/-- The wait that a HANG_WATCH names has passed its limit and is not yet reported. -/
def hangDue (limit : BitVec 20) (hung : Bool) (waited : BitVec 64) : Bool := !hung && decide (limit.toNat < waited.toNat)

/-- HANG_WATCH (R302): the wait at place idx (kind 0 or 1 a watch, 2 a retried FILL, 3 a held FILL, 4 a repeated TAKE or
PEEK) has lasted waited microseconds. -/
def execHangWatch (idx : Nat) (kind : BitVec 3) (waited : BitVec 64) (s : State) : Host.Outcome State Fault Refusal :=
  if kind = 3 then
    match s.sync.held[idx]? with
    | some h =>
      if hangDue h.limit h.hung waited then
        done s ((s.modSync fun y => { y with held := y.held.set idx { h with hung := true } }).hangEvent h.word 3 0 7 waited)
      else done s s
    | none => done s s
  else if kind = 2 ∨ kind = 4 then
    match s.sync.retries[idx]? with
    | some r =>
      if decide (r.op = 0) == decide (kind = 2) && hangDue r.limit r.hung waited then
        done s ((s.modSync fun y => { y with retries := y.retries.set idx { r with hung := true } }).hangEvent r.word
          kind.toNat r.unitHome r.engine waited)
      else done s s
    | none => done s s
  else if kind ≠ 0 ∧ kind ≠ 1 then done s s
  else
    match s.sync.watches[idx]? with
    | some k =>
      if k.observe == decide (kind = 1) && hangDue k.limit k.hung waited then
        done s ((s.modSync fun y => { y with watches := y.watches.set idx { k with hung := true } }).hangEvent k.word
          kind.toNat k.unitHome k.engine waited)
      else done s s
    | none => done s s

/-- HELD_FILL_APPLY (R299): the held FILL at place idx is tried again. -/
def execHeldFillApply (idx : Nat) (s : State) : Host.Outcome State Fault Refusal := done s (s.tryHeld idx)

end Sys2Proof.Machine
end

