-- ==== Sys2Proof/Machine/Messages.lean ====
section
/-!
DEFINITION. Sys2Proof/Machine/Messages.lean: the receipt of NARROW, WIDE and RAW messages, carried signals, and Relay pulls and blocks
(R13, R17, R102, R107, R108, R232, R233, R299, R304, R305).
-/
namespace Sys2Proof.Machine

/-! ## Messages (R13, R102, R108) -/

/-- The message a packet belongs to. -/
def sameMsg (h : Head) (x : Inbound) : Bool := decide (x.src = h.src) && decide (x.msg = h.msg)

/-- The record of a message being received; a fresh one when none is kept. -/
def State.inbound? (s : State) (h : Head) : Option Inbound := s.inbound.find? (sameMsg h)

/-- A message of which nothing has arrived. -/
def freshInbound (h : Head) : Inbound :=
  { src := h.src, msg := h.msg, written := 0, mark := false, narrow := decide (h.typ = 0), whole := false, signal := false, bad := false }

/-- The state with the record of a message replaced by g of it. -/
def State.modInbound (s : State) (h : Head) (g : Inbound → Inbound) : State :=
  if (s.inbound? h).isSome then { s with inbound := updFirst (sameMsg h) g s.inbound }
  else { s with inbound := s.inbound ++ [g (freshInbound h)] }

/-- A packet of a slice is for a model this package runs in it (R324, R331; log entry 45). -/
def State.packetModel (s : State) (h : Head) : Option SlotIx :=
  if hm : h.model < 64 then
    match s.load? ⟨h.model, hm⟩ with
    | some l => if l.sliceId = h.slice then some ⟨h.model, hm⟩ else none
    | none => none
  else none

/-- The BF16 bytes of a NARROW packet's link groups (R63, R102). -/
def narrowBytes (d : Bytes) : Bytes :=
  (List.range (d.length / 33)).flatMap fun i =>
    let g := (d.drop (33 * i)).take 33
    (mxToBf16 (g.getD 32 0).toNat ((g.take 32).map (·.toNat))).flatMap fun x => toLE 2 x.toNat

/-- Writes a packet's data into the scratchpad (R102, R123, R131): the state, and whether a malformed block was met. A packet
names neither LAYER nor ROW (R324), so the record and the event of a malformed block hold 0 for both (DESIGN CHOICE, log entry
117). -/
def State.writePacket (s : State) (m : SlotIx) (h : Head) (d : Bytes) (seen : Bool) : Bool × State :=
  let at0 := s.spBase m h.tile + h.addr
  if h.typ = 0 then (seen, s.scrPut h.tile at0 (narrowBytes d))
  else if h.typ = 1 then
    let b : BlockCtx := { tile := h.tile, model := some m, layer := 0, row := 0, source := 2, owner := s.ownerOf m }
    (List.range (d.length / 56)).foldl (fun (a : Bool × State) i =>
      let r := a.2.decodeBlock b (at0 + 128 * i) ((d.drop (56 * i)).take 56) a.1
      (r.2.1, r.2.2.scrPut h.tile (at0 + 128 * i) (r.1.flatMap fun x => toLE 2 x.toNat))) (seen, s)
  else (seen, s.scrPut h.tile at0 d)

/-- Writes a packet and counts it (R13): with the last one the message is whole; one without a signal is then forgotten. -/
def State.countPacket (s : State) (m : SlotIx) (k : Packet) : State :=
  let h := headOf k.hdr
  let w := s.writePacket m h k.data ((s.inbound? h).any fun x => x.bad)
  let s := w.2.modInbound h fun x => { x with
    written := x.written + 1, signal := x.signal || (h.last && h.signal), bad := w.1
    whole := x.whole || (decide (x.written + 1 = h.count) && (x.signal || (h.last && h.signal))) }
  let wide := s.inbound.any fun x => sameMsg h x && decide (x.written = h.count) && !x.mark && decide (h.typ = 1)
  { s with
    inbound := s.inbound.filter fun x => !(sameMsg h x && decide (x.written = h.count) && !x.whole && !x.mark)
    wideSeen := if wide then s.wideSeen ++ [(h.src, h.msg)] else s.wideSeen }

/-- The packet leaves the packets that wait. -/
def State.takePacket (s : State) (k : Packet) : State := { s with inbox := dropFirst (fun x => decide (x = k)) s.inbox }

/-- The DISCARD mark of a narrow message (R107, R108): its later packets are dropped, and the wide copy held for it is written. -/
def State.discardMark (s : State) (m : SlotIx) (h : Head) : State :=
  let mine := s.heldWide.filter fun k => decide ((headOf k.hdr).src = h.src) && decide ((headOf k.hdr).msg = h.msg)
  let s := { s with heldWide := s.heldWide.filter fun k => !(decide ((headOf k.hdr).src = h.src) && decide ((headOf k.hdr).msg = h.msg)) }
  let s := s.modInbound h fun x => { x with mark := true, narrow := false, written := 0, signal := false, whole := false }
  mine.foldl (fun s k => s.countPacket m k) s

/-- The message is known to be written wide, though no DISCARD mark of it has come (R108; log entry 92): a narrow packet of it is
of the copy that is discarded. -/
def State.wideFirst (s : State) (h : Head) : Bool :=
  s.wideSeen.contains (h.src, h.msg) || (s.inbound? h).any fun x => !x.narrow && !x.mark

/-- The DISCARD mark of a message whose wide copy came first (R108): no narrow packet of it is written any more. -/
def State.lateMark (s : State) (h : Head) : State :=
  { s with
    wideSeen := s.wideSeen.filter fun x => decide (x ≠ (h.src, h.msg))
    inbound := s.inbound.map fun x => if sameMsg h x then { x with mark := true } else x }

/-- NARROW_MESSAGE (R102, R107, R108): written as BF16, or dropped once the message carries a DISCARD mark. -/
def execNarrowMessage (k : Packet) (s : State) : Host.Outcome State Fault Refusal :=
  let h := headOf k.hdr
  let s1 := s.takePacket k
  match s.packetModel h with
  | none => done s s1
  | some m =>
    if (s.inbound? h).any fun x => x.mark then done s s1
    else if s.wideFirst h then done s (if h.discard then s1.lateMark h else s1)
    else if h.discard then done s (s1.discardMark m h)
    else done s (s1.countPacket m { k with hdr := Head.bits { h with typ := 0 } })

/-- WIDE_MESSAGE (R102, R108): Ploryn blocks expanded, or held while the narrow copy's mark has not arrived. -/
def execWideMessage (k : Packet) (s : State) : Host.Outcome State Fault Refusal :=
  let h := headOf k.hdr
  let s1 := s.takePacket k
  let k1 : Packet := { k with hdr := Head.bits { h with typ := 1 } }
  match s.packetModel h with
  | none => done s s1
  | some m =>
    if (s.inbound? h).any fun x => x.narrow && !x.mark then done s { s1 with heldWide := s1.heldWide ++ [k1] }
    else done s (s1.countPacket m k1)

/-- RAW_MESSAGE (R102): written byte for byte. -/
def execRawMessage (k : Packet) (s : State) : Host.Outcome State Fault Refusal :=
  let h := headOf k.hdr
  let s1 := s.takePacket k
  match s.packetModel h with
  | none => done s s1
  | some m => done s (s1.countPacket m { k with hdr := Head.bits { h with typ := 2 } })

/-! ## Carried signals (R13, R17, R299, R304, R305) -/

/-- A home's DENIED reaches this package, which sent the FILL (R17, R304): the sender sees DENIED, and the sending function gets an
event that names the destination package and the word. -/
def State.deniedBack (s : State) (h : Head) (w : BitVec 16) : State :=
  (s.syncResult syDenied 0).event (Fin.ofNat 16 h.tenant) 0x0C 4 [(0, 16, w.toNat), (32, 1, 1), (64, 16, h.dest.toNat)]

/-- A carried FILL is blocked at the word's home (R304, R305): counted, reported and, when it is the first, recorded. -/
def State.blockSignal (s : State) (h : Head) (w : BitVec 16) : State :=
  let t := wTenant (s.word w)
  let s := s.modSync fun y => { y with
    stat := bump y.stat 48 16 1
    blockLog := if bit y.blockLog 63 then y.blockLog else
      pack 64 [(63, 1, 1), (59, 4, h.tenant), (55, 4, t.val), (51, 4, adBoard h.src), (48, 3, adSlot h.src), (0, 16, w.toNat)] }
  let s := s.event 0 0x0C (homeUnit (wordHome w)) [(0, 16, w.toNat), (64, 16, h.src.toNat), (96, 4, h.tenant), (100, 4, t.val)]
  if h.src = s.address then s.deniedBack h w else { s with denials := s.denials ++ [h.bits] }

/-- The message whose last packet carries the signal is written whole (R13). -/
def State.signalDue (s : State) (h : Head) : Bool := (s.inbound? h).any fun x => x.whole

/-- CARRIED_FILL (R13, R299, R303, R304): the FILL on a message's last packet, once every packet is written; or, of a packet that
this package sent elsewhere, the DENIED that its home returns. -/
def execCarriedFill (p : PortIx) (k : Packet) (s : State) : Host.Outcome State Fault Refusal :=
  let h := headOf k.hdr
  if h.src = s.address ∧ h.dest ≠ s.address then done s (s.deniedBack h (BitVec.ofNat 16 h.word))
  else match s.packetModel h with
  | none => done s s
  | some m =>
    if !h.signal || !s.signalDue h then done s s
    else
      let s1 := s.modInbound h fun x => { x with whole := false, signal := false }
      let s1 := { s1 with inbound := s1.inbound.filter fun x => !(sameMsg h x && !x.mark) }
      let c : CohIx := Fin.ofNat 8 h.cohort
      match s.modelWord m c h.word with
      | none => done s s1
      | some w =>
        if (wTenant (s.word w)).val ≠ h.tenant then done s (s1.blockSignal h w)
        else done s (s1.arriveFill { word := w, v := BitVec.ofNat 48 h.value, model := m, cohort := c, port := p, tenant := wTenant (s.word w),
                                     limit := s.sync.hangLimit, hung := false })

/-! ## Relay (R232, R233) -/

/-- A page's code blocks, then its sidecars, of a layer (R159, R232). -/
def State.relayData (s : State) (m : SlotIx) (g : Geometry) (layer frame : Nat) : Bytes :=
  let ks := (List.range g.groupsP).flatMap fun grp => [(grp, 0), (grp, 1)]
  ks.flatMap (fun x => s.frameBytes m frame (codeAddr g layer x.1 x.2 0) (geoBlock g)) ++
    ks.flatMap fun x => s.frameBytes m frame (sideAddr g layer x.1 x.2 0) (256 * geoSc g)

/-- Sends one Relay block to the tile of the sequence's member 0 (R232). -/
def State.sendRelay (s : State) (m : SlotIx) (g : Geometry) (x : Span) (layer page frame : Nat) : State :=
  let d := s.relayData m g layer frame
  let s := s.relayMessage m x.home frame (toLE 64 (relayHeader x.handle page layer d.length).toNat ++ d)
  { s with relayStat := bump s.relayStat 40 24 1 }

/-- RELAY_PULL (R232): this member streams a Relay block for every page it holds for the model's sequences, in ascending page index. -/
def execRelayPull (model : SlotIx) (layer : BitVec 8) (s : State) : Host.Outcome State Fault Refusal :=
  match s.geometry? model with
  | none => done s s
  | some g =>
    let mine := s.spans.filter fun x => decide (x.model = model)
    done s ((mine.foldl (fun s x => (sortBy (fun (a b : Nat × Nat) => decide (a.1 < b.1)) x.pages).foldl
      (fun s y => s.sendRelay model g x layer.toNat y.1 y.2) s) s).cutLost)

/-- RELAY_BLOCK (R233): a block arrives on a tile; a Prism set that only waited for it runs. -/
def execRelayBlock (tile : TileIx) (header : BitVec 512) (data : Bytes) (s : State) : Host.Outcome State Fault Refusal :=
  let s1 := (s.takeType 3).modTile tile fun x => { x with relay := x.relay ++ [(header, data)] }
  done s (s1.cohorts.foldl (fun s k => s.tryPrism k.model k.index) s1)

end Sys2Proof.Machine
end

