-- ==== Sys2Proof/Machine/Entry.lean ====
section
/-!
DEFINITION. Sys2Proof/Machine/Entry.lean: the 64 bytes of a ring entry: which fields an opcode has, and the first check of R353
(R348 to R350, R168, R270, R309, R314, R330, R351, R378, R380, R384, R385, R388, R391).
-/
namespace Sys2Proof.Machine

/-- A field of an entry: its byte offset, lowest bit and width. -/
abbrev EField := Nat × Nat × Nat

/-- The value of a field of an entry. -/
def eField (e : Bytes) (f : EField) : Nat := bits (leAt e f.1 8) f.2.1 f.2.2

/-- An opcode of the request ring (R349). -/
def isRequest (op : Nat) : Bool := decide (1 ≤ op ∧ op ≤ 9)

/-- An opcode of the admin ring (R349). -/
def isAdmin (op : Nat) : Bool := decide (0x41 ≤ op ∧ op ≤ 0x52)

/-- A critical command (R349). -/
def isCritical (op : Nat) : Bool :=
  ([0x44, 0x45, 0x46, 0x47, 0x4A, 0x4B, 0x4D, 0x4E, 0x4F, 0x50, 0x52] : List Nat).contains op

/-- The opcode names a sequence by HANDLE (R348, R349). -/
def namesHandle (op : Nat) : Bool := decide (2 ≤ op ∧ op ≤ 9)

/-- The fields of a Loupe command's body, by its TARGET (R309, R391). -/
def loupeFields (op target : Nat) : List EField :=
  let buf : List EField := [(0x20, 0, 64), (0x28, 0, 32)]
  if target = 1 then [(0x10, 0, 8), (0x14, 0, 16), (0x18, 0, 9)] ++ buf
  else if target = 2 then [(0x10, 0, 8), (0x14, 0, 32), (0x18, 0, 32)] ++ buf
  else if target = 3 then
    (if op = 0x51 then [(0x10, 0, 10), (0x10, 16, 16), (0x14, 0, 16)] ++ buf
     else [(0x10, 0, 13), (0x10, 16, 16), (0x18, 0, 48)])
  else if target = 4 then [(0x10, 0, 10), (0x14, 0, 28)] ++ buf
  else [(0x10, 0, 8)]

/-- The body fields of an opcode; every other bit from 0x10 is reserved (R168, R270, R314, R330, R350, R351, R378, R380, R384, R385, R388). -/
def bodyFields (op : Nat) (e : Bytes) : List EField :=
  match op with
  | 0x01 => [(0x10, 0, 20), (0x18, 0, 64), (0x20, 0, 64), (0x28, 0, 7)]
  | 0x02 => [(0x10, 0, 22), (0x18, 0, 64)]
  | 0x03 => [(0x10, 0, 25), (0x18, 0, 64)]
  | 0x04 => [(0x10, 0, 21), (0x18, 0, 64), (0x20, 0, 64)]
  | 0x05 => [(0x10, 20, 1), (0x18, 0, 64), (0x20, 0, 64), (0x28, 0, 7)]
  | 0x06 => [(0x20, 0, 64)]
  | 0x07 => [(0x20, 0, 64)]
  | 0x41 => [(0x10, 0, 16), (0x18, 0, 64), (0x20, 0, 64)]
  | 0x42 => [(0x10, 0, 16), (0x14, 0, 16)]
  | 0x43 => [(0x10, 0, 16)]
  | 0x44 => [(0x10, 0, 16)]
  | 0x45 => [(0x10, 0, 12)]
  | 0x46 => [(0x10, 0, 4)]
  | 0x47 => [(0x10, 0, 5), (0x18, 0, 64)]
  | 0x48 => [(0x10, 0, 21), (0x14, 0, 24), (0x18, 0, 24), (0x1C, 0, 24), (0x20, 0, 20)]
  | 0x49 => [(0x10, 0, 2)]
  | 0x4A => [(0x10, 0, 1), (0x18, 0, 64)]
  | 0x4C => [(0x18, 0, 64), (0x20, 0, 32)]
  | 0x4E => [(0x10, 0, 20), (0x14, 0, 13), (0x18, 0, 16), (0x20, 0, 64)]
  | 0x4F => [(0x10, 0, 32), (0x14, 0, 1), (0x18, 0, 64)]
  | 0x50 => [(0x10, 0, 4)]
  | 0x51 => loupeFields 0x51 (eField e (0x10, 0, 8))
  | 0x52 => loupeFields 0x52 (eField e (0x10, 0, 8))
  | _ => []

/-- The entry's bits that are reserved for its opcode. -/
def reservedBits (op : Nat) (e : Bytes) : Nat :=
  let fs : List EField := [(0, 0, 9), (4, 0, 32)] ++ (if namesHandle op then [(8, 0, 32)] else []) ++ bodyFields op e
  fs.foldl (fun w f => w - bits w (8 * f.1 + f.2.1) f.2.2 * 2 ^ (8 * f.1 + f.2.1)) (leNat (e.take 64))

/-- The offset of the first 32-bit word with a bit set. -/
def firstWord (w : Nat) : Option Nat := ((List.range 16).find? fun i => decide (bits w (32 * i) 32 ≠ 0)).map (4 * ·)

/-- An address field that is not aligned. -/
def badAlign (e : Bytes) (off n : Nat) : List Nat := if leAt e off 8 % n ≠ 0 then [off] else []

/-- A field outside its range. -/
def badRange (e : Bytes) (f : EField) (lo hi : Nat) : List Nat :=
  let x := eField e f
  if x < lo ∨ hi < x then [f.1] else []

/-- Misaligned addresses and fields outside their ranges, by offset (R350 and the layouts of bodyFields). -/
def rangeFaults (op : Nat) (e : Bytes) : List Nat :=
  let slot := badRange e (0x10, 0, 16) 0 63
  let target := eField e (0x10, 0, 8)
  match op with
  | 0x01 => slot ++ badAlign e 0x18 64 ++ badAlign e 0x20 16 ++ badRange e (0x28, 0, 7) 0 64
  | 0x02 => badRange e (0x10, 0, 21) 1 1048576 ++ badAlign e 0x18 4
  | 0x03 => badRange e (0x10, 0, 25) 1 16777216
  | 0x04 => badRange e (0x10, 0, 21) 1 1048576 ++ badAlign e 0x18 4
  | 0x05 =>
    badAlign e 0x18 64 ++
      (if eField e (0x10, 20, 1) = 1 then badRange e (0x20, 0, 64) 0 0 ++ badRange e (0x28, 0, 7) 0 0
       else badAlign e 0x20 16 ++ badRange e (0x28, 0, 7) 0 64)
  | 0x41 => slot ++ badAlign e 0x18 4096
  | 0x42 => slot
  | 0x43 => slot
  | 0x44 => slot
  | 0x45 => badRange e (0x10, 4, 2) 0 2
  | 0x47 => badAlign e 0x18 64
  | 0x48 => slot ++ (if eField e (0x10, 20, 1) = 1 then
      (if eField e (0x14, 0, 24) % 4 ≠ 0 then [0x14] else []) ++ badRange e (0x20, 0, 20) 1 262144 else [])
  | 0x49 => badRange e (0x10, 0, 2) 0 2
  | 0x4E => badRange e (0x10, 0, 16) 0 65534 ++ badAlign e 0x20 64
  | 0x4F => badAlign e 0x18 4096
  | 0x51 => badRange e (0x10, 0, 8) 1 4 ++ (if target = 3 then badRange e (0x10, 8, 2) 0 2 ++ badRange e (0x14, 0, 16) 1 4096 else []) ++
      (if target = 4 then badAlign e 0x14 64 ++ badRange e (0x28, 0, 32) 64 1048576 else []) ++ badAlign e 0x20 64
  | 0x52 => badRange e (0x10, 0, 8) 3 4 ++
      (if target = 3 then badRange e (0x10, 8, 2) 0 0 ++ badRange e (0x10, 10, 3) 1 3 else []) ++
      (if target = 4 then badAlign e 0x14 64 ++ badRange e (0x28, 0, 32) 64 1048576 ++ badAlign e 0x20 64 else [])
  | _ => []

/-- The first check of R353 on an entry of a ring, and on its seal: DETAIL of the first fault. -/
def entryFault (admin : Bool) (e sealEntry : Bytes) : Option Nat :=
  let op := eField e (0, 0, 8)
  let sealed := eField e (0, 8, 1) = 1
  if (if admin then !isAdmin op else !isRequest op) then some 0
  else if sealed ∧ !isCritical op then some 0
  else
    let faults := (match firstWord (reservedBits op e) with | some o => [o] | none => []) ++ rangeFaults op e
    match sortNats faults with
    | o :: _ => some o
    | [] =>
      if sealed then ((List.range 6).find? fun i => decide (leAt sealEntry (0x28 + 4 * i) 4 ≠ 0)).map fun i => 64 + 0x28 + 4 * i
      else none

/-- The entry names buffers that the hub copies before it runs (R345, R373). -/
def namesBuffers (op : Nat) (e : Bytes) : Bool :=
  (decide (1 ≤ op ∧ op ≤ 7)) || decide (op = 0x47) || (decide (op = 0x4E) && decide (eField e (0x14, 0, 8) ≠ 0)) ||
    (decide (op = 0x4F) && decide (eField e (0x14, 0, 1) = 1)) || (decide (op = 0x52) && decide (eField e (0x10, 0, 8) = 4))

end Sys2Proof.Machine
end

