-- ==== Sys2Proof/Machine/Rings.lean ====
section
/-!
DEFINITION. Sys2Proof/Machine/Rings.lean: doorbells, the taking of ring entries with the first checks of R353, seals, interrupt
coalescing and the enabling of rings (R342 to R348, R353, R357, R373 to R376).
-/
namespace Sys2Proof.Machine

/-! ## Doorbells (R343, R344, R394) -/

/-- DOORBELL_WRITE (R343, R394): a write to a function's doorbell page. -/
def execDoorbellWrite (fn : Fn) (offset : BitVec 12) (bytes : Nat) (value : BitVec 32) (s : State) : Host.Outcome State Fault Refusal :=
  let o := offset.toNat
  let k : SetIx := Fin.ofNat 4 (o / 64)
  let n := o % 64 / 8
  if !s.isReady then done s (s.modBoot fun b => { b with dropped := satInc b.dropped })
  else if !s.fns[fn].present || s.fns[fn].disabling then done s s
  else if o < 256 ∧ o % 8 = 0 ∧ bytes = 4 then
    if hn : n < 5 then
      let r := s.ring fn k ⟨n, hn⟩
      if r.enable && decide (value.toNat < r.size) then
        let s1 := s.modRing fn k ⟨n, hn⟩ fun r => { r with doorbell := value.extractLsb' 0 16 }
        done s (if 2 ≤ n then s1.flushHeld fn else s1)
      else done s (s.dbErr fn)
    else done s (s.dbErr fn)
  else done s (s.dbErr fn)

/-! ## Seals (R373 to R376) -/

/-- A critical command of the package is in progress (R376). -/
def State.criticalOpen (s : State) : Bool := s.fns.toList.any fun f => f.openReqs.any fun o => o.admin && isCritical o.opcode.toNat

/-- The key a seal is checked under (R373, R380): the issuer's, or the one carried when the target of a KEY_INSTALL has none. -/
def State.sealKey (s : State) (fn : Fn) (op : Nat) (f : Fetch) : Option (BitVec 256) :=
  let target : Fn := Fin.ofNat 16 (eField f.entry (0x10, 0, 4))
  let kind := decide (eField f.entry (0x10, 4, 1) = 1)
  if op = 0x47 && !kind && (s.um.cmdKey[target]).isNone then s.unwrapKey f.bufs target false else s.um.cmdKey[fn]

/-- The MAC of a seal (R373). -/
def State.sealMac (s : State) (fn : Fn) (key : BitVec 256) (f : Fetch) : Bytes :=
  (hmac512 (toLE 32 key.toNat)
    (f.entry.take 64 ++ f.sealEntry.take 8 ++ toLE 4 s.boot.device.toNat ++ [BitVec.ofNat 8 fn.val] ++ f.bufs)).take 32

/-- The seal passes (R374). -/
def State.sealOk (s : State) (fn : Fn) (op : Nat) (f : Fetch) : Bool :=
  match s.sealKey fn op f with
  | some k => decide (leAt f.sealEntry 0 8 = s.um.next[fn].toNat) && decide ((f.sealEntry.drop 8).take 32 = s.sealMac fn k f)
  | none => false

/-- NEXT advances for a seal that passed, the stored ceiling first when it is reached (R374, R375). -/
def State.sealPassed (s : State) (fn : Fn) : State :=
  s.modUm fun u => { u with
    ceiling := if u.next[fn] = u.ceiling[fn] then u.ceiling.set fn (u.ceiling[fn] + 256) else u.ceiling
    next := u.next.set fn (u.next[fn] + 1) }

/-- A failed seal is counted, and the eighth within one second locks the function (R374, R377). -/
def State.sealFailed (s : State) (fn : Fn) : State :=
  s.modFn fn fun x =>
    let times := (x.failTimes.filter fun t => decide (s.now.toNat - t.toNat < oneSecond)) ++ [s.now]
    { x with sealFails := satInc x.sealFails, failTimes := times, locked := x.locked || decide (8 ≤ times.length) }

/-- SEAL_LOCK_EXPIRY (R374): the second of a locked function is over. -/
def execSealLockExpiry (fn : Fn) (s : State) : Host.Outcome State Fault Refusal :=
  done s (s.modFn fn fun x => { x with locked := false, failTimes := [] })

/-- The keyed check of a critical command (R353 step 3, R374, R380): the status that refuses it, and the state with its counters. -/
def State.checkSeal (s : State) (e : Sub) (op : Nat) (f : Fetch) : Option (BitVec 8) × State :=
  let target : Fn := Fin.ofNat 16 (eField f.entry (0x10, 0, 4))
  let kind := decide (eField f.entry (0x10, 4, 1) = 1)
  if !isCritical op then (none, s)
  else if eField f.entry (0, 8, 1) = 0 then (some 0x1A, s)
  else if s.fns[e.fn].locked then (some 0x1A, s)
  else if op = 0x47 && (s.unwrapKey f.bufs target kind).isNone then (some 0x1A, s)
  else if s.sealOk e.fn op f then (none, s.sealPassed e.fn)
  else (some 0x1A, s.sealFailed e.fn)

/-! ## Taking an entry (R345 to R348, R353) -/

/-- An entry that a check refuses completes at once (R353, R354). -/
def State.refuseEntry (s : State) (o : OpenReq) (status : BitVec 8) (detail : Nat) : State :=
  let pos := match s.seq? (.own o.handle) with
    | some q => if !o.admin && decide (handleFn o.handle = o.sub.fn) then q.highest else 0
    | none => 0
  s.completeFull o.sub o.admin o.opcode status (if o.admin then 0 else o.handle) pos 0 (BitVec.ofNat 64 detail)

/-- The hub may take an entry from the ring now (R344 to R347, R362). -/
def State.mayTake (s : State) (fn : Fn) (set : SetIx) (admin : Bool) : Bool :=
  let r := s.ring fn set (if admin then 0 else 1)
  let x := s.fns[fn]
  s.isReady && x.enabled && !x.disabling && x.bme && r.enable && !r.halted && decide (0 < r.untaken) &&
    decide (0 < (s.ring fn set 2).unreserved) &&
    !(admin && x.openReqs.any fun o => o.admin && decide (o.sub.set = set))

/-- The first checks of a taken entry (R353 steps 1 to 4); the opcode's own row runs the rest. -/
def State.checkEntry (s : State) (o : OpenReq) (f : Fetch) : State :=
  let op := o.opcode.toNat
  match entryFault o.admin f.entry f.sealEntry with
  | some d => s.refuseEntry o 0x2E d
  | none =>
    if namesBuffers op f.entry && !f.copiesOk then (s.logHostRead o.sub.fn 0xFF).refuseEntry o 0x2F 0
    else
      let c := s.checkSeal o.sub op f
      match c.1 with
      | some st => c.2.refuseEntry o st 0
      | none => if !o.admin && (s.tenant? o.sub.fn).isNone then c.2.refuseEntry o 0x1C 0 else c.2

/-- TAKE_ENTRY (R345 to R348, R353, R376): the hub takes the entry at INDEX, with its seal entry for a sealed critical command. -/
def execTakeEntry (fn : Fn) (set : SetIx) (admin : Bool) (f : Fetch) (s : State) : Host.Outcome State Fault Refusal :=
  let n : RingIx := if admin then 0 else 1
  if !s.mayTake fn set admin then done s s
  else if !f.ok then
    done s ((s.modRing fn set n fun r => { r with fault := true, halted := true }).logError 0x0E 7 4 fn.val (8 * set.val + n.val) 0xFF 0)
  else
    let op := eField f.entry (0, 0, 8)
    let sealed := admin && isCritical op && decide (eField f.entry (0, 8, 1) = 1)
    if (sealed && decide ((s.ring fn set n).untaken < 2)) || (admin && isCritical op && s.criticalOpen) then done s s
    else
      let o : OpenReq := { sub := { fn := fn, set := set, tag := BitVec.ofNat 32 (leAt f.entry 4 4) }, admin := admin,
                           opcode := BitVec.ofNat 8 op, handle := if admin then 0 else BitVec.ofNat 32 (leAt f.entry 8 4) }
      let s1 := s.modRing fn set n fun r => { r with index := if sealed then r.succ (r.succ r.index) else r.succ r.index }
      let s1 := s1.modRing fn set 2 fun r => { r with reserved := r.reserved + 1 }
      let s1 := s1.modFn fn fun x => { x with openReqs := x.openReqs ++ [o] }
      done s (s1.checkEntry o f)

/-! ## Interrupts and ring control (R342, R347, R357) -/

/-- IRQ_COALESCE_TIMER (R357): COAL_US has passed since the oldest unsignalled record. -/
def execIrqCoalesceTimer (fn : Fn) (set : SetIx) (ring : RingIx) (s : State) : Host.Outcome State Fault Refusal :=
  let r := s.ring fn set ring
  if r.irqEn ∧ 0 < r.unsignalled ∧ 2 ≤ ring.val then
    done s ((s.modRing fn set ring fun r => { r with unsignalled := 0 }).post (.msix fn r.vector))
  else done s s

/-- RING_ENABLE (R342, R420): a 64-bit write of RING_CTL by the function. -/
def execRingEnable (fn : Fn) (set : SetIx) (ring : RingIx) (value : BitVec 64) (s : State) : Host.Outcome State Fault Refusal :=
  done s (s.ownWrite fn (s.writeRingCtl fn set ring 0 64 (setBit value 0)))

/-- RING_DISABLE (R342, R420): a 64-bit write of RING_CTL by the function, with ENABLE clear. -/
def execRingDisable (fn : Fn) (set : SetIx) (ring : RingIx) (value : BitVec 64) (s : State) : Host.Outcome State Fault Refusal :=
  done s (s.ownWrite fn (s.writeRingCtl fn set ring 0 64 (clrBit value 0)))

end Sys2Proof.Machine
end

