-- ==== Sys2Proof/Machine/Scrub.lean ====
section
/-!
DEFINITION. Sys2Proof/Machine/Scrub.lean: the patrol scrubber and the re-reading of damaged tiles (R254 to R257, R281).
-/
namespace Sys2Proof.Machine

/-- One clock hour of the local time counter (R257, R396). -/
def oneHour : Nat := 3600 * oneSecond

/-- The tile of a stack and the stack's place there (R253). -/
def stackTile (x : Fin 8) : TileIx := Fin.ofNat 4 (x.val / 2)

/-- DRAM_ECC_STAT of a stack. -/
def State.modEcc (s : State) (x : Fin 8) (g : BitVec 64 → BitVec 64) : State :=
  s.modTile (stackTile x) fun t => { t with eccStat := vmod t.eccStat (Fin.ofNat 2 x.val) g }

/-- A corrected codeword is counted; ECC_RATE follows once an hour (R254, R257). -/
def State.corrected (s : State) (x : Fin 8) : State :=
  let s := s.modEcc x fun w => bump w 16 32 1
  let hour := BitVec.ofNat 64 (s.now.toNat / oneHour)
  let h := s.tiles[stackTile x].eccHour[Fin.ofNat 2 x.val]
  let h := if h.1 = hour then (hour, h.2.1 + 1, h.2.2) else (hour, 1, false)
  let due := !h.2.2 && decide (s.rateLimit ≠ 0) && decide (s.rateLimit.toNat < h.2.1)
  let s := s.modTile (stackTile x) fun t => { t with eccHour := vmod t.eccHour (Fin.ofNat 2 x.val) fun _ => (h.1, h.2.1, h.2.2 || due) }
  if due then s.event 0 0x0E (stackTile x).val [(0, 3, x.val), (32, 32, h.2.1)] else s

/-- An uncorrectable codeword is counted. -/
def State.uncorrectable (s : State) (x : Fin 8) : State := s.modEcc x fun w => bump w 48 16 1

/-- What the scrubber does with an uncorrectable codeword (R256). A tile or section that is read again from flash follows as
TILE_REREAD; a codeword of free space is rewritten with zeros. -/
def State.scrubbed (s : State) (x : Fin 8) (d : DramData) : State :=
  let t := (stackTile x).val
  match d with
  | .weightTile m _ l => s.logError 0x02 t 3 0 x.val m.val l
  | .windowSlot m _ l => s.logError 0x02 t 3 0 x.val m.val l
  | .otherSection m _ => s.logError 0x02 t 3 0 x.val m.val 0
  | .pageFrame m f => s.modPool m fun p => { p with marked := if p.marked.contains f ∨ p.free.contains f then p.marked else p.marked ++ [f] }
  | .pageList h => match s.seq? h with
    | some q => (s.modSeq h fun q => { q with listBad := true }).logError 0x02 t 1 h.fn.val x.val q.model.val 0
    | none => s
  | .summary m f l g =>
    let s := s.modPool m fun p => { p with
      summaries := p.summaries.filter fun y => !(decide (y.frame = f) && decide (y.layer = l) && decide (y.group = g)) }
    { s with seqs := s.seqs.map fun q =>
        if q.model = m then { q with pages := q.pages.map fun e => if !peSwapped e && decide (peFrame e = f) then clrBit e 27 else e } else q }
  | .freeSpace => s.logError 0x02 t 5 0 x.val 0xFF 0

/-- The code reports a codeword with three symbols in error as uncorrectable; with more than three it usually does, and whether it does
is a free value (R254; log entry 131). -/
def State.reported (s : State) (errs : Nat) : Bool × State :=
  if errs ≤ 3 then (true, s) else let a := s.draw; (decide (a.1 % 2 = 0), a.2)

/-- SCRUB_READ (R254 to R257): the scrubber reads a codeword with some symbols in error: up to two are corrected, three are
uncorrectable. -/
def execScrubRead (stack : Fin 8) (errs : Nat) (data : DramData) (passDone : Bool) (s : State) : Host.Outcome State Fault Refusal :=
  let s1 := if errs = 0 then s else if errs ≤ 2 then s.corrected stack
    else
      let r := s.reported errs
      if r.1 then (r.2.uncorrectable stack).scrubbed stack data else r.2
  done s (if passDone then s1.modEcc stack fun w => bump w 0 16 1 else s1)

/-- TILE_REREAD (R256, R281): a damaged tile or section was read again from flash. When a consumer's read found the damage, its
requests end at the boundary with FAULT_MEM_UNCORRECTABLE; when the flash copy fails too, R281 applies. -/
def execTileReread (model : SlotIx) (sec unit : Nat) (found : Option (CohIx × BitVec 32 × Fin 8)) (ok : Bool) (s : State) :
    Host.Outcome State Fault Refusal :=
  let layer := s.secLayer model sec
  let s1 := match found with
    | some (c, mask, x) => match s.cohort? model c with
      | some k => (s.uncorrectable x).endRows k mask 0x14 (s.faultDetail model layer sec) 0x02 (stackTile x).val 1 x.val layer
      | none => s.uncorrectable x
    | none => s
  done s (if ok then s1 else s1.quarantineUnit model sec unit)

end Sys2Proof.Machine
end

