-- ==== Sys2Proof/Machine/Sideband.lean ====
section
/-!
DEFINITION. Sys2Proof/Machine/Sideband.lean: the sideband port, Umathal as SPDM responder, and the test port (R337, R369 to R371, R439,
R440).
-/
namespace Sys2Proof.Machine

/-- I3C_ADDRESS_ASSIGN (R439): SETDASA or ENTDAA gives the sideband port its dynamic address. -/
def execI3cAddressAssign (addr : BitVec 7) (s : State) : Host.Outcome State Fault Refusal :=
  done s (if s.pins.powered then { s with side := { s.side with i3c := some addr } } else s)

/-! ## SPDM (R369 to R371) -/

/-- The state with the responder replaced by g of it. -/
def State.modSpdm (s : State) (g : Spdm → Spdm) : State := { s with spdm := g s.spdm }

/-- The responder sends a response. -/
def State.answer (s : State) (t : Transport) (r : SpdmOut) : State := s.modSpdm fun x => { x with out := x.out ++ [(t, r)] }

/-- Which of the responder's two transports (R370). -/
def transportIx (t : Transport) : Fin 2 := match t with | .mctp => 0 | .doe => 1

/-- A transport reaches Umathal (R370, R397): MCTP while the always-on domain runs, DOE while the PCIe link is up as well. -/
def State.reaches (s : State) (t : Transport) : Bool :=
  s.pins.powered && match t with | .mctp => true | .doe => s.pins.pcieUp

/-- The negotiation of a transport has got so far (R370): 1 version, 2 capabilities, 3 algorithms. -/
def State.phaseOf (s : State) (t : Transport) : Nat := s.spdm.phase[(transportIx t)]

/-- A request of the negotiation: answered, with the phase it leaves, or answered with an error when it comes too early. -/
def State.negotiate (s : State) (t : Transport) (need next : Nat) (r : SpdmOut) : State :=
  if !s.reaches t then s
  else if s.phaseOf t < need then s.answer t .error
  else (s.modSpdm fun x => { x with phase := x.phase.set (transportIx t) next }).answer t r

/-- A request that the negotiation must precede. -/
def State.respond (s : State) (t : Transport) (r : SpdmOut) : State := s.negotiate t 3 3 r

/-- GET_VERSION (R370). -/
def execGetVersion (t : Transport) (s : State) : Host.Outcome State Fault Refusal := done s (s.negotiate t 0 1 .version)

/-- GET_CAPABILITIES (R370). -/
def execGetCapabilities (t : Transport) (s : State) : Host.Outcome State Fault Refusal := done s (s.negotiate t 1 2 .capabilities)

/-- NEGOTIATE_ALGORITHMS (R370): the responder supports one set of algorithms. -/
def execNegotiateAlgorithms (t : Transport) (supported : Bool) (s : State) : Host.Outcome State Fault Refusal :=
  done s (if supported then s.negotiate t 2 3 .algorithms else s.negotiate t 2 2 .error)

/-- GET_DIGESTS (R369, R370): slot 0 holds the chain. -/
def execGetDigests (t : Transport) (s : State) : Host.Outcome State Fault Refusal := done s (s.respond t (.digests 0x01))

/-- GET_CERTIFICATE (R369): slots 1 to 7 are empty. -/
def execGetCertificate (t : Transport) (slot : BitVec 3) (offset length : BitVec 16) (s : State) : Host.Outcome State Fault Refusal :=
  done s (s.respond t (if slot = 0 then .certificate slot offset length else .error))

/-- CHALLENGE (R369, R370). -/
def execChallenge (t : Transport) (slot : BitVec 3) (nonce : BitVec 256) (s : State) : Host.Outcome State Fault Refusal :=
  done s (s.respond t (if slot = 0 then .challengeAuth slot nonce else .error))

/-- The content of a measurement block (R371); none for an index the table does not list. Digests of contents the spec gives no
bytes for are drawn (log entry 41). -/
def State.measurement (s : State) (index : Nat) : Option (Bytes × State) :=
  let bank := s.um.banks[Fin.ofNat 2 (b2n s.um.activeBank)]
  let version := match bank with | some b => b.version.toNat | none => 0
  if index = 1 then some (toLE 64 Config.romDigest.toNat, s)
  else if index = 2 then some (match bank with | some b => toLE 64 b.digest.toNat | none => List.replicate 64 0, s)
  else if index = 3 then some (toLE 4 version ++ toLE 4 s.um.activeSvn ++ toLE 4 s.um.fusedSvn, s)
  else if index = 4 then some (s.freeBytes 64)
  else if index = 5 then some (toLE 8 s.um.loupeSets.toNat, s)
  else if h : 0x10 ≤ index ∧ index < 0x50 then
    if s.models[(⟨index - 0x10, by omega⟩ : SlotIx)].state = .empty then some (List.replicate 64 0, s) else some (s.freeBytes 64)
  else none

/-- GET_MEASUREMENTS (R371). -/
def execGetMeasurements (t : Transport) (index : BitVec 8) (s : State) : Host.Outcome State Fault Refusal :=
  done s (match s.measurement index.toNat with
    | some (b, s') => s'.respond t (.measurements index b)
    | none => s.respond t .error)

/-- KEY_EXCHANGE (R370): a session is opened while fewer than four are. -/
def execKeyExchange (t : Transport) (reqId : BitVec 16) (s : State) : Host.Outcome State Fault Refusal :=
  if s.reaches t && decide (3 ≤ s.phaseOf t) && decide (s.spdm.sessions.length < 4) then
    let id : BitVec 32 := BitVec.ofNat 32 (reqId.toNat + 65536 * s.spdm.nextId)
    let s1 := s.modSpdm fun x => { x with
      nextId := x.nextId + 1, sessions := x.sessions ++ [{ id := id, transport := t, established := false, keyUpdates := 0 }] }
    done s (s1.answer t (.keyExchangeRsp id))
  else done s (s.respond t .error)

/-- The open session of an identifier. -/
def State.session? (s : State) (id : BitVec 32) : Option Session := s.spdm.sessions.find? fun x => decide (x.id = id)

/-- A message of an established session: its effect and answer. A session that is not established answers with an error, and one
that is not open answers nothing. -/
def State.inSession (s : State) (id : BitVec 32) (g : Session → State) : State :=
  match s.session? id with
  | some x => if !s.reaches x.transport then s else if x.established then g x else s.answer x.transport .error
  | none => s

/-- The session of an identifier replaced by g of it. -/
def State.modSession (s : State) (id : BitVec 32) (g : Session → Session) : State :=
  s.modSpdm fun x => { x with sessions := updFirst (fun y => decide (y.id = id)) g x.sessions }

/-- The session of an identifier ends (R370). -/
def State.dropSession (s : State) (id : BitVec 32) : State :=
  s.modSpdm fun x => { x with sessions := x.sessions.filter fun y => !decide (y.id = id) }

/-- FINISH (R370): a session whose verify data is right is established; another ends. -/
def execFinish (session : BitVec 32) (macOk : Bool) (s : State) : Host.Outcome State Fault Refusal :=
  done s (match s.session? session with
    | some x =>
      if !s.reaches x.transport then s
      else if x.established then s.answer x.transport .error
      else if macOk then (s.modSession session fun y => { y with established := true }).answer x.transport (.finishRsp session)
      else (s.dropSession session).answer x.transport .error
    | none => s)

/-- HEARTBEAT (R370). -/
def execHeartbeat (session : BitVec 32) (s : State) : Host.Outcome State Fault Refusal :=
  done s (s.inSession session fun x => s.answer x.transport (.heartbeatAck session))

/-- KEY_UPDATE (R370). -/
def execKeyUpdate (session : BitVec 32) (s : State) : Host.Outcome State Fault Refusal :=
  done s (s.inSession session fun x =>
    (s.modSession session fun y => { y with keyUpdates := y.keyUpdates + 1 }).answer x.transport (.keyUpdateAck session))

/-- END_SESSION (R364, R370). -/
def execEndSession (session : BitVec 32) (s : State) : Host.Outcome State Fault Refusal :=
  done s (s.inSession session fun x => (s.dropSession session).answer x.transport (.endSessionAck session))

/-- IDE_KM (R337, R364, R370): the key of a stream, over a session through DOE. -/
def execIdeKm (session : BitVec 32) (stream : BitVec 8) (key : BitVec 256) (s : State) : Host.Outcome State Fault Refusal :=
  done s (s.inSession session fun x =>
    if x.transport = .doe then
      (s.modSpdm fun y => { y with ideKeys := sput 0 y.ideKeys stream.toNat key }).answer .doe (.vendorDefined session)
    else s.answer x.transport .error)

/-! ## The test port (R440) -/

/-- The test port is out of reset and runs an instruction: its code, what its data register holds, and whether the pins are under
test. A command on the port comes with TRST_N high (log entry 75). -/
def State.jtag (s : State) (ir : BitVec 2) (dr : BitVec 1024) (underTest : Bool) : State :=
  if s.pins.rails.getLsbD 1 then
    { s with side := { s.side with jtagIr := ir, jtagDr := dr, jtagPins := underTest }, pins := { s.pins with trstN := true } }
  else s

/-- JTAG_BYPASS (R440): one bit between TDI and TDO. -/
def execJtagBypass (tdi : BitVec 1) (s : State) : Host.Outcome State Fault Refusal := done s (s.jtag 0 (tdi.setWidth 1024) false)

/-- JTAG_IDCODE (R440). -/
def execJtagIdcode (s : State) : Host.Outcome State Fault Refusal := done s (s.jtag 1 0xBB80861F false)

/-- The update values of the boundary register (R440). -/
def State.jtagLoad (s : State) (update : BitVec 1024) : State :=
  if s.pins.rails.getLsbD 1 then { s with side := { s.side with jtagUpdate := update } } else s

/-- JTAG_SAMPLE_PRELOAD (R440): the pins are captured and the update values loaded. -/
def execJtagSamplePreload (pins update : BitVec 1024) (s : State) : Host.Outcome State Fault Refusal :=
  done s ((s.jtag 2 pins false).jtagLoad update)

/-- JTAG_EXTEST (R440): it takes effect only while RESET_N and PERST_N are both low, and acts as BYPASS otherwise. -/
def execJtagExtest (pins update : BitVec 1024) (s : State) : Host.Outcome State Fault Refusal :=
  done s (if !s.pins.resetN && !s.pins.perstN then (s.jtag 3 pins true).jtagLoad update else s.jtag 0 0 false)

/-- TRST_N low (R438, R440): the test port is held in reset. -/
def execTrstN (s : State) : Host.Outcome State Fault Refusal :=
  let r : Ports4 := {}
  done s { s with side := { r with i3c := s.side.i3c }, pins := { s.pins with trstN := false } }

end Sys2Proof.Machine
end

