-- ==== Sys2Proof/Machine/Dispatch.lean ====
section
/-!
DEFINITION. Sys2Proof/Machine/Dispatch.lean: the meaning of each command, one arm per constructor.
-/
namespace Sys2Proof.Machine

def exec (i : Instr) (s : State) : Host.Outcome State Fault Refusal :=
  match i with
  | .admitSeq e model traffic emitSet policy bias abias peersOk => Sys2Proof.Machine.execAdmit e model traffic emitSet policy bias abias peersOk s
  | .ingest e handle fin tokens => Sys2Proof.Machine.execIngest e handle fin tokens s
  | .importKv e handle positions bufs peersOk => Sys2Proof.Machine.execImportKv e handle positions bufs peersOk s
  | .importComplete handle readOk data => Sys2Proof.Machine.execImportComplete handle readOk data s
  | .extend e handle tokens swap peersOk => Sys2Proof.Machine.execExtend e handle tokens swap peersOk s
  | .setPolicy e handle keep policy bias abias => Sys2Proof.Machine.execSetPolicy e handle keep policy bias abias s
  | .preempt e handle swap => Sys2Proof.Machine.execPreempt e handle swap s
  | .resume e handle swap peersOk => Sys2Proof.Machine.execResume e handle swap peersOk s
  | .cancel e handle => Sys2Proof.Machine.execCancel e handle s
  | .release e handle => Sys2Proof.Machine.execRelease e handle s
  | .modelInstall e model imageLen readOk img key => Sys2Proof.Machine.execModelInstall e model imageLen readOk img key s
  | .installCommit model => Sys2Proof.Machine.execInstallCommit model s
  | .modelLoad e model sliceId key => Sys2Proof.Machine.execModelLoad e model sliceId key s
  | .loadComplete model lost => Sys2Proof.Machine.execLoadComplete model lost s
  | .modelUnload e model => Sys2Proof.Machine.execModelUnload e model s
  | .modelErase e model => Sys2Proof.Machine.execModelErase e model s
  | .tenantCreate e fn pfx classMap relayEn loupeAllow swapKey prefixKey => Sys2Proof.Machine.execTenantCreate e fn pfx classMap relayEn loupeAllow swapKey prefixKey s
  | .tenantDestroy e fn => Sys2Proof.Machine.execTenantDestroy e fn s
  | .keyInstall e fn kind wrapped => Sys2Proof.Machine.execKeyInstall e fn kind wrapped s
  | .pagePoolSet e model fn setPool frames lowWater limit maxSeq => Sys2Proof.Machine.execPagePoolSet e model fn setPool frames lowWater limit maxSeq s
  | .configStage e loupeMode => Sys2Proof.Machine.execConfigStage e loupeMode s
  | .configCommit e digest => Sys2Proof.Machine.execConfigCommit e digest s
  | .configConfirm e => Sys2Proof.Machine.execConfigConfirm e s
  | .configRevert e => Sys2Proof.Machine.execConfigRevert e s
  | .fwStage e readOk img => Sys2Proof.Machine.execFwStage e readOk img s
  | .fwActivate e accepted => Sys2Proof.Machine.execFwActivate e accepted s
  | .sliceDefine e sliceId fn members ringLen relaySpan listAddr list => Sys2Proof.Machine.execSliceDefine e sliceId fn members ringLen relaySpan listAddr list s
  | .sliceRemove e sliceId fn => Sys2Proof.Machine.execSliceRemove e sliceId fn s
  | .sliceAgreementTimeout sliceId => Sys2Proof.Machine.execSliceAgreementTimeout sliceId s
  | .routeLoad e rackId slotMask boardMask uplink reserved table => Sys2Proof.Machine.execRouteLoad e rackId slotMask boardMask uplink reserved table s
  | .funcReset e fn => Sys2Proof.Machine.execFuncReset e fn s
  | .loupeRead e body => Sys2Proof.Machine.execLoupeRead e body s
  | .loupeSetFill e word value => Sys2Proof.Machine.execLoupeSetFill e word value s
  | .loupeSetClear e word => Sys2Proof.Machine.execLoupeSetClear e word s
  | .loupeSetPoison e word => Sys2Proof.Machine.execLoupeSetPoison e word s
  | .loupeSetScratch e tile offset data => Sys2Proof.Machine.execLoupeSetScratch e tile offset data s
  | .doorbellWrite fn offset bytes value => Sys2Proof.Machine.execDoorbellWrite fn offset bytes value s
  | .takeEntry fn set admin f => Sys2Proof.Machine.execTakeEntry fn set admin f s
  | .sealLockExpiry fn => Sys2Proof.Machine.execSealLockExpiry fn s
  | .irqCoalesceTimer fn set ring => Sys2Proof.Machine.execIrqCoalesceTimer fn set ring s
  | .ringEnable fn set ring value => Sys2Proof.Machine.execRingEnable fn set ring value s
  | .ringDisable fn set ring value => Sys2Proof.Machine.execRingDisable fn set ring value s
  | .registerWrite viewer offset bytes value => Sys2Proof.Machine.execRegisterWrite viewer offset bytes value s
  | .clearingRead viewer offset bytes => Sys2Proof.Machine.execClearingRead viewer offset bytes s
  | .kvLayerSelect tile value => Sys2Proof.Machine.execKvLayerSelect tile value s
  | .localTimeRead viewer bytes high => Sys2Proof.Machine.execLocalTimeRead viewer bytes high s
  | .errLogRead n high => Sys2Proof.Machine.execErrLogRead n high s
  | .pldmCapSet watts => Sys2Proof.Machine.execPldmCapSet watts s
  | .bmeClear fn => Sys2Proof.Machine.execBmeClear fn s
  | .bmeSet fn => Sys2Proof.Machine.execBmeSet fn s
  | .flr fn => Sys2Proof.Machine.execFlr fn s
  | .vfEnableClear => Sys2Proof.Machine.execVfEnableClear s
  | .disableTimeout fn => Sys2Proof.Machine.execDisableTimeout fn s
  | .dlDown => Sys2Proof.Machine.execDlDown s
  | .dlUp => Sys2Proof.Machine.execDlUp s
  | .perstN => Sys2Proof.Machine.execPerstN s
  | .resetN => Sys2Proof.Machine.execResetN s
  | .aon slotId boardId => Sys2Proof.Machine.execAon slotId boardId s
  | .secureBoot secretBlank keys => Sys2Proof.Machine.execSecureBoot secretBlank keys s
  | .dramTrain failPc uncorrectable chans targets catalogueOk => Sys2Proof.Machine.execDramTrain failPc uncorrectable chans targets catalogueOk s
  | .linkTrain reports => Sys2Proof.Machine.execLinkTrain reports s
  | .linkTrainTimeout => Sys2Proof.Machine.execLinkTrainTimeout s
  | .ready => Sys2Proof.Machine.execReady s
  | .portTrain p r => Sys2Proof.Machine.execPortTrain p r s
  | .discoveryRecord p d => Sys2Proof.Machine.execDiscoveryRecord p d s
  | .portRetryTimer reports => Sys2Proof.Machine.execPortRetryTimer reports s
  | .portRetrain p r => Sys2Proof.Machine.execPortRetrain p r s
  | .portDown p => Sys2Proof.Machine.execPortDown p s
  | .malnyFrame p f => Sys2Proof.Machine.execMalnyFrame p f s
  | .linkIdleTimer p => Sys2Proof.Machine.execLinkIdleTimer p s
  | .transitSend p elapsed => Sys2Proof.Machine.execTransitSend p elapsed s
  | .narrowMessage k => Sys2Proof.Machine.execNarrowMessage k s
  | .wideMessage k => Sys2Proof.Machine.execWideMessage k s
  | .rawMessage k => Sys2Proof.Machine.execRawMessage k s
  | .carriedFill p k => Sys2Proof.Machine.execCarriedFill p k s
  | .heldFillApply idx => Sys2Proof.Machine.execHeldFillApply idx s
  | .cohortRecord rec => Sys2Proof.Machine.execCohortRecord rec s
  | .tokenMessage model cohort rows => Sys2Proof.Machine.execTokenMessage model cohort rows s
  | .cut sliceId fromMember => Sys2Proof.Machine.execCut sliceId fromMember s
  | .leaving p address msg => Sys2Proof.Machine.execLeaving p address msg s
  | .slicePacket sliceId member digest checksOk => Sys2Proof.Machine.execSlicePacket sliceId member digest checksOk s
  | .relayPull model layer => Sys2Proof.Machine.execRelayPull model layer s
  | .relayBlock tile header data => Sys2Proof.Machine.execRelayBlock tile header data s
  | .spillDone handle span ev => Sys2Proof.Machine.execSpillDone handle span ev s
  | .stepBoundary model cohort peers => Sys2Proof.Machine.execStepBoundary model cohort peers s
  | .cowCopy handle page => Sys2Proof.Machine.execCowCopy handle page s
  | .lensSummary handle page => Sys2Proof.Machine.execLensSummary handle page s
  | .arrayMatmul c d => Sys2Proof.Machine.execArrayMatmul c d s
  | .rescaleBlockWrite tile stream => Sys2Proof.Machine.execRescaleBlockWrite tile stream s
  | .vectorRun c d => Sys2Proof.Machine.execVectorRun c d s
  | .prismAttend c d => Sys2Proof.Machine.execPrismAttend c d s
  | .prismPartial c d => Sys2Proof.Machine.execPrismPartial c d s
  | .prismMerge c d => Sys2Proof.Machine.execPrismMerge c d s
  | .fetchStream c d => Sys2Proof.Machine.execFetchStream c d s
  | .fetchStage c d => Sys2Proof.Machine.execFetchStage c d s
  | .exchangeNarrow c d => Sys2Proof.Machine.execExchangeNarrow c d s
  | .exchangeWide c d => Sys2Proof.Machine.execExchangeWide c d s
  | .exchangeRaw c d => Sys2Proof.Machine.execExchangeRaw c d s
  | .appendKv c d => Sys2Proof.Machine.execAppendKv c d s
  | .loopEmbed c d loc => Sys2Proof.Machine.execLoopEmbed c d loc s
  | .loopCandidates c d => Sys2Proof.Machine.execLoopCandidates c d s
  | .loopSample c d peers => Sys2Proof.Machine.execLoopSample c d peers s
  | .loopAccept c d => Sys2Proof.Machine.execLoopAccept c d s
  | .loopStopEmit c d => Sys2Proof.Machine.execLoopStopEmit c d s
  | .loopStepEnd c d => Sys2Proof.Machine.execLoopStepEnd c d s
  | .syncFill word v => Sys2Proof.Machine.execSyncFill word v s
  | .syncTake word unit engine => Sys2Proof.Machine.execSyncTake word unit engine s
  | .syncPeek word unit engine => Sys2Proof.Machine.execSyncPeek word unit engine s
  | .syncClear word => Sys2Proof.Machine.execSyncClear word s
  | .syncPoison word => Sys2Proof.Machine.execSyncPoison word s
  | .doneFillRetry idx => Sys2Proof.Machine.execDoneFillRetry idx s
  | .watchRetry idx => Sys2Proof.Machine.execWatchRetry idx s
  | .hangWatch idx kind waited => Sys2Proof.Machine.execHangWatch idx kind waited s
  | .windowFill model => Sys2Proof.Machine.execWindowFill model s
  | .windowTimeout model cohort => Sys2Proof.Machine.execWindowTimeout model cohort s
  | .flashUnitRead model sec unit fast slow mirrorOk => Sys2Proof.Machine.execFlashUnitRead model sec unit fast slow mirrorOk s
  | .readRetry model sec unit ok => Sys2Proof.Machine.execReadRetry model sec unit ok s
  | .readDisturbScan block worst threshold => Sys2Proof.Machine.execReadDisturbScan block worst threshold s
  | .blockRefresh block target ok => Sys2Proof.Machine.execBlockRefresh block target ok s
  | .staticWearMove target src dst => Sys2Proof.Machine.execStaticWearMove target src dst s
  | .blockErase block ok => Sys2Proof.Machine.execBlockErase block ok s
  | .scrubRead stack errs data passDone => Sys2Proof.Machine.execScrubRead stack errs data passDone s
  | .tileReread model sec unit found ok => Sys2Proof.Machine.execTileReread model sec unit found ok s
  | .swapFlushDone handle ok => Sys2Proof.Machine.execSwapFlushDone handle ok s
  | .swapRecordRead handle readOk record => Sys2Proof.Machine.execSwapRecordRead handle readOk record s
  | .sramUncorrectable r => Sys2Proof.Machine.execSramUncorrectable r s
  | .packageFatal cls => Sys2Proof.Machine.execPackageFatal cls s
  | .watchdogExpiry => Sys2Proof.Machine.execWatchdogExpiry s
  | .powerInterval estimate throttleInN => Sys2Proof.Machine.execPowerInterval estimate throttleInN s
  | .thermalInterval temps => Sys2Proof.Machine.execThermalInterval temps s
  | .thermalTrip temps => Sys2Proof.Machine.execThermalTrip temps s
  | .tripRestart temps => Sys2Proof.Machine.execTripRestart temps s
  | .pllOffTimer => Sys2Proof.Machine.execPllOffTimer s
  | .engineGate tile engine => Sys2Proof.Machine.execEngineGate tile engine s
  | .powerLoss => Sys2Proof.Machine.execPowerLoss s
  | .railFault rail => Sys2Proof.Machine.execRailFault rail s
  | .aonRefclkLoss => Sys2Proof.Machine.execAonRefclkLoss s
  | .mrefclkLoss => Sys2Proof.Machine.execMrefclkLoss s
  | .refclkLoss => Sys2Proof.Machine.execRefclkLoss s
  | .i3cAddressAssign addr => Sys2Proof.Machine.execI3cAddressAssign addr s
  | .getVersion t => Sys2Proof.Machine.execGetVersion t s
  | .getCapabilities t => Sys2Proof.Machine.execGetCapabilities t s
  | .negotiateAlgorithms t supported => Sys2Proof.Machine.execNegotiateAlgorithms t supported s
  | .getDigests t => Sys2Proof.Machine.execGetDigests t s
  | .getCertificate t slot offset length => Sys2Proof.Machine.execGetCertificate t slot offset length s
  | .challenge t slot nonce => Sys2Proof.Machine.execChallenge t slot nonce s
  | .getMeasurements t index => Sys2Proof.Machine.execGetMeasurements t index s
  | .keyExchange t reqId => Sys2Proof.Machine.execKeyExchange t reqId s
  | .finish session macOk => Sys2Proof.Machine.execFinish session macOk s
  | .heartbeat session => Sys2Proof.Machine.execHeartbeat session s
  | .keyUpdate session => Sys2Proof.Machine.execKeyUpdate session s
  | .endSession session => Sys2Proof.Machine.execEndSession session s
  | .ideKm session stream key => Sys2Proof.Machine.execIdeKm session stream key s
  | .jtagBypass tdi => Sys2Proof.Machine.execJtagBypass tdi s
  | .jtagIdcode => Sys2Proof.Machine.execJtagIdcode s
  | .jtagSamplePreload pins update => Sys2Proof.Machine.execJtagSamplePreload pins update s
  | .jtagExtest pins update => Sys2Proof.Machine.execJtagExtest pins update s
  | .vEnd t f => Sys2Proof.Machine.execVEnd t f s
  | .vLd t f => Sys2Proof.Machine.execVLd t f s
  | .vSt t f => Sys2Proof.Machine.execVSt t f s
  | .vAdd t f => Sys2Proof.Machine.execVAdd t f s
  | .vSub t f => Sys2Proof.Machine.execVSub t f s
  | .vMul t f => Sys2Proof.Machine.execVMul t f s
  | .vFma t f => Sys2Proof.Machine.execVFma t f s
  | .vMin t f => Sys2Proof.Machine.execVMin t f s
  | .vMax t f => Sys2Proof.Machine.execVMax t f s
  | .vAbs t f => Sys2Proof.Machine.execVAbs t f s
  | .vNeg t f => Sys2Proof.Machine.execVNeg t f s
  | .vDiv t f => Sys2Proof.Machine.execVDiv t f s
  | .vSqrt t f => Sys2Proof.Machine.execVSqrt t f s
  | .vRsq t f => Sys2Proof.Machine.execVRsq t f s
  | .vExp t f => Sys2Proof.Machine.execVExp t f s
  | .vLog t f => Sys2Proof.Machine.execVLog t f s
  | .vSig t f => Sys2Proof.Machine.execVSig t f s
  | .vCmplt t f => Sys2Proof.Machine.execVCmplt t f s
  | .vCmple t f => Sys2Proof.Machine.execVCmple t f s
  | .vCmpeq t f => Sys2Proof.Machine.execVCmpeq t f s
  | .vSel t f => Sys2Proof.Machine.execVSel t f s
  | .vAnd t f => Sys2Proof.Machine.execVAnd t f s
  | .vOr t f => Sys2Proof.Machine.execVOr t f s
  | .vXor t f => Sys2Proof.Machine.execVXor t f s
  | .vShl t f => Sys2Proof.Machine.execVShl t f s
  | .vShr t f => Sys2Proof.Machine.execVShr t f s
  | .vShra t f => Sys2Proof.Machine.execVShra t f s
  | .vCvti t f => Sys2Proof.Machine.execVCvti t f s
  | .vCvtf t f => Sys2Proof.Machine.execVCvtf t f s
  | .vRbf t f => Sys2Proof.Machine.execVRbf t f s
  | .vQparam t f => Sys2Proof.Machine.execVQparam t f s
  | .vQcode t f => Sys2Proof.Machine.execVQcode t f s
  | .vQdeq t f => Sys2Proof.Machine.execVQdeq t f s
  | .vLaneid t f => Sys2Proof.Machine.execVLaneid t f s
  | .vShfx t f => Sys2Proof.Machine.execVShfx t f s
  | .vShup t f => Sys2Proof.Machine.execVShup t f s
  | .vPerm t f => Sys2Proof.Machine.execVPerm t f s
  | .vBcast t f => Sys2Proof.Machine.execVBcast t f s
  | .vPad t f => Sys2Proof.Machine.execVPad t f s
  | .vMovc t f => Sys2Proof.Machine.execVMovc t f s
  | .vCpush t f => Sys2Proof.Machine.execVCpush t f s
  | .vCmpr t f => Sys2Proof.Machine.execVCmpr t f s
  | .vExpd t f => Sys2Proof.Machine.execVExpd t f s
  | .vCpop t f => Sys2Proof.Machine.execVCpop t f s
  | .vSetvl t f => Sys2Proof.Machine.execVSetvl t f s
  | .vPcnt t f => Sys2Proof.Machine.execVPcnt t f s
  | .vPand t f => Sys2Proof.Machine.execVPand t f s
  | .vPor t f => Sys2Proof.Machine.execVPor t f s
  | .vPandn t f => Sys2Proof.Machine.execVPandn t f s
  | .vPflag t f => Sys2Proof.Machine.execVPflag t f s
  | .perstNHigh => Sys2Proof.Machine.execPerstNHigh s
  | .vfEnableSet numVfs => Sys2Proof.Machine.execVfEnableSet numVfs s
  | .programPageDone block ok spare => Sys2Proof.Machine.execProgramPageDone block ok spare s
  | .mrefclkReturn reports => Sys2Proof.Machine.execMrefclkReturn reports s
  | .trstN => Sys2Proof.Machine.execTrstN s

end Sys2Proof.Machine
end

