-- ==== Sys2Proof/Safety.lean ====
section
/-!
DEFINITION. Sys2Proof/Safety.lean: the terms in which the statements speak of a command's effect: what a command leaves,
what it writes, and the conditions that every state reached by the machine keeps.
-/
namespace Sys2Proof.Machine

/-! ## What nothing changes (R364, R366) -/

/-- The device wrapping key and the fused hash of the firmware public key. -/
def Umathal.roots (u : Umathal) : Nat × Nat × BitVec 512 := (u.wrapN, u.wrapD, u.keyHash)

/-! ## Frames: the parts of the package that each command may change -/

/-- The parts of the package that a frame names: the fields of State other than the queue,
and two parts of such fields that nothing changes. -/
inductive Piece where
  | fns
  | tiles
  | models
  | seqs
  | reuse
  | cohorts
  | nextCohorts
  | treeOps
  | stepCount
  | cands
  | sampled
  | sync
  | ports
  | slices
  | transit
  | inbound
  | heldWide
  | wideSeen
  | inbox
  | spans
  | left
  | msgId
  | undelivered
  | denials
  | um
  | spdm
  | flash
  | scrubHours
  | rateLimit
  | swapStat
  | relayStat
  | swapQueue
  | specStat
  | specSource
  | boot
  | pins
  | power
  | side
  | out
  | held
  | fresh
  /-- the part number, of Boot -/
  | partE
  /-- the device wrapping key and the fused key hash, of Umathal -/
  | roots
deriving DecidableEq

/-- Every part that something changes. -/
def Piece.changing : List Piece :=
  [.fns, .tiles, .models, .seqs, .reuse, .cohorts, .nextCohorts, .treeOps, .stepCount, .cands] ++
  [.sampled, .sync, .ports, .slices, .transit, .inbound, .heldWide, .wideSeen, .inbox, .spans] ++
  [.left, .msgId, .undelivered, .denials, .um, .spdm, .flash, .scrubHours, .rateLimit, .swapStat] ++
  [.relayStat, .swapQueue, .specStat, .specSource, .boot, .pins, .power, .side, .out, .held] ++
  [.fresh]

/-- A part is the same in two states. -/
def Piece.same : Piece → State → State → Prop
  | .fns, s, t => t.fns = s.fns
  | .tiles, s, t => t.tiles = s.tiles
  | .models, s, t => t.models = s.models
  | .seqs, s, t => t.seqs = s.seqs
  | .reuse, s, t => t.reuse = s.reuse
  | .cohorts, s, t => t.cohorts = s.cohorts
  | .nextCohorts, s, t => t.nextCohorts = s.nextCohorts
  | .treeOps, s, t => t.treeOps = s.treeOps
  | .stepCount, s, t => t.stepCount = s.stepCount
  | .cands, s, t => t.cands = s.cands
  | .sampled, s, t => t.sampled = s.sampled
  | .sync, s, t => t.sync = s.sync
  | .ports, s, t => t.ports = s.ports
  | .slices, s, t => t.slices = s.slices
  | .transit, s, t => t.transit = s.transit
  | .inbound, s, t => t.inbound = s.inbound
  | .heldWide, s, t => t.heldWide = s.heldWide
  | .wideSeen, s, t => t.wideSeen = s.wideSeen
  | .inbox, s, t => t.inbox = s.inbox
  | .spans, s, t => t.spans = s.spans
  | .left, s, t => t.left = s.left
  | .msgId, s, t => t.msgId = s.msgId
  | .undelivered, s, t => t.undelivered = s.undelivered
  | .denials, s, t => t.denials = s.denials
  | .um, s, t => t.um = s.um
  | .spdm, s, t => t.spdm = s.spdm
  | .flash, s, t => t.flash = s.flash
  | .scrubHours, s, t => t.scrubHours = s.scrubHours
  | .rateLimit, s, t => t.rateLimit = s.rateLimit
  | .swapStat, s, t => t.swapStat = s.swapStat
  | .relayStat, s, t => t.relayStat = s.relayStat
  | .swapQueue, s, t => t.swapQueue = s.swapQueue
  | .specStat, s, t => t.specStat = s.specStat
  | .specSource, s, t => t.specSource = s.specSource
  | .boot, s, t => t.boot = s.boot
  | .pins, s, t => t.pins = s.pins
  | .power, s, t => t.power = s.power
  | .side, s, t => t.side = s.side
  | .out, s, t => t.out = s.out
  | .held, s, t => t.held = s.held
  | .fresh, s, t => t.fresh = s.fresh
  | .partE, s, t => t.boot.partE = s.boot.partE
  | .roots, s, t => t.um.roots = s.um.roots

/-- t differs from s at most in the parts of l, and in the queue. -/
def Same (l : List Piece) (s t : State) : Prop := ∀ p, p ∉ l → p.same s t

/-- A command that answers a next state changes at most the parts of l. -/
def Leaves (l : List Piece) (s : State) (o : Host.Outcome State Fault Refusal) : Prop := ∀ t, o = .next t → Same l s t

/-- The parts of the package that a command may change; what is not listed stays as it was. -/
def touches : Instr → List Piece
  | .admitSeq _ _ _ _ _ _ _ _ => [.fns, .models, .seqs, .treeOps, .sync, .out, .held]
  | .ingest _ _ _ _ => [.fns, .models, .seqs, .treeOps, .out, .held]
  | .importKv _ _ _ _ _ => [.fns, .models, .seqs, .treeOps, .out, .held]
  | .importComplete _ _ _ => [.fns, .models, .seqs, .boot, .out, .held]
  | .extend _ _ _ _ _ => [.fns, .models, .seqs, .treeOps, .swapQueue, .out, .held]
  | .setPolicy _ _ _ _ _ _ => [.fns, .seqs, .out, .held]
  | .preempt _ _ _ => [.fns, .models, .seqs, .treeOps, .sync, .um, .swapQueue, .out, .held]
  | .resume _ _ _ _ => [.fns, .models, .seqs, .treeOps, .sync, .swapQueue, .out, .held]
  | .cancel _ _ => [.fns, .models, .seqs, .treeOps, .sync, .um, .swapQueue, .out, .held]
  | .release _ _ => [.fns, .models, .seqs, .reuse, .sync, .um, .swapQueue, .out, .held]
  | .modelInstall _ _ _ _ _ _ => [.fns, .tiles, .models, .flash, .boot, .out, .held, .fresh]
  | .installCommit _ => [.fns, .models, .flash, .out, .held]
  | .modelLoad _ _ _ _ => [.fns, .tiles, .models, .sync, .power, .out, .held]
  | .loadComplete _ _ => [.fns, .tiles, .models, .cohorts, .nextCohorts, .treeOps, .cands, .sampled, .sync, .spans] ++ [.boot, .power, .out, .held]
  | .modelUnload _ _ => [.fns, .tiles, .models, .cohorts, .nextCohorts, .treeOps, .cands, .sampled, .sync, .slices] ++ [.spans, .out, .held]
  | .modelErase _ _ => [.fns, .tiles, .models, .flash, .out, .held]
  | .tenantCreate _ _ _ _ _ _ _ _ => [.fns, .um, .out, .held]
  | .tenantDestroy _ _ => [.fns, .tiles, .models, .seqs, .reuse, .cohorts, .nextCohorts, .treeOps, .cands, .sampled] ++ [.sync, .slices, .spans, .um, .flash, .swapQueue, .out, .held]
  | .keyInstall _ _ _ _ => [.fns, .um, .out, .held]
  | .pagePoolSet _ _ _ _ _ _ _ _ => [.fns, .models, .out, .held]
  | .configStage _ _ => [.fns, .um, .out, .held, .fresh]
  | .configCommit _ _ => [.fns, .um, .out, .held]
  | .configConfirm _ => [.fns, .um, .out, .held]
  | .configRevert _ => [.fns, .um, .out, .held]
  | .fwStage _ _ _ => [.fns, .um, .boot, .out, .held]
  | .fwActivate _ _ => [.fns, .um, .out, .held]
  | .sliceDefine _ _ _ _ _ _ _ _ => [.fns, .ports, .slices, .inbox, .msgId, .undelivered, .out, .held]
  | .sliceRemove _ _ _ => [.fns, .slices, .out, .held]
  | .sliceAgreementTimeout _ => [.fns, .slices, .out, .held]
  | .routeLoad _ _ _ _ _ _ _ => [.fns, .ports, .slices, .um, .out, .held]
  | .funcReset _ _ => [.fns, .tiles, .models, .seqs, .reuse, .cohorts, .nextCohorts, .treeOps, .cands, .sampled] ++ [.sync, .slices, .spans, .um, .flash, .swapQueue, .out, .held]
  | .loupeRead _ _ => [.fns, .out, .held, .fresh]
  | .loupeSetFill _ _ _ => [.fns, .sync, .um, .out, .held]
  | .loupeSetClear _ _ => [.fns, .sync, .um, .out, .held]
  | .loupeSetPoison _ _ => [.fns, .sync, .um, .out, .held]
  | .loupeSetScratch _ _ _ _ => [.fns, .tiles, .um, .out, .held]
  | .doorbellWrite _ _ _ _ => [.fns, .seqs, .boot, .out, .held]
  | .takeEntry _ _ _ _ => [.fns, .um, .boot, .out, .held]
  | .sealLockExpiry _ => [.fns]
  | .irqCoalesceTimer _ _ _ => [.fns, .out]
  | .ringEnable _ _ _ _ => [.fns, .seqs, .boot, .out, .held]
  | .ringDisable _ _ _ _ => [.fns, .seqs, .boot, .out, .held]
  | .registerWrite _ _ _ _ => [.fns, .tiles, .models, .seqs, .sync, .scrubHours, .rateLimit, .boot, .power, .out] ++ [.held]
  | .clearingRead _ _ _ => [.fns, .tiles, .models, .sync, .ports, .transit, .flash, .swapStat, .relayStat, .specStat] ++ [.specSource, .boot, .power]
  | .kvLayerSelect _ _ => [.fns, .tiles, .models, .seqs, .sync, .scrubHours, .rateLimit, .boot, .power, .out] ++ [.held]
  | .localTimeRead _ _ _ => [.fns, .tiles, .models, .sync, .ports, .transit, .flash, .swapStat, .relayStat, .specStat] ++ [.specSource, .boot, .power]
  | .errLogRead _ _ => [.fns, .tiles, .models, .sync, .ports, .transit, .flash, .swapStat, .relayStat, .specStat] ++ [.specSource, .boot, .power]
  | .pldmCapSet _ => [.power]
  | .bmeClear _ => [.fns]
  | .bmeSet _ => [.fns, .seqs, .out, .held]
  | .flr _ => [.fns, .tiles, .models, .seqs, .reuse, .cohorts, .nextCohorts, .treeOps, .cands, .sampled] ++ [.sync, .slices, .spans, .um, .flash, .swapQueue, .out, .held]
  | .vfEnableClear => [.fns, .tiles, .models, .seqs, .reuse, .cohorts, .nextCohorts, .treeOps, .cands, .sampled] ++ [.sync, .slices, .spans, .um, .flash, .swapQueue, .out, .held]
  | .disableTimeout _ => [.fns, .tiles, .models, .seqs, .reuse, .cohorts, .treeOps, .sync, .spans, .um] ++ [.swapQueue, .out, .held]
  | .dlDown => [.fns, .tiles, .models, .seqs, .reuse, .cohorts, .nextCohorts, .treeOps, .cands, .sampled] ++ [.sync, .slices, .spans, .um, .flash, .swapQueue, .boot, .pins, .out, .held]
  | .dlUp => [.fns, .sync, .pins]
  | .perstN => Piece.changing
  | .resetN => Piece.changing
  | .aon _ _ => [.boot, .pins]
  | .secureBoot _ _ => [.sync, .slices, .um, .scrubHours, .rateLimit, .boot, .fresh]
  | .dramTrain _ _ _ _ _ => [.fns, .flash, .boot, .out]
  | .linkTrain _ => [.fns, .ports, .slices, .boot, .out]
  | .linkTrainTimeout => [.fns, .ports, .boot, .out]
  | .ready => [.fns, .tiles, .models, .sync, .slices, .flash, .boot]
  | .portTrain _ _ => [.fns, .tiles, .models, .seqs, .cohorts, .treeOps, .sync, .ports, .slices, .inbox] ++ [.msgId, .undelivered, .um, .swapQueue, .boot, .out, .held]
  | .discoveryRecord _ _ => [.fns, .tiles, .models, .seqs, .cohorts, .treeOps, .sync, .ports, .slices, .inbox] ++ [.msgId, .undelivered, .um, .swapQueue, .boot, .out, .held]
  | .portRetryTimer _ => [.fns, .ports, .slices, .out]
  | .portRetrain _ _ => [.fns, .tiles, .models, .seqs, .cohorts, .treeOps, .sync, .ports, .slices, .inbox] ++ [.msgId, .undelivered, .um, .swapQueue, .boot, .out, .held]
  | .portDown _ => [.fns, .tiles, .models, .seqs, .cohorts, .treeOps, .sync, .ports, .slices, .inbox] ++ [.msgId, .undelivered, .um, .swapQueue, .boot, .out, .held, .fresh]
  | .malnyFrame _ _ => [.fns, .tiles, .models, .seqs, .cohorts, .treeOps, .sync, .ports, .slices, .inbox] ++ [.msgId, .undelivered, .um, .swapQueue, .boot, .out, .held]
  | .linkIdleTimer _ => [.ports]
  | .transitSend _ _ => [.ports, .transit]
  | .narrowMessage _ => [.fns, .tiles, .inbound, .heldWide, .wideSeen, .inbox, .out]
  | .wideMessage _ => [.fns, .tiles, .inbound, .heldWide, .wideSeen, .inbox, .out]
  | .rawMessage _ => [.fns, .tiles, .inbound, .wideSeen, .inbox, .out]
  | .carriedFill _ _ => [.fns, .sync, .ports, .inbound, .denials, .out]
  | .heldFillApply _ => [.sync, .ports]
  | .cohortRecord _ => [.fns, .tiles, .models, .seqs, .cohorts, .nextCohorts, .treeOps, .stepCount, .cands, .sampled] ++ [.sync, .inbox, .specSource, .out, .held]
  | .tokenMessage _ _ _ => [.seqs, .cohorts, .nextCohorts, .inbox]
  | .cut _ _ => [.fns, .tiles, .models, .seqs, .cohorts, .treeOps, .sync, .inbox, .um, .swapQueue] ++ [.boot, .out, .held]
  | .leaving _ _ _ => [.fns, .tiles, .models, .seqs, .cohorts, .treeOps, .sync, .ports, .slices, .inbox] ++ [.left, .um, .swapQueue, .boot, .out, .held]
  | .slicePacket _ _ _ _ => [.fns, .ports, .slices, .inbox, .msgId, .undelivered, .out, .held]
  | .relayPull _ _ => [.fns, .tiles, .models, .seqs, .cohorts, .treeOps, .sync, .ports, .inbox, .msgId] ++ [.undelivered, .um, .relayStat, .swapQueue, .boot, .out, .held]
  | .relayBlock _ _ _ => [.fns, .tiles, .models, .seqs, .cohorts, .sync, .inbox, .relayStat, .boot, .out] ++ [.fresh]
  | .spillDone _ _ _ => [.fns, .tiles, .models, .seqs, .cohorts, .treeOps, .sync, .ports, .inbox, .spans] ++ [.msgId, .undelivered, .um, .swapQueue, .boot, .out, .held]
  | .stepBoundary _ _ _ => [.fns, .tiles, .models, .seqs, .reuse, .cohorts, .nextCohorts, .treeOps, .stepCount, .cands] ++ [.sampled, .sync, .ports, .slices, .inbox, .spans, .msgId, .undelivered, .um, .relayStat] ++ [.swapQueue, .specSource, .boot, .out, .held, .fresh]
  | .cowCopy _ _ => [.models, .seqs]
  | .lensSummary _ _ => [.models, .seqs]
  | .arrayMatmul _ _ => [.fns, .tiles, .models, .seqs, .cohorts, .sync, .boot, .out, .fresh]
  | .rescaleBlockWrite _ _ => [.tiles]
  | .vectorRun _ _ => [.fns, .tiles, .models, .cohorts, .sync, .out]
  | .prismAttend _ _ => [.fns, .tiles, .models, .seqs, .cohorts, .sync, .relayStat, .boot, .out, .fresh]
  | .prismPartial _ _ => [.fns, .tiles, .models, .seqs, .cohorts, .sync, .relayStat, .boot, .out, .fresh]
  | .prismMerge _ _ => [.fns, .tiles, .models, .seqs, .cohorts, .sync, .relayStat, .boot, .out, .fresh]
  | .fetchStream _ _ => [.fns, .tiles, .models, .cohorts, .sync, .out]
  | .fetchStage _ _ => [.fns, .tiles, .models, .cohorts, .sync, .out]
  | .exchangeNarrow _ _ => [.fns, .tiles, .models, .seqs, .cohorts, .treeOps, .sync, .ports, .inbox, .msgId] ++ [.undelivered, .um, .swapQueue, .boot, .out, .held]
  | .exchangeWide _ _ => [.fns, .tiles, .models, .seqs, .cohorts, .treeOps, .sync, .ports, .inbox, .msgId] ++ [.undelivered, .um, .swapQueue, .boot, .out, .held]
  | .exchangeRaw _ _ => [.fns, .tiles, .models, .seqs, .cohorts, .treeOps, .sync, .ports, .inbox, .msgId] ++ [.undelivered, .um, .swapQueue, .boot, .out, .held]
  | .appendKv _ _ => [.tiles, .models, .cohorts, .sync]
  | .loopEmbed _ _ _ => [.tiles, .models, .cohorts, .sync, .fresh]
  | .loopCandidates _ _ => [.tiles, .models, .cohorts, .cands, .sync, .fresh]
  | .loopSample _ _ _ => [.tiles, .models, .seqs, .cohorts, .sampled, .sync, .boot, .fresh]
  | .loopAccept _ _ => [.tiles, .models, .seqs, .cohorts, .sync, .specStat, .specSource, .boot, .fresh]
  | .loopStopEmit _ _ => [.fns, .tiles, .models, .seqs, .cohorts, .sync, .out, .held, .fresh]
  | .loopStepEnd _ _ => [.fns, .tiles, .models, .seqs, .cohorts, .treeOps, .sync, .ports, .inbox, .msgId] ++ [.undelivered, .um, .swapQueue, .boot, .out, .held, .fresh]
  | .syncFill _ _ => [.sync]
  | .syncTake _ _ _ => [.sync]
  | .syncPeek _ _ _ => [.sync]
  | .syncClear _ => [.sync]
  | .syncPoison _ => [.sync]
  | .doneFillRetry _ => [.sync]
  | .watchRetry _ => [.sync]
  | .hangWatch _ _ _ => [.fns, .sync, .out]
  | .windowFill _ => [.models, .cohorts]
  | .windowTimeout _ _ => [.fns, .tiles, .models, .seqs, .cohorts, .treeOps, .sync, .um, .swapQueue, .boot] ++ [.out, .held]
  | .flashUnitRead _ _ _ _ _ _ => [.fns, .models, .flash, .out]
  | .readRetry _ _ _ _ => [.fns, .models, .flash, .out]
  | .readDisturbScan _ _ _ => [.flash]
  | .blockRefresh _ _ _ => [.flash]
  | .staticWearMove _ _ _ => [.flash]
  | .blockErase _ _ => [.models, .flash]
  | .scrubRead _ _ _ _ => [.fns, .tiles, .models, .seqs, .boot, .out, .fresh]
  | .tileReread _ _ _ _ _ => [.fns, .tiles, .models, .seqs, .boot, .out]
  | .swapFlushDone _ _ => [.fns, .models, .seqs, .treeOps, .sync, .um, .swapStat, .swapQueue, .boot, .out] ++ [.held]
  | .swapRecordRead _ _ _ => [.fns, .models, .seqs, .treeOps, .sync, .um, .swapStat, .swapQueue, .boot, .out] ++ [.held]
  | .sramUncorrectable _ => Piece.changing
  | .packageFatal _ => Piece.changing
  | .watchdogExpiry => Piece.changing
  | .powerInterval _ _ => [.fns, .pins, .power, .out]
  | .thermalInterval _ => Piece.changing
  | .thermalTrip _ => Piece.changing
  | .tripRestart _ => [.pins, .power]
  | .pllOffTimer => [.power]
  | .engineGate _ _ => [.tiles]
  | .powerLoss => Piece.changing
  | .railFault _ => Piece.changing
  | .aonRefclkLoss => Piece.changing
  | .mrefclkLoss => [.fns, .tiles, .models, .seqs, .cohorts, .treeOps, .sync, .ports, .slices, .inbox] ++ [.msgId, .undelivered, .um, .swapQueue, .boot, .pins, .out, .held]
  | .refclkLoss => [.fns, .tiles, .models, .seqs, .reuse, .cohorts, .nextCohorts, .treeOps, .cands, .sampled] ++ [.sync, .slices, .spans, .um, .flash, .swapQueue, .boot, .pins, .out, .held]
  | .i3cAddressAssign _ => [.side]
  | .getVersion _ => [.spdm]
  | .getCapabilities _ => [.spdm]
  | .negotiateAlgorithms _ _ => [.spdm]
  | .getDigests _ => [.spdm]
  | .getCertificate _ _ _ _ => [.spdm]
  | .challenge _ _ _ => [.spdm]
  | .getMeasurements _ _ => [.spdm, .fresh]
  | .keyExchange _ _ => [.spdm]
  | .finish _ _ => [.spdm]
  | .heartbeat _ => [.spdm]
  | .keyUpdate _ => [.spdm]
  | .endSession _ => [.spdm]
  | .ideKm _ _ _ => [.spdm]
  | .jtagBypass _ => [.pins, .side]
  | .jtagIdcode => [.pins, .side]
  | .jtagSamplePreload _ _ => [.pins, .side]
  | .jtagExtest _ _ => [.pins, .side]
  | .vEnd _ _ => [.tiles]
  | .vLd _ _ => [.fns, .tiles, .out]
  | .vSt _ _ => [.tiles]
  | .vAdd _ _ => [.tiles]
  | .vSub _ _ => [.tiles]
  | .vMul _ _ => [.tiles]
  | .vFma _ _ => [.tiles]
  | .vMin _ _ => [.tiles]
  | .vMax _ _ => [.tiles]
  | .vAbs _ _ => [.tiles]
  | .vNeg _ _ => [.tiles]
  | .vDiv _ _ => [.tiles]
  | .vSqrt _ _ => [.tiles]
  | .vRsq _ _ => [.tiles]
  | .vExp _ _ => [.tiles]
  | .vLog _ _ => [.tiles]
  | .vSig _ _ => [.tiles]
  | .vCmplt _ _ => [.tiles]
  | .vCmple _ _ => [.tiles]
  | .vCmpeq _ _ => [.tiles]
  | .vSel _ _ => [.tiles]
  | .vAnd _ _ => [.tiles]
  | .vOr _ _ => [.tiles]
  | .vXor _ _ => [.tiles]
  | .vShl _ _ => [.tiles]
  | .vShr _ _ => [.tiles]
  | .vShra _ _ => [.tiles]
  | .vCvti _ _ => [.tiles]
  | .vCvtf _ _ => [.tiles]
  | .vRbf _ _ => [.tiles]
  | .vQparam _ _ => [.tiles]
  | .vQcode _ _ => [.tiles]
  | .vQdeq _ _ => [.tiles]
  | .vLaneid _ _ => [.tiles]
  | .vShfx _ _ => [.tiles]
  | .vShup _ _ => [.tiles]
  | .vPerm _ _ => [.tiles]
  | .vBcast _ _ => [.tiles]
  | .vPad _ _ => [.tiles]
  | .vMovc _ _ => [.tiles]
  | .vCpush _ _ => [.tiles]
  | .vCmpr _ _ => [.tiles]
  | .vExpd _ _ => [.tiles]
  | .vCpop _ _ => [.tiles]
  | .vSetvl _ _ => [.tiles]
  | .vPcnt _ _ => [.tiles]
  | .vPand _ _ => [.tiles]
  | .vPor _ _ => [.tiles]
  | .vPandn _ _ => [.tiles]
  | .vPflag _ _ => [.tiles]
  | .perstNHigh => [.pins]
  | .vfEnableSet _ => [.fns, .sync]
  | .programPageDone _ _ _ => [.flash]
  | .mrefclkReturn _ => [.fns, .ports, .slices, .pins, .out]
  | .trstN => [.pins, .side]

/-! ## Resets (R362, R381, R393, R405) -/

/-- No step carries rows of the function, none of its swaps is active, and no install, load or disabling of its own is under way. -/
def State.quietFor (s : State) (f : Fn) : Prop :=
  s.cohorts = [] ∧ s.swapQueue = [] ∧ s.fns[f].destroying = [] ∧
  ∀ m : SlotIx, (s.models[m].claim.any fun e => decide (e.fn = f)) = false ∧
    ((s.load? m).any fun l => decide (l.sub.fn = f) && !l.done) = false

/-- The disabling of function f is over in u (R362 steps 3 to 6): no request and no sequence of it is left, and its rings are as at
reset but for RING_BASE. -/
def ResetFn (s u : State) (f : Fn) : Prop :=
  u.fns[f].disabling = false ∧ u.fns[f].flrActive = false ∧ u.fns[f].present = true ∧ u.fns[f].openReqs = [] ∧
  (∀ k n, u.ring f k n = { base := (s.ring f k n).base }) ∧ ∀ q ∈ u.seqs, q.handle.isOwn = true → q.handle.fn ≠ f

/-- u is in AON after s (R381, R393, R405, R418): stage AON with nothing failed, no sequence, no cohort, no load, no tile memory and an
empty event of every kind left; flash, its catalogue, the store of Umathal and its fuses, and the part of the package as they were. With
config, configuration space is reset as well. -/
def EntersAon (s u : State) (config : Bool) : Prop :=
  u.boot.stage = .aon ∧ u.boot.failed = false ∧ u.boot.trained = false ∧ u.boot.dropped = 0 ∧ u.boot.partE = s.boot.partE ∧
  u.seqs = [] ∧ u.cohorts = [] ∧ u.sync = {} ∧ u.tiles = State.reset.tiles ∧ u.slices = [] ∧ u.held = [] ∧ u.inbound = [] ∧
  u.spans = [] ∧ u.swapQueue = [] ∧
  (∀ m : SlotIx, u.models[m].load = none ∧ u.models[m].image = s.models[m].image ∧
    u.models[m].state = (if s.models[m].state = .loading ∨ s.models[m].state = .loaded then .installed else s.models[m].state)) ∧
  u.flash.blocks = s.flash.blocks ∧ u.flash.targets = s.flash.targets ∧ u.flash.catalogueSeq = s.flash.catalogueSeq ∧
  (∀ m : SlotIx, u.models[m].flashKey = s.models[m].flashKey ∧ u.models[m].catalogued = s.models[m].catalogued) ∧
  u.um.cmdKey = s.um.cmdKey ∧ u.nextCohorts = [] ∧ u.treeOps = [] ∧
  u.um.slotA = s.um.slotA ∧ u.um.slotB = s.um.slotB ∧ u.um.banks = s.um.banks ∧ u.um.next = s.um.next ∧ u.um.roots = s.um.roots ∧
  u.um.staged = none ∧ u.um.loupeSets = 0 ∧ u.power.k = (if s.boot.partE then 12 else 16) ∧
  u.power.cap = (if s.boot.partE then 1100 else 1500) ∧ u.side.i3c = none ∧ u.spdm.sessions = [] ∧
  (∀ f : Fn, u.fns[f] = if config then { present := decide (f = 0) } else { bme := s.fns[f].bme, mse := s.fns[f].mse, present := s.fns[f].present })

/-! ## Requests and admin commands (R23, R352 to R354) -/

/-- The command answers u, which is s with the entry completed (R354) but for the parts of l. -/
def Answered (l : List Piece) (c : Instr) (s u : State) (e : Sub) (admin : Bool) (op st : BitVec 8) (h : BitVec 32 := 0) (pos : Nat := 0)
    (d : BitVec 64 := 0) : Prop :=
  exec c s = .next u ∧ Same l (s.completeFull e admin op st h pos 0 d) u

/-- A request refused, or one that needs nothing more: its entry is completed and nothing else changes. -/
def Refused (c : Instr) (s : State) (e : Sub) (admin : Bool) (op st : BitVec 8) (h : BitVec 32 := 0) (pos : Nat := 0) (d : BitVec 64 := 0) :
    Prop := ∃ u, Answered [] c s u e admin op st h pos d

/-- The handle names a sequence of the entry's function, which has a tenant (R339, R352). -/
def State.names (s : State) (e : Sub) (h : BitVec 32) (q : Seq) : Prop :=
  (s.tenant? e.fn).isSome = true ∧ handleFn h = e.fn ∧ s.seq? (.own h) = some q

/-- The command leaves sequence h as q, every other sequence as it was, and changes no part outside l. -/
def LeavesSeq (l : List Piece) (c : Instr) (s : State) (h : Key) (q : Seq) : Prop :=
  ∃ u, exec c s = .next u ∧ Same (.seqs :: l) s u ∧ u.seq? h = some q ∧ ∀ h', h' ≠ h → u.seq? h' = s.seq? h'

/-! ## Vector instructions (R142 to R155) -/

/-- u is s with an instruction counted on tile t (R152) and its vector engine w in place; nothing else differs. -/
def VecStep (s u : State) (t : TileIx) (w : Vec) : Prop :=
  u = { s with tiles := s.tiles.set t { s.tiles[t] with vec := { w with ctx := { w.ctx with slot := w.ctx.slot + 1 } } } }

/-- The registers of w are those of v, but lane l of dst is val l for the lanes l of ls (R144, R145); lane flags rise by
fl l in those lanes (R150); predicates, VL, stack, scalars and operand cache are as they were. -/
def LaneWrite (v w : Vec) (dst : BitVec 8) (ls : List Nat) (val : Nat → BitVec 32) (fl : Nat → BitVec 5) : Prop :=
  (∀ (c : BitVec 8) (l : Nat), l < 1024 → w.lane c l = if c = dst ∧ l ∈ ls then val l else v.lane c l) ∧
  (∀ l : Nat, sget 0 w.flags l = if l ∈ ls then sget 0 v.flags l ||| fl l else sget 0 v.flags l) ∧
  w.p = v.p ∧ w.vl = v.vl ∧ w.stack = v.stack ∧ w.c = v.c ∧ w.opc = v.opc ∧ w.hiMark = v.hiMark ∧ w.tMark = v.tMark ∧
  w.ctx = v.ctx

/-- The command completes on tile t of s: lanes ls of dst take the values and the flags of g, and nothing else changes. -/
def LanesRun (i : Instr) (s : State) (t : TileIx) (dst : BitVec 8) (ls : List Nat) (g : Nat → BitVec 32 × BitVec 5) : Prop :=
  ∃ u w, exec i s = .next u ∧ VecStep s u t w ∧
    LaneWrite s.tiles[t].vec w dst ls (fun l => (g l).1) (fun l => (g l).2)

/-- The command completes on tile t of s: bits l of predicate dst, for the lanes l of ls, are g l, and nothing else
changes (R144, R145). -/
def PredRun (i : Instr) (s : State) (t : TileIx) (dst : BitVec 8) (ls : List Nat) (g : Nat → Bool) : Prop :=
  ∃ u w, exec i s = .next u ∧ VecStep s u t w ∧
    (∀ (c : BitVec 8) (l : Nat), l < 1024 →
      w.predBit c l = if c = dst ∧ l ∈ ls then g l else (s.tiles[t].vec).predBit c l) ∧
    w = { s.tiles[t].vec with p := w.p }

/-- The command completes on tile t of s and leaves the vector engine w; nothing else changes. -/
def VecRun (i : Instr) (s : State) (t : TileIx) (w : Vec) : Prop :=
  ∃ u, exec i s = .next u ∧ VecStep s u t w

/-- What QCODE writes in a lane (R155): under a special parameter word a zero, or 1 in the first lane of a poisoned
channel; otherwise the code. -/
def qcodeLane (s : State) (t : TileIx) (f : VF) (l : Nat) : BitVec 32 × BitVec 5 :=
  let w := s.src t f f.sb l
  if 2 ≤ qKind w then (if qKind w = 3 ∧ some l = ((s.tiles[t].vec).active f).head? then 1 else 0, 0)
  else
    let r := alQcode (f.imm.toNat % 16) (s.src t f f.sa l) w
    (BitVec.ofInt 32 r.1, r.2.1)

/-- The squared error and the signal that QCODE's lanes add to TILE_VQ_ERR (R155), in ascending lane order. -/
def qcodeSum (s : State) (t : TileIx) (f : VF) : BitVec 32 × BitVec 32 :=
  (((s.tiles[t].vec).active f).filter fun l => decide (qKind (s.src t f f.sb l) < 2)).foldl
    (fun a l =>
      let r := alQcode (f.imm.toNat % 16) (s.src t f f.sa l) (s.src t f f.sb l)
      (add32 a.1 r.2.2.1, add32 a.2 r.2.2.2))
    ((s.tiles[t].vqErr).extractLsb' 0 32, (s.tiles[t].vqErr).extractLsb' 32 32)

/-- One lane of a store into a byte store, forms other than PLORYN (R147): an I4 lane keeps the other nibble. -/
def storeCell (form : Nat) (m : List Host.Cell) (a l : Nat) (x : BitVec 32) : List Host.Cell :=
  if form = 4 then
    let old := leNat (getBytes m a 1)
    let n := x.toNat % 16
    putBytes m a (toLE 1 (if l % 2 = 1 then old % 16 + 16 * n else old / 16 * 16 + n))
  else putBytes m a (storeValue form x)

/-- The lanes of a store into a byte store, ascending (R147, R148); base is the address of the model's span. -/
def storeCells (v : Vec) (f : VF) (form : Nat) (rows : Bool) (base at0 : Nat) (m : List Host.Cell) : List Host.Cell :=
  (v.touching f rows).foldl
    (fun m l => storeCell form m (base + laneAddr at0 v.ctx.rowStride form rows l) l (v.lane f.sc l)) m

/-! ## Malny (R312 to R336) -/

/-- A training report of a port whose receiver sees its peer drive on every lane, with the authentication passed (R316 to R318). -/
def goodReport (r : PortReport) (d : Discovery) : Prop :=
  r.rx.signal = true ∧ r.tx.facingTx = false ∧ r.rx.facingTx = false ∧ r.rx.badLanes = 0 ∧ r.tx.badLanes = 0 ∧ r.authOk = true ∧ r.peer = some d

/-- The state and CAUSE of a port are these (R321). -/
def State.portIs (s : State) (p : PortIx) (state cause : Nat) : Prop := portState s.ports[p] = state ∧ fld s.ports[p].reg 3 2 = cause


/-! ## Operation descriptors (R29 to R31, R288, R297, R298) -/

/-- The descriptor that a command has an engine of a tile take up, and the engine's number (R297). A Prism command names the OP of its
descriptor (R196). -/
def descOf : Instr → Option (DCtx × BitVec 512 × BitVec 3)
  | .arrayMatmul c d => some (c, d, 0)
  | .vectorRun c d => some (c, d, 1)
  | .loopEmbed c d _ => some (c, d, 1)
  | .loopCandidates c d => some (c, d, 1)
  | .loopSample c d _ => some (c, d, 1)
  | .loopAccept c d => some (c, d, 1)
  | .loopStopEmit c d => some (c, d, 1)
  | .loopStepEnd c d => some (c, d, 1)
  | .prismAttend c d => some (c, setFld d 8 8 1, 2)
  | .prismPartial c d => some (c, setFld d 8 8 2, 2)
  | .prismMerge c d => some (c, setFld d 8 8 3, 2)
  | .fetchStream c d => some (c, d, 3)
  | .fetchStage c d => some (c, d, 3)
  | .appendKv c d => some (c, d, 4)
  | .exchangeNarrow c d => some (c, d, 5)
  | .exchangeWide c d => some (c, d, 5)
  | .exchangeRaw c d => some (c, d, 5)
  | _ => none

/-- What a descriptor needs before its engine takes it up: for Prism, a set that its tile has not come to yet (R198). -/
def descHere (i : Instr) (s : State) : Prop :=
  match i with
  | .prismAttend c _ => ∀ k, s.cohort? c.model c.cohort = some k → (k.prismIn.any fun e => decide (e.1 = c.tile)) = false
  | .prismPartial c _ => ∀ k, s.cohort? c.model c.cohort = some k → (k.prismIn.any fun e => decide (e.1 = c.tile)) = false
  | .prismMerge c _ => ∀ k, s.cohort? c.model c.cohort = some k → (k.prismIn.any fun e => decide (e.1 = c.tile)) = false
  | _ => True

/-- Every member of the model's slice can be reached, and no message waits to be reported as lost (R13, R328). -/
def State.routesOpen (s : State) (m : SlotIx) : Prop :=
  s.undelivered = [] ∧ ∀ x, s.sliceOf m = some x → ∀ a ∈ x.members, a = s.address ∨ (s.nextHop a x.members).isSome = true

/-- What it needs besides its WAIT: its weights for MATMUL (R276), a filled window slot and a free stream context for FETCH (R276, R280),
pages that are copied for APPEND (R184), a destination and routes for EXCHANGE (R13, R16), routes for STEP_END (R32). -/
def descData (i : Instr) (s : State) (k : Cohort) : Prop :=
  match i with
  | .arrayMatmul c d => (s.boundStream c (arrayOf d)).isSome = true
  | .exchangeNarrow c d => (s.exchDest c.model (exchOf d)).isSome = true ∧ s.routesOpen c.model
  | .exchangeWide c d => (s.exchDest c.model (exchOf d)).isSome = true ∧ s.routesOpen c.model
  | .exchangeRaw c d => (s.exchDest c.model (exchOf d)).isSome = true ∧ s.routesOpen c.model
  | .loopStepEnd c _ => s.routesOpen c.model
  | .fetchStream c d => s.fetchReady c (fetchOf d) = none ∧
      (s.tiles[c.tile].streams.any fun x => decide (x.id = (fetchOf d).stream)) = false
  | .fetchStage c d => s.fetchReady c (fetchOf d) = none
  | .appendKv _ d => (liveRows k (effMask k d)).any (s.copying k) = false
  | _ => True

/-- The word a descriptor waits on (R29, R287): none under WAIT_MODE 0. -/
def State.waitWord (s : State) (c : DCtx) (d : BitVec 512) : Option (BitVec 16) :=
  if dWaitMode d = 0 then none else s.modelWord c.model c.cohort (dWaitWord d)

/-- Engine e of the descriptor's tile may take it up: its cohort is k and runs, and e has abandoned nothing of it and is not held, neither
by a wait nor by an earlier descriptor of its list (R31). -/
def State.takesUp (s : State) (c : DCtx) (d : BitVec 512) (e : BitVec 3) (k : Cohort) : Prop :=
  s.running? c.model c.cohort = some k ∧ bit k.abandoned (8 * c.tile.val + e.toNat) = false ∧
  s.engineHeld c.tile e (s.waitWord c d) = false ∧ s.frontHeld c d e = false

/-- The state once engine e has taken the descriptor up (R31, R398): it is awake, and the descriptor stands at its front. -/
def State.takenUp (s : State) (c : DCtx) (d : BitVec 512) (e : BitVec 3) (k : Cohort) : State := (s.wake c.tile e).setFront c d e k.step

/-- It starts at once: it waits for nothing. -/
def State.starts (s : State) (c : DCtx) (d : BitVec 512) (e : BitVec 3) (k : Cohort) : Prop :=
  s.takesUp c d e k ∧ dWaitMode d = 0

/-- A descriptor has completed from s to u (R279, R292, R298, R398): its engine is awake, its cohort counts it for its layer, and its
DONE, when it names a word of this package, has filled that word with STEP[47:0]; no other word changed. -/
def Completes (s u : State) (c : DCtx) (d : BitVec 512) (e : BitVec 3) (k : Cohort) : Prop :=
  bit u.tiles[c.tile].gated e.toNat = false ∧
  (∃ k', u.cohort? c.model c.cohort = some k' ∧ k'.step = k.step ∧
    k'.doneCount = sput 0 k.doneCount (256 * c.tile.val + (dLayer d).toNat) (sget 0 k.doneCount (256 * c.tile.val + (dLayer d).toNat) + 1)) ∧
  u.sync = match (if dDoneMode d = 1 then s.modelWord c.model c.cohort (dDoneWord d) else none) with
    | some w => (s.doneFill w (k.step.extractLsb' 0 48) (tileHome c.tile) e).sync
    | none => s.sync

/-- The command runs the descriptor to its DONE, and u is the state after it. -/
def DescRuns (i : Instr) (s u : State) (c : DCtx) (d : BitVec 512) (e : BitVec 3) (k : Cohort) : Prop :=
  exec i s = .next u ∧ Completes s u c d e k

/-- The total word's value for an output that starts from an empty total (R73 to R81): its beats accumulated and promoted; NAN where a block
of the row is special, POISON where one is poisoned. -/
def freshTotal (ws : Nat → Nat × List Int) (fmt : Nat) (mine all : List A16) : Total :=
  let r := runBeats ws fmt mine 0 0 {} none 0
  let p := (r.1.promote r.2.1).1
  { p with nan := p.nan || (all.any fun b => match b with | .special _ => true | _ => false)
           poison := p.poison || (all.any fun b => decide (b = .special true)) }

/-! ## What every step keeps (R370, R399 to R404) -/

/-- The issue rate and what it follows from are within their bounds (R400 to R402), the power and thermal settings are values that their
registers take (R399, R404), a tripped package stays in AON (R403), and Umathal holds at most four sessions (R370). -/
def State.Inv (s : State) : Prop :=
  4 ≤ s.power.pk ∧ s.power.pk ≤ s.partK ∧ 4 ≤ s.power.tk ∧ s.power.tk ≤ 16 ∧ 4 ≤ s.power.k ∧ s.power.k ≤ s.partK ∧
  s.power.below ≤ 9 ∧ s.power.cool ≤ 9 ∧ s.power.tripCool ≤ 99 ∧ 600 ≤ s.power.cap.toNat ∧ s.power.cap.toNat ≤ s.capMax ∧
  (s.power.pllOffDelay = 0 ∨ (100 ≤ s.power.pllOffDelay.toNat ∧ s.power.pllOffDelay.toNat ≤ 1000000)) ∧
  70 ≤ s.power.logicThrottle.toNat ∧ s.power.logicThrottle.toNat ≤ 110 ∧ 70 ≤ s.power.dramThrottle.toNat ∧
  s.power.dramThrottle.toNat ≤ 100 ∧ (s.power.tripped = true → s.boot.stage = .aon) ∧ s.spdm.sessions.length ≤ 4

end Sys2Proof.Machine
end

