-- ==== Sys2Proof/Certificates/Slice0/Obligations.lean ====
section
/-!
DEFINITION. Sys2Proof/Certificates/Slice0/Obligations.lean: the statements for the provers.
-/
open Sys2Proof Sys2Proof.Machine

/-! ## Vector instructions (07_vector_engine.md) -/

/-- R144, R145: ADD, SUB, MUL, FMA, MIN, MAX, ABS and NEG write each lane they act on and no other. -/
def Obligations.VecArithLanes : Prop :=
  ∀ (s : State) (t : TileIx) (f : VF),
    let ls := (s.tiles[t].vec).active f
    let i := vfInt f
    let a := s.src t f f.sa
    let b := s.src t f f.sb
    let c := s.src t f f.sc
    (vfOk 0x10 f = true → LanesRun (.vAdd t f) s t f.dst ls fun l => alAdd i (a l) (b l)) ∧
    (vfOk 0x11 f = true → LanesRun (.vSub t f) s t f.dst ls fun l => alSub i (a l) (b l)) ∧
    (vfOk 0x12 f = true → LanesRun (.vMul t f) s t f.dst ls fun l => alMul i (a l) (b l)) ∧
    (vfOk 0x13 f = true → LanesRun (.vFma t f) s t f.dst ls fun l => alFma i (a l) (b l) (c l)) ∧
    (vfOk 0x14 f = true → LanesRun (.vMin t f) s t f.dst ls fun l => alMin i (a l) (b l)) ∧
    (vfOk 0x15 f = true → LanesRun (.vMax t f) s t f.dst ls fun l => alMax i (a l) (b l)) ∧
    (vfOk 0x16 f = true → LanesRun (.vAbs t f) s t f.dst ls fun l => alAbs i (a l)) ∧
    (vfOk 0x17 f = true → LanesRun (.vNeg t f) s t f.dst ls fun l => alNeg i (a l))

/-- R144, R150, R155: DIV, SQRT, RSQ, EXP, LOG, SIG, CVTI, CVTF, RBF, QPARAM and QDEQ, lane by lane; QCODE also adds the error
and the signal of its lanes to TILE_VQ_ERR. -/
def Obligations.VecMathLanes : Prop :=
  ∀ (s : State) (t : TileIx) (f : VF),
    let ls := (s.tiles[t].vec).active f
    let a := s.src t f f.sa
    let b := s.src t f f.sb
    let n := s.src t f f.sa
    let m := s.src t f f.sb
    (vfOk 0x18 f = true → LanesRun (.vDiv t f) s t f.dst ls fun l => alDiv (a l) (b l)) ∧
    (vfOk 0x19 f = true → LanesRun (.vSqrt t f) s t f.dst ls fun l => alSqrt (a l)) ∧
    (vfOk 0x1A f = true → LanesRun (.vRsq t f) s t f.dst ls fun l => alRsq (a l)) ∧
    (vfOk 0x1B f = true → LanesRun (.vExp t f) s t f.dst ls fun l => alExp (a l)) ∧
    (vfOk 0x1C f = true → LanesRun (.vLog t f) s t f.dst ls fun l => alLog (a l)) ∧
    (vfOk 0x1D f = true → LanesRun (.vSig t f) s t f.dst ls fun l => alSig (a l)) ∧
    (vfOk 0x30 f = true → LanesRun (.vCvti t f) s t f.dst ls fun l => alCvti (a l)) ∧
    (vfOk 0x31 f = true → LanesRun (.vCvtf t f) s t f.dst ls fun l => alCvtf (n l)) ∧
    (vfOk 0x32 f = true → LanesRun (.vRbf t f) s t f.dst ls fun l => alRbf (a l)) ∧
    (vfOk 0x38 f = true → LanesRun (.vQparam t f) s t f.dst ls fun l => alQparam (f.imm.toNat % 16) (a l) (b l)) ∧
    (vfOk 0x3A f = true → LanesRun (.vQdeq t f) s t f.dst ls fun l => alQdeq (n l) (m l)) ∧
    (vfOk 0x39 f = true → ∃ u w, exec (.vQcode t f) s = .next u ∧
      VecStep (s.modTile t fun x => { x with vqErr := (qcodeSum s t f).2 ++ (qcodeSum s t f).1 }) u t w ∧
      LaneWrite s.tiles[t].vec w f.dst ls (fun l => (qcodeLane s t f l).1) (fun l => (qcodeLane s t f l).2))

/-- R144: AND, OR, XOR, SHL, SHR and SHRA work on 32 bits with a shift by the low five bits of SB; SEL picks SA where SC is set;
LANEID writes the lane's number. -/
def Obligations.VecLogicLanes : Prop :=
  ∀ (s : State) (t : TileIx) (f : VF),
    let ls := (s.tiles[t].vec).active f
    let a := s.src t f f.sa
    let b := s.src t f f.sb
    let n := fun l => (b l).toNat % 32
    (vfOk 0x28 f = true → LanesRun (.vAnd t f) s t f.dst ls fun l => (a l &&& b l, 0)) ∧
    (vfOk 0x29 f = true → LanesRun (.vOr t f) s t f.dst ls fun l => (a l ||| b l, 0)) ∧
    (vfOk 0x2A f = true → LanesRun (.vXor t f) s t f.dst ls fun l => (a l ^^^ b l, 0)) ∧
    (vfOk 0x2B f = true → LanesRun (.vShl t f) s t f.dst ls fun l => (a l <<< n l, 0)) ∧
    (vfOk 0x2C f = true → LanesRun (.vShr t f) s t f.dst ls fun l => (a l >>> n l, 0)) ∧
    (vfOk 0x2D f = true → LanesRun (.vShra t f) s t f.dst ls fun l => ((a l).sshiftRight (n l), 0)) ∧
    (vfOk 0x23 f = true → LanesRun (.vSel t f) s t f.dst ls fun l =>
      (if (s.tiles[t].vec).predBit f.sc l then s.src t f f.sa l else s.src t f f.sb l, 0)) ∧
    (vfOk 0x40 f = true → LanesRun (.vLaneid t f) s t f.dst ls fun l => (BitVec.ofNat 32 l, 0))

/-- R144, R145, R153: SHFX, SHUP and PERM move lanes, with +0 and PERM_RANGE from beyond VL; BCAST and PCNT write every lane
below VL, PAD every lane from VL up, whatever the predicate. -/
def Obligations.VecMoveLanes : Prop :=
  ∀ (s : State) (t : TileIx) (f : VF),
    let v := s.tiles[t].vec
    let ls := v.active f
    let a := s.src t f f.sa
    let lane (k : Nat) : BitVec 32 × BitVec 5 := if k < v.vl.val then (a k, 0) else (0, lfPerm)
    (vfOk 0x41 f = true → LanesRun (.vShfx t f) s t f.dst ls fun l => lane (l ^^^ f.imm.toNat)) ∧
    (vfOk 0x42 f = true → LanesRun (.vShup t f) s t f.dst ls fun l =>
      if l < f.imm.toNat then (0, 0) else (a (l - f.imm.toNat), 0)) ∧
    (vfOk 0x43 f = true → LanesRun (.vPerm t f) s t f.dst ls fun l => lane (s.src t f f.sb l).toNat) ∧
    (vfOk 0x44 f = true → LanesRun (.vBcast t f) s t f.dst (List.range v.vl.val) fun _ => lane f.imm.toNat) ∧
    (vfOk 0x45 f = true → LanesRun (.vPad t f) s t f.dst ((List.range (1024 - v.vl.val)).map fun i => v.vl.val + i) fun l => (a l, 0)) ∧
    (vfOk 0x4D f = true → LanesRun (.vPcnt t f) s t f.dst (List.range v.vl.val) fun _ =>
      (BitVec.ofNat 32 ((List.range v.vl.val).filter fun l => v.predBit f.sa l).length, 0))

/-- R144, R145: CMPLT, CMPLE, CMPEQ, PAND, POR, PANDN and PFLAG write the predicate bits of the lanes they act on. -/
def Obligations.VecPredicates : Prop :=
  ∀ (s : State) (t : TileIx) (f : VF),
    let v := s.tiles[t].vec
    let ls := v.active f
    let i := vfInt f
    let a := s.src t f f.sa
    let b := s.src t f f.sb
    (vfOk 0x20 f = true → PredRun (.vCmplt t f) s t f.dst ls fun l => alLt i (a l) (b l)) ∧
    (vfOk 0x21 f = true → PredRun (.vCmple t f) s t f.dst ls fun l => alLe i (a l) (b l)) ∧
    (vfOk 0x22 f = true → PredRun (.vCmpeq t f) s t f.dst ls fun l => alEq i (a l) (b l)) ∧
    (vfOk 0x50 f = true → PredRun (.vPand t f) s t f.dst ls fun l => v.predBit f.sa l && v.predBit f.sb l) ∧
    (vfOk 0x51 f = true → PredRun (.vPor t f) s t f.dst ls fun l => v.predBit f.sa l || v.predBit f.sb l) ∧
    (vfOk 0x52 f = true → PredRun (.vPandn t f) s t f.dst ls fun l => v.predBit f.sa l && !v.predBit f.sb l) ∧
    (vfOk 0x53 f = true → PredRun (.vPflag t f) s t f.dst ls fun l => (sget 0 v.flags l).getLsbD (f.imm.toNat % 8))

/-- R134, R142, R144, R145, R153, R154: SETVL, MOVC, CPUSH, CPOP, CMPR, EXPD and END. A CPUSH or a MOVC at VL 0, and a CPUSH
onto a full stack, change nothing; the others at an empty stack change nothing. -/
def Obligations.VecControl : Prop :=
  ∀ (s : State) (t : TileIx) (f : VF),
    let v := s.tiles[t].vec
    let a := s.src t f f.sa
    let lane (k : Nat) : BitVec 32 × BitVec 5 := if k < v.vl.val then (a k, 0) else (0, lfPerm)
    (vfOk 0x4C f = true → VecRun (.vSetvl t f) s t { v with vl := vlOf (a 0).toNat }) ∧
    (vfOk 0x46 f = true → v.vl = 0 → VecRun (.vMovc t f) s t v) ∧
    (vfOk 0x46 f = true → v.vl ≠ 0 → ∃ w, VecRun (.vMovc t f) s t w ∧
      (∀ k, sget 0 w.c k = if k = f.dst.toNat - 0x80 then (lane f.imm.toNat).1.zeroExtend 64 else sget 0 v.c k) ∧
      (∀ l, sget 0 w.flags l = if l = 0 then sget 0 v.flags l ||| (lane f.imm.toNat).2 else sget 0 v.flags l) ∧
      w = { v with c := w.c, flags := w.flags, first := w.first }) ∧
    (vfOk 0x48 f = true → v.vl = 0 ∨ 2 ≤ v.stack.length → VecRun (.vCpush t f) s t v) ∧
    (vfOk 0x48 f = true → v.vl ≠ 0 → v.stack.length < 2 → ∃ m : BitVec 1024,
      (∀ l, m.getLsbD l = (decide (l < v.vl.val) && v.predBit f.sa l)) ∧
      VecRun (.vCpush t f) s t { v with stack := (m, v.vl) :: v.stack, vl := vlOf ((List.range v.vl.val).filter fun l => v.predBit f.sa l).length }) ∧
    (vfOk 0x4B f = true → v.stack = [] → VecRun (.vCpop t f) s t v) ∧
    (vfOk 0x4B f = true → ∀ x r, v.stack = x :: r → VecRun (.vCpop t f) s t { v with vl := x.2, stack := r }) ∧
    (vfOk 0x49 f = true → v.stack = [] ∨ v.vl = 0 → VecRun (.vCmpr t f) s t v) ∧
    (vfOk 0x49 f = true → v.vl ≠ 0 → ∀ x r, v.stack = x :: r →
      LanesRun (.vCmpr t f) s t f.dst (List.range 1024) fun k => ((((topLanes x.1).map a).getD k 0), 0)) ∧
    (vfOk 0x4A f = true → v.stack = [] ∨ v.vl = 0 → VecRun (.vExpd t f) s t v) ∧
    (vfOk 0x4A f = true → v.vl ≠ 0 → ∀ x r, v.stack = x :: r →
      LanesRun (.vExpd t f) s t f.dst (List.range x.2.val) fun l =>
        match idxIn (topLanes x.1) l with
        | some k => lane k
        | none => (s.src t f f.sb l, 0)) ∧
    (vfOk 0x00 f = true → v.ctx.cur + 1 < v.ctx.iter → exec (.vEnd t f) s = .next (s.modVec t fun v =>
      { v with vl := v.ctx.vl, stack := [], ctx := { v.ctx with cur := v.ctx.cur + 1, slot := 0 } })) ∧
    (vfOk 0x00 f = true → v.ctx.iter ≤ v.ctx.cur + 1 → exec (.vEnd t f) s = .next (s.modTile t fun x => { x with
      sticky := x.sticky ||| stickyOf v.allFlags
      vecFirst := if v.allFlags ≠ 0 && !bit x.vecFirst 63 then vecFirstOf v else x.vecFirst
      vec := { v with flags := [], first := none, ctx := { v.ctx with slot := 0 } } }))

/-- R145, R147 to R149: LD gives each lane it acts on the element in memory, +0 in a masked row, and the NaN with ADDR_RANGE
when any element lies outside the model's region; a PLORYN load gives the decoded values, and decodes its blocks whatever its
predicate selects. -/
def Obligations.VecLoad : Prop :=
  ∀ (s : State) (t : TileIx) (f : VF), vfOk 0x01 f = true →
    let v := s.tiles[t].vec
    let ls := v.active f
    let cache := f.mod.getLsbD 3
    let form := f.mod.toNat % 8
    let rows := decide (f.sb = 1)
    let at0 := s.vecAddr t f
    let span := s.vecSpan t cache
    let touch := v.touching f rows
    let blocks := form = 2 ∧ (touch ≠ [] ∨ (v.vl ≠ 0 ∧ v.rowMasked = false))
    (touch = [] → ¬ blocks → LanesRun (.vLd t f) s t f.dst ls fun _ => (0, 0)) ∧
    (touch ≠ [] → form ≠ 2 → inSpan span.2 at0 v.ctx.rowStride form rows touch = true →
      LanesRun (.vLd t f) s t f.dst ls fun l =>
        if rows && v.laneRowMasked (l / 32) then (0, 0)
        else (loadValue form (s.vecGet t cache (span.1 + laneAddr at0 v.ctx.rowStride form rows l) (formBits form / 8)), 0)) ∧
    (touch ≠ [] → form ≠ 2 → inSpan span.2 at0 v.ctx.rowStride form rows touch = false →
      LanesRun (.vLd t f) s t f.dst ls fun _ => (nan32, lfAddr)) ∧
    (blocks → span.2 < at0 + 896 → LanesRun (.vLd t f) s t f.dst ls fun _ => (nan32, lfAddr)) ∧
    (blocks → at0 + 896 ≤ span.2 →
      let r := s.loadBlocks t cache 16 (span.1 + at0)
      ∃ u w, exec (.vLd t f) s = .next u ∧ VecStep { r.2 with pending := s.pending } u t w ∧
        LaneWrite r.2.tiles[t].vec w f.dst ls (fun l => bfTo32 (r.1.getD l 0)) (fun _ => 0))

/-- R120, R145, R147 to R149: ST writes its lanes in ascending order into the scratchpad or the operand cache of its tile and
nothing else; a PLORYN store writes the blocks of the lanes below VL, +0 in those it does not act on, whatever its predicate
selects; when any element lies outside the model's region it writes nothing and raises ADDR_RANGE in its lanes. -/
def Obligations.VecStore : Prop :=
  ∀ (s : State) (t : TileIx) (f : VF), vfOk 0x02 f = true →
    let v := s.tiles[t].vec
    let cache := f.mod.getLsbD 3
    let form := f.mod.toNat % 8
    let rows := decide (f.sb = 1)
    let at0 := s.vecAddr t f
    let span := s.vecSpan t cache
    let touch := v.touching f rows
    let raised := if form = 1 then v.raise (storeFlags (touch.map fun l => (l, v.lane f.sc l))) else v
    let blocks := form = 2 ∧ (touch ≠ [] ∨ (v.vl ≠ 0 ∧ v.rowMasked = false))
    (touch = [] → ¬ blocks → VecRun (.vSt t f) s t v) ∧
    (touch ≠ [] → form ≠ 2 → inSpan span.2 at0 v.ctx.rowStride form rows touch = true → cache = true →
      VecRun (.vSt t f) s t { raised with opc := storeCells v f form rows span.1 at0 v.opc }) ∧
    (touch ≠ [] → form ≠ 2 → inSpan span.2 at0 v.ctx.rowStride form rows touch = true → cache = false →
      ∃ u, exec (.vSt t f) s = .next u ∧ VecStep (s.modTile t fun x =>
        { x with scratch := storeCells v f form rows span.1 at0 x.scratch }) u t raised) ∧
    (touch ≠ [] → form ≠ 2 → inSpan span.2 at0 v.ctx.rowStride form rows touch = false →
      VecRun (.vSt t f) s t (v.raise ((v.active f).map fun l => (l, lfAddr)))) ∧
    (blocks → span.2 < at0 + 56 * cdiv v.vl.val 64 →
      VecRun (.vSt t f) s t (v.raise ((v.active f).map fun l => (l, lfAddr)))) ∧
    (blocks → at0 + 56 * cdiv v.vl.val 64 ≤ span.2 →
      ∃ u, exec (.vSt t f) s = .next u ∧ Same [.tiles] s u ∧
        (∀ k, k < cdiv v.vl.val 64 → u.vecGet t cache (span.1 + at0 + 56 * k) 56 =
          toLE 56 (plorynEncode ((List.range 64).map fun i =>
            if touch.contains (64 * k + i) then to16 (v.lane f.sc (64 * k + i)) else 0)).1) ∧
        (∀ a, u.vecGet t (!cache) a 1 = s.vecGet t (!cache) a 1) ∧
        ∀ a, (a < span.1 + at0 ∨ span.1 + at0 + 56 * cdiv v.vl.val 64 ≤ a) → u.vecGet t cache a 1 = s.vecGet t cache a 1)

/-! ## Sync words (13_sync.md) -/

/-- R290, R293: FILL. A poisoned or a full word stays as it is; an empty word takes the value, every OBSERVE watch and then the
oldest CONSUME watch complete with it, and the word is full unless one consumed it. Nothing else changes. -/
def Obligations.SyncFillEffect : Prop :=
  ∀ (s : State) (w : BitVec 16) (v : BitVec 48), ∃ t, exec (.syncFill w v) s = .next t ∧ t = { s with sync := t.sync } ∧
    (∀ w', w' ≠ w → t.word w' = s.word w') ∧
    (wPoisoned (s.word w) = true → t.sync = { s.sync with result := (syOwnerLost, 0) }) ∧
    (wPoisoned (s.word w) = false → wFull (s.word w) = true → t.sync = { s.sync with result := (syFull, 0) }) ∧
    (wPoisoned (s.word w) = false → wFull (s.word w) = false →
      let obs := s.sync.watches.filter fun k => decide (k.word = w) && k.observe
      let con := s.sync.watches.find? fun k => decide (k.word = w) && !k.observe
      let ends := obs ++ con.toList
      wValue (t.word w) = v ∧ wFull (t.word w) = con.isNone ∧
      (t.word w).extractLsb' 48 15 = (s.word w).extractLsb' 48 15 ∧
      t.sync.completions = s.sync.completions ++ ends.map (fun k => (k, syOk, v)) ∧
      t.sync.watches = s.sync.watches.filter (fun k => !ends.any fun e => decide (e.id = k.id)) ∧
      t.sync = { s.sync with words := t.sync.words, watches := t.sync.watches, completions := t.sync.completions,
                             result := (syOk, 0) })

/-- R290: TAKE and PEEK of a poisoned word return OWNER_LOST; of a full word they return its VALUE, a TAKE emptying it and
keeping VALUE, a PEEK changing nothing. R290, R295, R296: TAKE and PEEK of an empty word register a watch in a free entry, one
below 1,024 only for the hub firmware; with none free they return NO_WATCH, which is counted, and are kept to be repeated. -/
def Obligations.SyncTakePeek : Prop :=
  (∀ (s : State) (w : BitVec 16) (u e : BitVec 3),
     (wPoisoned (s.word w) = true →
       exec (.syncTake w u e) s = .next { s with sync := { s.sync with result := (syOwnerLost, 0) } } ∧
       exec (.syncPeek w u e) s = .next { s with sync := { s.sync with result := (syOwnerLost, 0) } }) ∧
     (wPoisoned (s.word w) = false → wFull (s.word w) = true →
       exec (.syncPeek w u e) s = .next { s with sync := { s.sync with result := (syOk, wValue (s.word w)) } } ∧
       ∃ t, exec (.syncTake w u e) s = .next t ∧ t = { s with sync := t.sync } ∧
         t.sync = { s.sync with words := t.sync.words, result := (syOk, wValue (s.word w)) } ∧
         wFull (t.word w) = false ∧ (t.word w).extractLsb' 0 63 = (s.word w).extractLsb' 0 63 ∧
         ∀ w', w' ≠ w → t.word w' = s.word w')) ∧
  (∀ (s : State) (w : BitVec 16) (u e : BitVec 3), wPoisoned (s.word w) = false → wFull (s.word w) = false →
     let first := if e = 7 then 0 else 1024
     let free := fun id => first ≤ id ∧ id < 16384 ∧ ∀ k ∈ s.sync.watches, k.id ≠ id
     ∀ i ∈ [(Instr.syncTake w u e, false), (Instr.syncPeek w u e, true)], ∃ t, exec i.1 s = .next t ∧
       t = { s with sync := t.sync } ∧ t.sync.words = s.sync.words ∧
       ((∃ id, free id) → ∃ id, free id ∧ t.sync.result = (syWatching, 0) ∧ t.sync.stat = s.sync.stat ∧
         t.sync.watches = s.sync.watches ++
           [{ id := id, observe := i.2, word := w, tenant := wTenant (s.word w), unitHome := u, engine := e,
              registered := s.now.extractLsb' 0 36, limit := s.sync.hangLimit, hung := false }]) ∧
       ((¬∃ id, free id) → t.sync.result = (syNoWatch, 0) ∧ t.sync.watches = s.sync.watches ∧
         t.sync.stat = bump s.sync.stat 0 16 1 ∧
         ∃ r ∈ t.sync.retries, r.word = w ∧ r.unitHome = u ∧ r.engine = e ∧ r.op = if i.2 then 2 else 1))

/-- R290: CLEAR empties a full word and sets its VALUE to 0, and keeps the watches; POISON sets POISONED and completes every
watch on the word with OWNER_LOST; both leave a poisoned word, and CLEAR an empty one, as it is. -/
def Obligations.SyncClearPoison : Prop :=
  ∀ (s : State) (w : BitVec 16),
    (wPoisoned (s.word w) = true →
      exec (.syncClear w) s = .next { s with sync := { s.sync with result := (syOwnerLost, 0) } } ∧
      exec (.syncPoison w) s = .next { s with sync := { s.sync with result := (syOk, 0) } }) ∧
    (wPoisoned (s.word w) = false → wFull (s.word w) = false →
      exec (.syncClear w) s = .next { s with sync := { s.sync with result := (syOk, 0) } }) ∧
    (wPoisoned (s.word w) = false → wFull (s.word w) = true → ∃ t, exec (.syncClear w) s = .next t ∧
      t = { s with sync := { s.sync with words := t.sync.words, result := (syOk, 0) } } ∧
      wFull (t.word w) = false ∧ wValue (t.word w) = 0 ∧
      (t.word w).extractLsb' 48 15 = (s.word w).extractLsb' 48 15 ∧ ∀ w', w' ≠ w → t.word w' = s.word w') ∧
    (wPoisoned (s.word w) = false → ∃ t, exec (.syncPoison w) s = .next t ∧
      let ends := s.sync.watches.filter fun k => decide (k.word = w)
      t = { s with sync := { s.sync with
        words := t.sync.words, result := (syOk, 0)
        watches := s.sync.watches.filter fun k => !ends.any fun e => decide (e.id = k.id)
        completions := s.sync.completions ++ ends.map fun k => (k, syOwnerLost, 0) } } ∧
      wPoisoned (t.word w) = true ∧ wFull (t.word w) = wFull (s.word w) ∧ wValue (t.word w) = wValue (s.word w) ∧
      ∀ w', w' ≠ w → t.word w' = s.word w')

/-- R295, R298, R299: the repeated operations. A DONE FILL that meets a full word again stays, one that succeeds, or finds its
word poisoned, is kept no longer; a repeated TAKE or PEEK of a full word gives its VALUE to the engine that waits, one of an
empty word registers its watch once an entry is free, with the wait's own limit, and stays until then; a held FILL of the
cohort's current step is applied when its word is empty, waits while the word is full or the step is to come, and is dropped as
STALE when the step is over. A place that holds no operation of the kind changes nothing. R302: a wait that has passed its
limit, of a watch, of a repeated operation or of a held FILL, is reported once: HANGS rises by one, the wait goes on and is
marked, and no word, no completion and no request changes. -/
def Obligations.SyncWaits : Prop :=
  (∀ (s : State) (i : Nat),
     (∀ r, s.sync.retries[i]? = some r → r.op = 0 → wPoisoned (s.word r.word) = false →
       (wFull (s.word r.word) = true →
         exec (.doneFillRetry i) s = .next { s with sync := { s.sync with result := (syFull, 0) } }) ∧
       (wFull (s.word r.word) = false → ∃ t, exec (.doneFillRetry i) s = .next t ∧ t = { s with sync := t.sync } ∧
         wValue (t.word r.word) = r.v ∧ t.sync.retries = s.sync.retries.eraseIdx i ∧ t.sync.result = (syOk, 0))) ∧
     (∀ r, s.sync.retries[i]? = some r → r.op = 0 → wPoisoned (s.word r.word) = true → exec (.doneFillRetry i) s =
       .next { s with sync := { s.sync with retries := s.sync.retries.eraseIdx i, result := (syOwnerLost, 0) } }) ∧
     ((∀ r, s.sync.retries[i]? = some r → r.op ≠ 0) → exec (.doneFillRetry i) s = .next s) ∧
     ((∀ r, s.sync.retries[i]? = some r → r.op = 0) → exec (.watchRetry i) s = .next s) ∧
     (∀ r, s.sync.retries[i]? = some r → r.op ≠ 0 → wPoisoned (s.word r.word) = false →
       (wFull (s.word r.word) = true → ∃ t k, exec (.watchRetry i) s = .next t ∧ t = { s with sync := t.sync } ∧
         wFull (t.word r.word) = decide (r.op ≠ 1) ∧ t.sync.retries = s.sync.retries.eraseIdx i ∧
         t.sync.completions = s.sync.completions ++ [(k, syOk, wValue (s.word r.word))] ∧
         k.word = r.word ∧ k.unitHome = r.unitHome ∧ k.engine = r.engine ∧ t.sync.result = (syOk, wValue (s.word r.word))) ∧
       (wFull (s.word r.word) = false → let free := fun id => (if r.engine = 7 then 0 else 1024) ≤ id ∧ id < 16384 ∧ ∀ k ∈ s.sync.watches, k.id ≠ id
         ((∃ id, free id) → ∃ t k, exec (.watchRetry i) s = .next t ∧ t = { s with sync := t.sync } ∧ t.sync.words = s.sync.words ∧
           t.sync.retries = s.sync.retries.eraseIdx i ∧ t.sync.watches = s.sync.watches ++ [k] ∧ free k.id ∧ k.word = r.word ∧
           k.observe = decide (r.op ≠ 1) ∧ k.unitHome = r.unitHome ∧ k.engine = r.engine ∧ k.limit = r.limit ∧ k.hung = r.hung ∧
           t.sync.result = (syWatching, 0)) ∧
         ((¬∃ id, free id) → ∃ t, exec (.watchRetry i) s = .next t ∧ t = { s with sync := t.sync } ∧ t.sync.words = s.sync.words ∧
           t.sync.watches = s.sync.watches ∧ r ∈ t.sync.retries ∧ t.sync.result = (syNoWatch, 0)))) ∧
     (∀ r, s.sync.retries[i]? = some r → r.op ≠ 0 → wPoisoned (s.word r.word) = true → ∃ t k, exec (.watchRetry i) s = .next t ∧
       t = { s with sync := t.sync } ∧ t.sync.words = s.sync.words ∧ t.sync.retries = s.sync.retries.eraseIdx i ∧
       t.sync.completions = s.sync.completions ++ [(k, syOwnerLost, 0)] ∧ k.word = r.word ∧ k.unitHome = r.unitHome ∧
       k.engine = r.engine ∧ t.sync.result = (syOwnerLost, 0)) ∧
     (s.sync.held[i]? = none → exec (.heldFillApply i) s = .next s) ∧
     (∀ h, s.sync.held[i]? = some h →
       let step := (s.stepOf h.model h.cohort).extractLsb' 0 48
       (step < h.v → exec (.heldFillApply i) s = .next s) ∧
       (step = h.v → wPoisoned (s.word h.word) = false → wFull (s.word h.word) = true →
         exec (.heldFillApply i) s = .next s) ∧
       (h.v < step ∨ (step = h.v ∧ wPoisoned (s.word h.word) = true) →
         ∃ t, exec (.heldFillApply i) s = .next t ∧ t = { s with sync := t.sync, ports := t.ports } ∧
           t.sync.words = s.sync.words ∧ t.sync.held = s.sync.held.eraseIdx i ∧
           t.sync.stat = (if h.v < step then bump s.sync.stat 16 16 1 else s.sync.stat) ∧
           t.sync.result = (if h.v < step then (syStale, 0) else (syOwnerLost, 0))) ∧
       (step = h.v → wPoisoned (s.word h.word) = false → wFull (s.word h.word) = false →
         ∃ t, exec (.heldFillApply i) s = .next t ∧ t = { s with sync := t.sync, ports := t.ports } ∧
           wValue (t.word h.word) = h.v ∧ t.sync.held = s.sync.held.eraseIdx i ∧ t.sync.result = (syOk, 0)))) ∧
  (∀ (s : State) (i : Nat) (waited : BitVec 64),
     let reported (kind : BitVec 3) (y : Sync) : Prop := ∃ t, exec (.hangWatch i kind waited) s = .next t ∧ Same [.fns, .sync, .out] s t ∧
       t.sync = { y with stat := bump s.sync.stat 32 16 1 } ∧ exec (.hangWatch i kind waited) t = .next t
     (∀ k : Watch, s.sync.watches[i]? = some k → k.hung = false → k.limit.toNat < waited.toNat →
       reported (if k.observe then 1 else 0) { s.sync with watches := s.sync.watches.set i { k with hung := true } }) ∧
     (∀ r, s.sync.retries[i]? = some r → r.hung = false → r.limit.toNat < waited.toNat →
       reported (if r.op = 0 then 2 else 4) { s.sync with retries := s.sync.retries.set i { r with hung := true } }) ∧
     (∀ h, s.sync.held[i]? = some h → h.hung = false → h.limit.toNat < waited.toNat →
       reported 3 { s.sync with held := s.sync.held.set i { h with hung := true } }))

/-! ## Rings and registers (15_host_rings.md, 19_register_map.md) -/

/-- R343, R394: a doorbell takes an aligned 32-bit write below the ring's size on an enabled ring and nothing else of the ring
changes, but that records held for want of room are written when the ring is one that the hub writes (R347); any other write to
the page is dropped and counted in DB_ERR; while a function is being disabled its writes are dropped uncounted, and before READY
they are counted in DROPPED. -/
def Obligations.DoorbellTaken : Prop :=
  ∀ (s : State) (fn : Fn) (off : BitVec 12) (bytes : Nat) (v : BitVec 32),
    (s.isReady = false → exec (.doorbellWrite fn off bytes v) s =
      .next { s with boot := { s.boot with dropped := satInc s.boot.dropped } }) ∧
    (s.isReady = true → s.fns[fn].disabling = true ∨ s.fns[fn].present = false → exec (.doorbellWrite fn off bytes v) s = .next s) ∧
    (s.isReady = true → s.fns[fn].disabling = false → s.fns[fn].present = true →
      (∀ (k : SetIx) (n : RingIx), off.toNat ≠ 64 * k.val + 8 * n.val) →
      exec (.doorbellWrite fn off bytes v) s = .next (s.modFn fn fun x => { x with stat := bump x.stat 48 16 1 })) ∧
    (s.isReady = true → s.fns[fn].disabling = false → s.fns[fn].present = true →
      ∀ (k : SetIx) (n : RingIx), let r := s.ring fn k n
        (off.toNat = 64 * k.val + 8 * n.val → bytes = 4 → r.enable = true → v.toNat < 2 ^ r.log2.toNat →
          (∃ t, exec (.doorbellWrite fn off bytes v) s = .next t ∧ Same [.fns, .seqs, .out, .held] s t ∧
            (t.ring fn k n).doorbell = v.extractLsb' 0 16 ∧ (t.ring fn k n).enable = true ∧
            ∀ (k' : SetIx) (n' : RingIx), (t.ring fn k' n').base = (s.ring fn k' n').base) ∧
          (n.val < 2 ∨ (s.held = [] ∧ ∀ q ∈ s.seqs, q.state ≠ .ending) →
            exec (.doorbellWrite fn off bytes v) s = .next (s.modRing fn k n fun r => { r with doorbell := v.extractLsb' 0 16 }))) ∧
        (off.toNat = 64 * k.val + 8 * n.val → bytes ≠ 4 ∨ r.enable = false ∨ 2 ^ r.log2.toNat ≤ v.toNat →
          exec (.doorbellWrite fn off bytes v) s =
            .next (s.modFn fn fun x => { x with stat := bump x.stat 48 16 1 })))

/-- R345, R346, R353: the hub takes the entry at INDEX of an enabled ring with room for its completion. An entry that no early
check refuses is open, its completion slot reserved and INDEX past it; an entry whose read fails stops the ring with FAULT,
leaves INDEX where it was and writes one entry of CLASS 0x0E to the log. -/
def Obligations.EntryTaken : Prop :=
  ∀ (s : State) (fn : Fn) (set : SetIx) (admin : Bool) (f : Fetch), s.mayTake fn set admin = true →
    let n : RingIx := if admin then 0 else 1
    let op := eField f.entry (0, 0, 8)
    (f.ok = false → exec (.takeEntry fn set admin f) s =
      .next ((s.modRing fn set n fun r => { r with fault := true, halted := true }).putErrLog
        (errEntry s.now 0x0E 7 4 fn.val (8 * set.val + n.val) 0xFF 0))) ∧
    (f.ok = true → isCritical op = false → entryFault admin f.entry f.sealEntry = none → f.copiesOk = true →
      (admin = false → (s.tenant? fn).isSome = true) →
      exec (.takeEntry fn set admin f) s = .next
        (((s.modRing fn set n fun r => { r with index := r.succ r.index }).modRing fn set 2 fun r =>
            { r with reserved := r.reserved + 1 }).modFn fn fun x => { x with openReqs := x.openReqs ++
              [{ sub := { fn := fn, set := set, tag := BitVec.ofNat 32 (leAt f.entry 4 4) }, admin := admin,
                 opcode := BitVec.ofNat 8 op, handle := if admin then 0 else BitVec.ofNat 32 (leAt f.entry 8 4) }] }))

/-- R342: setting ENABLE with LOG2_SIZE 4 to 16 on a ring that is not in use resets INDEX and the doorbell to 0 and starts PHASE
at 1; outside that range ENABLE stays 0. Clearing ENABLE while requests or records are outstanding keeps it at 1 and is counted
in DB_ERR. R357, R374: when COAL_US has passed, the ring's vector is raised once for the records that wait; when the second of a
locked function is over it takes critical commands again. -/
def Obligations.Rings : Prop :=
  (∀ (s : State) (fn : Fn) (k : SetIx) (n : RingIx) (v : BitVec 64), s.isReady = true → s.fns[fn].present = true →
     s.fns[fn].enabled = true → s.fns[fn].disabling = false →
     (s.held = [] → (∀ q ∈ s.seqs, q.state ≠ .ending) → (s.ring fn k n).enable = false → 4 ≤ fld v 16 5 → fld v 16 5 ≤ 16 →
       ∃ t, exec (.ringEnable fn k n v) s = .next t ∧ (∃ r, t = s.modRing fn k n fun _ => r) ∧
         let r := t.ring fn k n
         r.enable = true ∧ r.index = 0 ∧ r.doorbell = 0 ∧ r.phase = true ∧ r.halted = false ∧
           r.log2 = v.extractLsb' 16 5 ∧ r.vector = v.extractLsb' 26 6 ∧ r.coalUs = v.extractLsb' 40 8 ∧
           r.base = (s.ring fn k n).base) ∧
     ((s.ring fn k n).enable = false → fld v 16 5 < 4 ∨ 16 < fld v 16 5 →
       ∃ t, exec (.ringEnable fn k n v) s = .next t ∧ (t.ring fn k n).enable = false) ∧
     ((s.ring fn k n).enable = true → s.ringBusy fn k n = true →
       ∃ t, exec (.ringDisable fn k n v) s = .next t ∧ (t.ring fn k n).enable = true ∧
         t.fns[fn].stat = bump s.fns[fn].stat 48 16 1) ∧
     (s.ringBusy fn k n = false →
       ∃ t, exec (.ringDisable fn k n v) s = .next t ∧ (t.ring fn k n).enable = false ∧ t.fns[fn].stat = s.fns[fn].stat)) ∧
  (∀ (s : State) (fn : Fn) (k : SetIx) (n : RingIx),
     (2 ≤ n.val → (s.ring fn k n).irqEn = true → 0 < (s.ring fn k n).unsignalled →
       exec (.irqCoalesceTimer fn k n) s = .next ((s.modRing fn k n fun r => { r with unsignalled := 0 }).post
         (.msix fn (s.ring fn k n).vector))) ∧
     (2 ≤ n.val → (s.ring fn k n).unsignalled = 0 → exec (.irqCoalesceTimer fn k n) s = .next s) ∧
     exec (.sealLockExpiry fn) s = .next (s.modFn fn fun x => { x with locked := false, failTimes := [] }))

/-- R420 to R422: a 64-bit read returns the word and clears its RC fields, for the functions that own them; a VF reads zero from
the physical function's pages and changes nothing there. R396, R427: a 64-bit read of LOCAL_TIME returns the count; a 32-bit
read of its low half latches the high half for the next read of that. A 64-bit read of the low half of a log entry latches TIME,
which the read of the high half returns. -/
def Obligations.Reads : Prop :=
  (∀ (s : State) (t : TileIx) (p : PortIx), s.isReady = true →
     exec (.clearingRead 0 0x10408 8) s =
       .next { s with sync := { s.sync with stat := 0 }, boot := { s.boot with readData := s.sync.stat } } ∧
     exec (.clearingRead 0 (BitVec.ofNat 26 (0x80070 + 0x1000 * t.val)) 8) s =
       .next { s.modTile t fun x => { x with vqErr := 0 } with boot := { s.boot with readData := s.tiles[t].vqErr } } ∧
     exec (.clearingRead 0 (BitVec.ofNat 26 (0x10880 + 8 * p.val)) 8) s =
       .next { s.modPort p fun x => { x with stat := 0 } with boot := { s.boot with readData := s.ports[p].stat } } ∧
     exec (.clearingRead 0 (BitVec.ofNat 26 (0x80000 + 0x1000 * t.val)) 8) s =
       .next { s with boot := { s.boot with readData := s.tiles[t].sticky } } ∧
     ∀ v : Fn, v ≠ 0 →
       exec (.clearingRead v 0x2008 8) s =
         .next { s.modFn v fun x => { x with stat := 0 } with boot := { s.boot with readData := s.fns[v].stat } } ∧
       exec (.clearingRead v 0x10408 8) s = .next { s with boot := { s.boot with readData := 0 } }) ∧
  (∀ (s : State) (v : Fn),
     exec (.localTimeRead v 8 false) s = .next { s with boot := { s.boot with readData := s.now } } ∧
     exec (.localTimeRead v 4 false) s = .next { s with boot := { s.boot with
       timeLatch := s.now.extractLsb' 32 32, readData := s.now &&& 0xFFFFFFFF } } ∧
     exec (.localTimeRead v 4 true) s = .next { s with boot := { s.boot with readData := s.boot.timeLatch.setWidth 64 } } ∧
     ∀ n : Fin 64, s.isReady = true →
       exec (.errLogRead n false) s = .next { s with boot := { s.boot with
         errLatch := some (s.boot.errLog[n].extractLsb' 64 64), readData := s.boot.errLog[n].extractLsb' 0 64 } } ∧
       ∀ x, s.boot.errLatch = some x →
         exec (.errLogRead n true) s = .next { s with boot := { s.boot with errLatch := none, readData := x } })

/-- R301, R404, R420, R421, R112, R401: a write of an RW field takes values in its range and ignores others; writing 1 clears a
W1C bit and no other; TILE_KV_LAYER_SEL waits for the next boundary of every cohort that is open, and takes effect at once, its
counters cleared, where none is (R113; which cohorts it waits for is log entry 116); the management controller's CAP keeps to
the part's range. -/
def Obligations.RegisterWrites : Prop :=
  ∀ (s : State) (t : TileIx) (v : BitVec 64), s.isReady = true →
    let top := if s.boot.partE then 1100 else 1500
    let limit := if 10 ≤ fld v 0 20 ∧ fld v 0 20 ≤ 1000000 then v.extractLsb' 0 20 else s.sync.hangLimit
    let cap (w : BitVec 12) : BitVec 12 := if 600 ≤ w.toNat ∧ w.toNat ≤ top then w else s.power.cap
    exec (.registerWrite 0 0x10400 8 v) s = .next (s.modSync fun x => { x with hangLimit := limit }) ∧
    exec (.registerWrite 0 0x10008 8 v) s = .next (s.modPower fun x => { x with cap := cap (v.extractLsb' 0 12) }) ∧
    (∀ w : BitVec 12, exec (.pldmCapSet w) s = .next (s.modPower fun x => { x with cap := cap w })) ∧
    (∃ u, exec (.registerWrite 0 (BitVec.ofNat 26 (0x80000 + 0x1000 * t.val)) 8 v) s = .next u ∧
      (∃ x, u = s.modTile t fun y => { y with sticky := x }) ∧
      ∀ i, u.tiles[t].sticky.getLsbD i = (s.tiles[t].sticky.getLsbD i && !(decide (1 ≤ i ∧ i ≤ 8) && v.getLsbD i))) ∧
    (∀ w : BitVec 32,
      (s.cohorts = [] → exec (.kvLayerSelect t w) s = .next (s.modTile t fun x =>
        { x with kvLayerSel := w &&& 0x1FF, kvLayerNext := none, kvErr := 0, kvGroups := 0 })) ∧
      (s.cohorts ≠ [] → exec (.kvLayerSelect t w) s = .next (s.modTile t fun x =>
        { x with kvLayerNext := some (w &&& 0x1FF, s.cohorts.map fun k => (k.model, k.index)) }))) ∧
    (∀ f : Fn, f ≠ 0 → exec (.registerWrite f 0x10400 8 v) s = .next s)

/-! ## PCIe, resets and bring-up (15_host_rings.md, 17_bringup_clocks_power.md, 20_package_electrical.md) -/

/-- R347, R286: Bus Master Enable off keeps a function from writing; on again, the records held for it are written in the order
in which they fell due, a completion with SQ_HEAD and TIME as they stand when it is written (R354); a VF that VF Enable brings
appears and, at READY with the link up, is enabled. -/
def Obligations.PcieEnables : Prop :=
  ∀ (s : State) (f : Fn),
    exec (.bmeClear f) s = .next (s.modFn f fun x => { x with bme := false }) ∧
    (s.fns[f].present = true → s.held = [] → (∀ q ∈ s.seqs, q.state ≠ .ending) → exec (.bmeSet f) s = .next (s.modFn f fun x => { x with bme := true, mse := true })) ∧
    (s.fns[f].present = true → ∀ k w, s.held = [.completion f k w] → (s.ring f k 2).room = true → (s.ring f k 2).irqEn = false →
      ∃ u i, exec (.bmeSet f) s = .next u ∧ u.held = [] ∧ u.fns[f].bme = true ∧
        u.out = s.out ++ [.completion f k (s.ring f k 2).index i] ∧ (∀ b : Nat, b ≠ 63 → ¬ (96 ≤ b ∧ b < 112) → ¬ (256 ≤ b ∧ b < 320) → i.getLsbD b = w.getLsbD b) ∧
        i.extractLsb' 96 16 = BitVec.ofNat 16 (s.ring f k (if bit w 50 then 0 else 1)).index.toNat ∧ i.extractLsb' 256 64 = s.now ∧
        i.getLsbD 63 = (s.ring f k 2).phase ∧ (u.ring f k 2).index = (s.ring f k 2).succ (s.ring f k 2).index) ∧
    (∀ n : Fn, ∃ u, exec (.vfEnableSet n) s = .next u ∧
      (∀ g : Fn, g ≠ 0 → g ≤ n → u.fns[g].present = true ∧ u.fns[g].mse = true ∧
        (s.isReady = true → s.pins.pcieUp = true → s.fns[g].disabling = false → u.fns[g].enabled = true)) ∧
      ∀ g : Fn, g = 0 ∨ n < g → u.fns[g] = s.fns[g]) ∧
    ((∀ g : Fn, g ≠ 0 → s.fns[g].enabled = false ∧ s.fns[g].disabling = false) →
      ∃ u, exec .vfEnableClear s = .next u ∧ u = { s with fns := u.fns } ∧
        (∀ g : Fn, g ≠ 0 → u.fns[g] = { s.fns[g] with present := false, bme := false, mse := false }) ∧ u.fns[(0 : Fin 16)] = s.fns[(0 : Fin 16)])

/-- R362, R363: an FLR of a function that has nothing in progress ends at once: its rings are as at reset but for RING_BASE, its
open requests and its sequences are gone, and it may use its rings again; an FLR before READY only resets configuration space,
and of a function that is not there does nothing. -/
def Obligations.FunctionReset : Prop :=
  ∀ (s : State) (f : Fn),
    (s.fns[f].present = false → exec (.flr f) s = .next s) ∧
    (s.fns[f].present = true → f ≠ 0 → s.isReady = false →
      exec (.flr f) s = .next (s.modFn f fun x => { x with bme := false })) ∧
    (s.fns[f].present = true → f ≠ 0 → s.isReady = true → s.fns[f].disabling = false → s.quietFor f →
      s.fns[(0 : Fin 16)].disabling = false → s.fns[(0 : Fin 16)].flrActive = false →
      ∃ u, exec (.flr f) s = .next u ∧ ResetFn s u f ∧ u.fns[f].bme = false ∧ u.fns[f].enabled = s.pins.pcieUp) ∧
    (s.fns[(0 : Fin 16)].present = true → s.isReady = true → s.fns[(0 : Fin 16)].disabling = false → s.quietFor 0 →
      (∀ g : Fn, g ≠ 0 → s.fns[g].present = false ∧ s.fns[g].disabling = false) →
      ∃ u, exec (.flr 0) s = .next u ∧ ResetFn s u 0 ∧ u.fns[(0 : Fin 16)].bme = false ∧ u.fns[(0 : Fin 16)].enabled = s.pins.pcieUp) ∧
    (s.fns[f].disabling = false → exec (.disableTimeout f) s = .next s) ∧
    (s.fns[f].disabling = true → f ≠ 0 → s.fns[f].present = true → s.fns[f].flrActive = false → s.quietFor f → s.fns[(0 : Fin 16)].disabling = false →
      ∃ u, exec (.disableTimeout f) s = .next u ∧ ResetFn s u f ∧ u.fns[f].bme = s.fns[f].bme ∧ u.fns[f].enabled = s.pins.pcieUp)

/-- R362, R413, R442: with the link lost every function is disabled: each is off the bus but the PF, none masters the bus, and
each has ended or goes on with R362 while rows of it run; the package keeps its stage. A PF with nothing in progress ends at
once, its rings as at reset but for RING_BASE and its sequences gone. The loss is logged once, at READY; a link that is down
cannot be lost. DL_UP brings the link back while PERST_N is high, and at READY enables the PF, unless it is still being
disabled. -/
def Obligations.LinkLost : Prop :=
  ∀ (s : State),
    (s.pins.pcieUp = false → exec .dlDown s = .next s ∧
      exec .refclkLoss s = .next { s with pins := { s.pins with refclk := false } }) ∧
    (s.pins.pcieUp = true → (∀ g : Fn, s.fns[g].enabled = false ∧ s.fns[g].disabling = false) →
      let t := if s.isReady then s.logError 0x0F 7 4 (((vfs ++ [0]).find? fun (g : Fn) => !s.fns[g].openReqs.isEmpty).getD 0).val 0 0xFF 0 else s
      ∃ u, exec .dlDown s = .next u ∧ u = { t with fns := u.fns, pins := { s.pins with pcieUp := false } } ∧
        (∀ g : Fn, u.fns[g] = { s.fns[g] with present := decide (g = 0), bme := false, mse := false }) ∧
        exec .refclkLoss s = .next { u with pins := { s.pins with pcieUp := false, refclk := false } }) ∧
    (s.pins.pcieUp = true → ∃ u, exec .dlDown s = .next u ∧
      exec .refclkLoss s = .next { u with pins := { s.pins with pcieUp := false, refclk := false } } ∧
      u.pins = { s.pins with pcieUp := false } ∧ u.boot.stage = s.boot.stage ∧
      (∀ g : Fn, u.fns[g].present = decide (g = 0) ∧ u.fns[g].bme = false ∧ u.fns[g].mse = false ∧
        (u.fns[g].enabled = false ∨ u.fns[g].disabling = true)) ∧
      (s.fns[(0 : Fin 16)].enabled = true → s.fns[(0 : Fin 16)].disabling = false → s.fns[(0 : Fin 16)].flrActive = false → s.quietFor 0 →
        (∀ g : Fn, g ≠ 0 → s.fns[g].enabled = false ∧ s.fns[g].disabling = false) →
        ResetFn s u 0 ∧ u.fns[(0 : Fin 16)].enabled = false)) ∧
    (s.pins.perstN = true → s.isReady = true → s.fns[(0 : Fin 16)].disabling = false → s.fns[(0 : Fin 16)].enabled = false →
      ∃ u, exec .dlUp s = .next u ∧ Same [.fns, .sync, .pins] s u ∧ u.pins = { s.pins with pcieUp := true, refclk := true } ∧
        u.fns = s.fns.set 0 { s.fns[(0 : Fin 16)] with enabled := true }) ∧
    (s.isReady = false ∨ s.pins.perstN = false ∨ s.fns[(0 : Fin 16)].disabling = true ∨ s.fns[(0 : Fin 16)].enabled = true →
      exec .dlUp s = .next { s with pins := { s.pins with pcieUp := s.pins.perstN, refclk := true } })

/-- R381, R393, R405, R410, R418, R436, R438, R442: what an entry to AON keeps and what it resets; PERST_N, RESET_N, a rail, the
always-on clock and the supply each cause one; PERST_N high ends the hold. After a reset of any kind the Mirror slots, in which
tenants, slices and the wiring plan persist, the command keys, and the images in flash with their keys are there; sequences,
with the records of their swaps, loads, cohorts and live slices are not (R418; SECURE_BOOT takes the booted slot's contents:
SecureBoot). -/
def Obligations.PackageReset : Prop :=
  ∀ (s : State),
    (s.pins.powered = true →
      (∃ u, exec .perstN s = .next u ∧ EntersAon s u true ∧ u.boot.localTime = s.boot.localTime ∧ u.pins.perstN = false ∧ u.pins.pcieUp = false) ∧
      (∃ u, exec .resetN s = .next u ∧ EntersAon s u (!s.pins.perstN) ∧ u.boot.localTime = s.boot.localTime ∧ u.pins.resetN = false ∧
        u.pins.pcieUp = s.pins.pcieUp)) ∧
    (s.pins.powered = false →
      exec .perstN s = .next { s with pins := { s.pins with perstN := false } } ∧
      exec .resetN s = .next { s with pins := { s.pins with resetN := false } }) ∧
    exec .perstNHigh s = .next { s with pins := { s.pins with perstN := true } } ∧
    (∃ u, exec .powerLoss s = .next u ∧ EntersAon s u true ∧ u.boot.localTime = 0 ∧ u.boot.pkgFault = 0 ∧ u.pins.rails = 0 ∧
      u.pins.thermAlertN = false ∧ u.pins.pcieUp = false) ∧
    (∀ r : Fin 10, ∃ u, exec (.railFault r) s = .next u ∧ EntersAon s u true ∧
      u.boot.localTime = (if r = 0 then 0 else s.boot.localTime) ∧ u.pins.rails.getLsbD r.val = false ∧ u.pins.powered = false) ∧
    (∃ u, exec .aonRefclkLoss s = .next u ∧ EntersAon s u true ∧ u.boot.localTime = s.boot.localTime ∧ u.pins.aonRefclk = false ∧
      u.pins.powered = false)

/-- R4, R393, R395, R256, R266, R320, R286: the stages in their order. AON ends with the resets released and the straps sampled;
DRAM_TRAIN records the flash channels, with 8 targets each at most, and stops at a pseudo-channel that fails and at a catalogue
that is lost; LINK_TRAIN ends when every expected port is UP or after its second; READY enables the functions that exist. A
command of another stage changes nothing. -/
def Obligations.BringupStages : Prop :=
  ∀ (s : State),
    let atMost (tg : Vector (BitVec 4) 32) : Vector (BitVec 4) 32 := tg.map fun n => if n ≤ 8 then n else 8
    (∀ a b, s.boot.stage = .aon → s.pins.perstN = true → s.power.tripped = false →
      exec (.aon a b) s = .next { s with
        boot := { s.boot with stage := .secureBoot, slotId := a, boardId := b }
        pins := { s.pins with rails := 0x3FF, aonRefclk := true, resetN := true, thermAlertN := true,
                              pcieUp := s.pins.pcieUp || s.pins.refclk } }) ∧
    (∀ a b, s.boot.stage ≠ .aon ∨ s.pins.perstN = false ∨ s.power.tripped = true → exec (.aon a b) s = .next s) ∧
    (s.boot.stage = .dramTrain → s.boot.failed = false → ∀ ch tg,
      (s.flash.catalogueSeq = 0 → ∃ u, exec (.dramTrain none false ch tg false) s = .next u ∧
        u.boot = { s.boot with stage := .linkTrain } ∧ u.flash = { s.flash with chan := ch, targets := atMost tg }) ∧
      (∃ u, exec (.dramTrain none false ch tg true) s = .next u ∧ u.boot = { s.boot with stage := .linkTrain } ∧
        u.flash = { s.flash with chan := ch, targets := atMost tg }) ∧
      (s.flash.catalogueSeq ≠ 0 → ∃ u, exec (.dramTrain none false ch tg false) s = .next u ∧
        u.boot = { s.boot with failed := true, failCode := 0x12, failArg := 0 }) ∧
      (∀ pc ok, exec (.dramTrain (some pc) false ch tg ok) s =
        .next { s with boot := { s.boot with failed := true, failCode := 0x10, failArg := pc.setWidth 12 } }) ∧
      (∀ pc ok, ∃ u, exec (.dramTrain (some pc) true ch tg ok) s = .next u ∧
        u.boot = { (s.logError 0x02 15 5 0 pc.toNat 0xFF 0).boot with failed := true, failCode := 0x11, failArg := pc.setWidth 12 })) ∧
    (s.boot.stage = .linkTrain → ∀ r,
      ∃ u, exec (.linkTrain r) s = .next u ∧ u.boot = { s.boot with trained := s.boot.trained || u.allExpectedUp } ∧
        (s.pins.mrefclk = false → u.ports = s.ports)) ∧
    (s.boot.stage = .linkTrain → ∃ u, exec .linkTrainTimeout s = .next u ∧ u.boot = { s.boot with trained := true } ∧
      ∀ p : PortIx, u.ports[p] = { s.ports[p] with
        missingSent := s.ports[p].missingSent || ((s.expected p).isSome && !s.portUp p) }) ∧
    (s.boot.stage = .linkTrain → s.boot.trained = true → ∃ u, exec .ready s = .next u ∧ u.boot = { s.boot with stage := .ready } ∧
      (∀ f : Fn, u.fns[f] = { s.fns[f] with enabled := s.fns[f].enabled || (s.fns[f].present && s.pins.pcieUp) }) ∧
      ∀ m : SlotIx, if s.models[m].state = .incomplete then u.models[m].state = .erasing ∨ u.models[m].state = .empty
        else u.models[m].state = s.models[m].state) ∧
    (s.boot.stage ≠ .linkTrain → (∀ r, exec (.linkTrain r) s = .next s) ∧ exec .linkTrainTimeout s = .next s ∧ exec .ready s = .next s) ∧
    (s.boot.stage ≠ .dramTrain → ∀ p u ch tg ok, exec (.dramTrain p u ch tg ok) s = .next s)

/-- R366, R368, R383, R393, R395, R418: SECURE_BOOT boots the valid slot, an UNCONFIRMED one counted in BOOTS and REVERTED at
its fourth boot; its tenants, slices and wiring plan are the live ones, the slices DOWN until the ports give them routes;
without a valid slot the factory configuration boots from bank 0; without either, or with the device secret blank, bring-up
stops. -/
def Obligations.SecureBoot : Prop :=
  ∀ (s : State) (ks : List (BitVec 256)), s.boot.stage = .secureBoot → s.boot.failed = false →
    let stops (code : BitVec 8) (u : State) : Prop := u.boot = { s.boot with failed := true, failCode := code, failArg := 0 }
    let boots (live : Cfg) (u : State) : Prop := u.boot = { s.boot with stage := .dramTrain } ∧ u.um.live = live ∧
      u.um.next = s.um.ceiling ∧ u.um.swapCounter = s.um.swapReserved ∧ u.scrubHours = live.scrubHours ∧ u.rateLimit = live.rateLimit ∧
      u.sync = { s.sync with hangLimit := live.hangLimit } ∧
      u.slices = (live.slices.filter fun x => decide (x.state ≠ .pending)).map Slice.rebooted
    (∃ u, exec (.secureBoot true ks) s = .next u ∧ stops 0x02 u) ∧
    (s.um.slotB = none → ∀ m b, s.um.slotA = some m → s.um.slotValid (some m) = true → s.um.bankFor m = some b → s.um.bankOk b = true →
      (m.state = 0 → ∃ u, exec (.secureBoot false ks) s = .next u ∧ boots m.cfg u ∧ u.um.slotA = some m ∧ u.um.booted = false ∧
        u.um.factory = false ∧ u.um.activeBank = m.cfg.fwBank ∧ u.um.fusedSvn = max s.um.fusedSvn b.svn.toNat) ∧
      (m.state = 1 → m.boots ≠ 3 → ∃ u, exec (.secureBoot false ks) s = .next u ∧ boots m.cfg u ∧
        u.um.slotA = some { m with boots := m.boots + 1 } ∧ u.um.factory = false ∧ u.um.fusedSvn = s.um.fusedSvn) ∧
      (m.state = 1 → m.boots = 3 → (s.um.banks[(0 : Fin 2)].any s.um.bankOk) = true →
        ∃ u, exec (.secureBoot false ks) s = .next u ∧ boots {} u ∧ u.um.slotA = some { m with state := 2 } ∧
          u.um.autoReverted = true ∧ u.um.factory = true)) ∧
    (s.um.slotValid s.um.slotA = false → s.um.slotValid s.um.slotB = false →
      ((s.um.banks[(0 : Fin 2)].any s.um.bankOk) = true →
        ∃ u, exec (.secureBoot false ks) s = .next u ∧ boots {} u ∧ u.um.factory = true ∧ u.um.activeBank = false) ∧
      ((s.um.banks[(0 : Fin 2)].any s.um.bankOk) = false → ∃ u, exec (.secureBoot false ks) s = .next u ∧ stops 0x01 u)) ∧
    (∀ t : State, t.boot.stage ≠ .secureBoot ∨ t.boot.failed = true → ∀ blank, exec (.secureBoot blank ks) t = .next t)

/-! ## Power, temperature, clocks and fatal errors (17_bringup_clocks_power.md, 18_faults_availability.md) -/

/-- R400, R401, R404: each interval lowers P_k by one above CAP, to no less than 4, raises it after ten intervals in a row more
than 50 W below it, and puts in force the least of the limits; THERM_ALERT_N is low while one of them other than the pin holds k
back. R402, R403: readings set TEMP and raise MAX of every sensor; T_k falls by one to no less than 4 with a sensor at its
threshold and rises after ten milliseconds with all 3 °C below theirs. A sensor at its trip point stops the package, and a
hundred cool milliseconds in a row end the stop. R398, R399, R328, R442: the tile clocks stop when PLL_OFF_DELAY has passed
without a model loaded, unless it is 0; an engine idle for 4,096 cycles is gated unless it waits on a sync word; without MREFCLK
every port goes DOWN, and with it back they train. -/
def Obligations.PowerAndClocks : Prop :=
  (∀ (s : State) (w : BitVec 12) (pin : Bool), s.boot.stage ≠ .aon →
     ∃ u, exec (.powerInterval w pin) s = .next u ∧
       (s.power.cap.toNat < w.toNat → u.power.pk = max 4 (s.power.pk - 1) ∧ u.power.below = 0) ∧
       (w.toNat ≤ s.power.cap.toNat → s.power.cap.toNat ≤ w.toNat + 50 → u.power.pk = s.power.pk ∧ u.power.below = 0) ∧
       (w.toNat + 50 < s.power.cap.toNat → s.power.below < 9 → u.power.pk = s.power.pk ∧ u.power.below = s.power.below + 1) ∧
       (w.toNat + 50 < s.power.cap.toNat → 9 ≤ s.power.below → u.power.pk = min s.partK (s.power.pk + 1) ∧ u.power.below = 0) ∧
       u.power.k = min (min s.partK u.power.pk) (min s.power.tk (if pin then 16 else 8)) ∧
       u.power.throttled = (if u.power.k < s.partK ∧ s.power.throttled ≠ 0xFFFF then s.power.throttled + 1 else s.power.throttled) ∧
       u.power.watts = w ∧ u.power.tk = s.power.tk ∧ u.power.thermal = s.power.thermal ∧ u.power.cap = s.power.cap ∧
       u.power.tileClk = s.power.tileClk ∧
       u.pins = { s.pins with throttleInN := pin, thermAlertN := !decide (min u.power.pk s.power.tk < s.partK) } ∧
       (s.partK ≤ u.power.k → s.power.lastEvent = none → u.out = s.out ∧ u.fns = s.fns)) ∧
  (∀ (s : State) (temps : Vector (BitVec 16) 13),
     let hot (x : Power) : Prop := ∃ i : Fin 13, 16 * (if i.val < 5 then x.logicThrottle.toNat else x.dramThrottle.toNat) ≤ (temps[i]).toNat
     let cold (x : Power) : Prop := ∀ i : Fin 13, (temps[i]).toNat + 48 ≤ 16 * (if i.val < 5 then x.logicThrottle.toNat else x.dramThrottle.toNat)
     (trips temps = true ↔ ∃ i : Fin 13, (if i.val < 5 then 1840 else 1680) ≤ (temps[i]).toNat) ∧
     (s.boot.stage ≠ .aon → trips temps = false → ∃ u, exec (.thermalInterval temps) s = .next u ∧ u = { s with power := u.power } ∧
       (∀ i : Fin 13, (u.power.thermal[i]).extractLsb' 0 16 = temps[i] ∧
         (u.power.thermal[i]).extractLsb' 16 16 = (if ((s.power.thermal[i]).extractLsb' 16 16).toNat ≤ (temps[i]).toNat then temps[i]
           else (s.power.thermal[i]).extractLsb' 16 16)) ∧
       (hot s.power → u.power.tk = max 4 (s.power.tk - 1) ∧ u.power.cool = 0) ∧
       (¬ hot s.power → ¬ cold s.power → u.power.tk = s.power.tk ∧ u.power.cool = 0) ∧
       (¬ hot s.power → cold s.power → s.power.cool < 9 → u.power.tk = s.power.tk ∧ u.power.cool = s.power.cool + 1) ∧
       (¬ hot s.power → cold s.power → 9 ≤ s.power.cool → u.power.tk = min 16 (s.power.tk + 1) ∧ u.power.cool = 0) ∧
       u.power = { s.power with thermal := u.power.thermal, tk := u.power.tk, cool := u.power.cool }) ∧
     (trips temps = true → s.power.tripped = false → s.pins.powered = true →
       ∃ u, exec (.thermalTrip temps) s = .next u ∧ EntersAon s u true ∧ u.power.tripped = true ∧ u.pins.thermAlertN = false ∧
         u.um.lastTrip = true ∧ (s.boot.stage ≠ .aon → exec (.thermalInterval temps) s = .next u)) ∧
     (trips temps = false → exec (.thermalTrip temps) s = .next s) ∧
     (s.power.tripped = false → exec (.tripRestart temps) s = .next s) ∧
     (s.power.tripped = true → (∃ i : Fin 13, (if i.val < 5 then 1840 else 1680) < (temps[i]).toNat + 240) →
       exec (.tripRestart temps) s = .next (s.modPower fun x => { x with tripCool := 0 })) ∧
     (s.power.tripped = true → (∀ i : Fin 13, (temps[i]).toNat + 240 ≤ if i.val < 5 then 1840 else 1680) →
       (s.power.tripCool < 99 → exec (.tripRestart temps) s = .next (s.modPower fun x => { x with tripCool := x.tripCool + 1 })) ∧
       (99 ≤ s.power.tripCool → exec (.tripRestart temps) s = .next { s with
         power := { s.power with tripped := false, tripCool := 0 }, pins := { s.pins with thermAlertN := s.pins.powered } }))) ∧
  (∀ (s : State) (t : TileIx) (e : BitVec 3),
     (s.loadedCount = 0 → s.power.pllOffDelay ≠ 0 → exec .pllOffTimer s = .next { s with power := { s.power with tileClk := 0 } }) ∧
     (s.loadedCount ≠ 0 ∨ s.power.pllOffDelay = 0 → exec .pllOffTimer s = .next s) ∧
     (fld s.power.tileClk (2 * t.val) 2 = 2 → e ≠ 7 →
       (∀ k ∈ s.sync.watches, ¬(k.unitHome.toNat = t.val + 1 ∧ k.engine = e)) →
       (∀ k ∈ s.sync.retries, ¬(k.unitHome.toNat = t.val + 1 ∧ k.engine = e)) →
       exec (.engineGate t e) s = .next (s.modTile t fun x => { x with gated := setBit x.gated e.toNat })) ∧
     ((∃ k ∈ s.sync.watches, k.unitHome.toNat = t.val + 1 ∧ k.engine = e) → exec (.engineGate t e) s = .next s) ∧
     ((∀ p : PortIx, portState s.ports[p] = 0) → exec .mrefclkLoss s = .next { s with pins := { s.pins with mrefclk := false } }) ∧
     (∃ u, exec .mrefclkLoss s = .next u ∧ u.pins = { s.pins with mrefclk := false } ∧ ∀ p : PortIx, portState u.ports[p] = 0) ∧
     (∀ r, ∃ u, exec (.mrefclkReturn r) s = .next u ∧ u.pins = { s.pins with mrefclk := true } ∧
       (s.boot.stage ≠ .linkTrain → s.isReady = false → u.ports = s.ports) ∧
       ∀ p : PortIx, portState s.ports[p] ≠ 0 → u.ports[p] = s.ports[p]))

/-- R408, R410, R412, R414: a package fatal error completes what it can with FATAL, counts in PKG_FAULT with its CLASS, and
begins AON by a self-reset, its entry the first of the log; a watchdog expiry does the same without completing anything. An
uncorrectable word of hub memory is one; a word of a tile's is counted in TILE_SRAM_ECC, a sync word of it emptied with nothing
left waiting on it. -/
def Obligations.FatalErrors : Prop :=
  ∀ (s : State),
    let fatal (cls unit : Nat) (u : State) : Prop := EntersAon s u false ∧
      u.boot.pkgFault = setBit (setFld (bump s.boot.pkgFault 48 16 1) 40 8 cls) 0 ∧
      u.boot.errLog[(0 : Fin 64)] = errEntry s.now cls unit 5 0 0 0xFF 0 ∧ u.boot.errCtl = 1 ∧ u.boot.localTime = s.boot.localTime ∧
      HostOut.aerInternal ∈ u.out
    (s.boot.stage ≠ .aon → s.boot.stage ≠ .secureBoot →
      (∃ u, exec (.packageFatal 0x05) s = .next u ∧ fatal 0x05 4 u) ∧
      (∃ u, exec (.packageFatal 0x11) s = .next u ∧ fatal 0x11 15 u) ∧
      (∃ u, exec .watchdogExpiry s = .next u ∧ fatal 0x10 4 u ∧ u.out = s.out ++ [.aerInternal]) ∧
      ∀ r : SramRead, r.place = .hub ∨ (∃ w, r.place = .tileSync w ∧ wordHome w = 0) →
        ∃ u, exec (.sramUncorrectable r) s = .next u ∧ fatal 0x05 4 u) ∧
    (s.boot.stage = .aon ∨ s.boot.stage = .secureBoot →
      (∀ c, exec (.packageFatal c) s = .next s) ∧ exec .watchdogExpiry s = .next s) ∧
    ∀ r : SramRead,
      (∀ m, r.place = .tileData m → ∃ u, exec (.sramUncorrectable r) s = .next u ∧ Same [.seqs, .tiles, .boot] s u ∧
        u.tiles = s.tiles.set r.tile { s.tiles[r.tile] with sramEcc := bump (s.tiles[r.tile]).sramEcc 48 16 1 } ∧
        (s.cohort? r.model r.cohort = none → u.seqs = s.seqs ∧ u.boot = s.boot)) ∧
      (∀ m, r.place = .tileModelData m → ∃ u, exec (.sramUncorrectable r) s = .next u ∧ Same [.seqs, .tiles, .boot] s u ∧
        (u.tiles[r.tile]).sramEcc = bump (s.tiles[r.tile]).sramEcc 48 16 1) ∧
      (∀ w, r.place = .tileSync w → wordHome w ≠ 0 → ∃ u, exec (.sramUncorrectable r) s = .next u ∧
        u.tiles = s.tiles.set r.tile { s.tiles[r.tile] with sramEcc := bump (s.tiles[r.tile]).sramEcc 48 16 1 } ∧
        wFull (u.word w) = false ∧ wPoisoned (u.word w) = false ∧ wValue (u.word w) = 0 ∧
        (∀ k ∈ u.sync.watches, k.word ≠ w) ∧ (∀ k ∈ u.sync.retries, k.word ≠ w) ∧ ∀ k ∈ u.sync.held, k.word ≠ w)

/-! ## Sideband and test port (16_security_config.md, 20_package_electrical.md) -/

/-- R370, R371: a transport that reaches Umathal negotiates in order, GET_VERSION, GET_CAPABILITIES, NEGOTIATE_ALGORITHMS, and
then answers digests, certificates, challenges and measurements; slots other than 0 are empty; what comes too early, or asks for
what is not there, is answered with an error. That a request that comes too early is answered so is the model's choice (log
entry 76). -/
def Obligations.SpdmNegotiation : Prop :=
  ∀ (s : State) (t : Transport), s.reaches t = true →
    let n := s.phaseOf t
    let after (next : Nat) (r : SpdmOut) : State := { s with spdm := { s.spdm with
      phase := s.spdm.phase.set (transportIx t) next, out := s.spdm.out ++ [(t, r)] } }
    let err : State := { s with spdm := { s.spdm with out := s.spdm.out ++ [(t, .error)] } }
    exec (.getVersion t) s = .next (after 1 .version) ∧
    (1 ≤ n → exec (.getCapabilities t) s = .next (after 2 .capabilities)) ∧
    (2 ≤ n → exec (.negotiateAlgorithms t true) s = .next (after 3 .algorithms)) ∧
    (3 ≤ n → exec (.getDigests t) s = .next (after 3 (.digests 0x01)) ∧
      (∀ o l, exec (.getCertificate t 0 o l) s = .next (after 3 (.certificate 0 o l))) ∧
      (∀ x, exec (.challenge t 0 x) s = .next (after 3 (.challengeAuth 0 x))) ∧
      (∀ k o l, k ≠ 0 → exec (.getCertificate t k o l) s = .next (after 3 .error)) ∧
      (∀ k x, k ≠ 0 → exec (.challenge t k x) s = .next (after 3 .error)) ∧
      exec (.getMeasurements t 5) s = .next (after 3 (.measurements 5 (toLE 8 s.um.loupeSets.toNat))) ∧
      (∀ b, s.um.banks[Fin.ofNat 2 (b2n s.um.activeBank)] = some b →
        exec (.getMeasurements t 2) s = .next (after 3 (.measurements 2 (toLE 64 b.digest.toNat))) ∧
        exec (.getMeasurements t 3) s = .next (after 3 (.measurements 3
          (toLE 4 b.version.toNat ++ toLE 4 b.svn.toNat ++ toLE 4 s.um.fusedSvn)))) ∧
      exec (.getMeasurements t 0) s = .next (after 3 .error)) ∧
    (n < 1 → exec (.getCapabilities t) s = .next err) ∧
    (n < 2 → exec (.negotiateAlgorithms t true) s = .next err) ∧
    (n < 3 → exec (.getDigests t) s = .next err)

/-- R337, R370: KEY_EXCHANGE opens a session while fewer than four are open, and a fifth is refused; FINISH establishes it, or
ends it when its verify data is wrong; an established session answers HEARTBEAT, KEY_UPDATE and END_SESSION, which ends it, and
over DOE takes the IDE key of a stream. -/
def Obligations.SpdmSessions : Prop :=
  ∀ (s : State),
    (∀ t q, s.reaches t = true → 3 ≤ s.phaseOf t →
      (s.spdm.sessions.length < 4 → ∃ u x, exec (.keyExchange t q) s = .next u ∧ u = { s with spdm := u.spdm } ∧
        u.spdm.sessions = s.spdm.sessions ++ [x] ∧ x.transport = t ∧ x.established = false ∧
        u.spdm.out = s.spdm.out ++ [(t, .keyExchangeRsp x.id)]) ∧
      (4 ≤ s.spdm.sessions.length → ∃ u, exec (.keyExchange t q) s = .next u ∧ u.spdm.sessions = s.spdm.sessions ∧
        u.spdm.out = s.spdm.out ++ [(t, .error)])) ∧
    ∀ id x, s.session? id = some x → s.reaches x.transport = true →
      let answers (u : State) (r : SpdmOut) : Prop := u = { s with spdm := u.spdm } ∧ u.spdm.out = s.spdm.out ++ [(x.transport, r)]
      (x.established = false →
        (∃ u, exec (.finish id true) s = .next u ∧ answers u (.finishRsp id) ∧
          u.session? id = some { x with established := true } ∧ u.spdm.sessions.length = s.spdm.sessions.length) ∧
        (∃ u, exec (.finish id false) s = .next u ∧ answers u .error ∧ u.session? id = none)) ∧
      (x.established = true →
        (∃ u, exec (.heartbeat id) s = .next u ∧ answers u (.heartbeatAck id) ∧ u.spdm.sessions = s.spdm.sessions) ∧
        (∃ u, exec (.keyUpdate id) s = .next u ∧ answers u (.keyUpdateAck id) ∧
          u.session? id = some { x with keyUpdates := x.keyUpdates + 1 }) ∧
        (∃ u, exec (.endSession id) s = .next u ∧ answers u (.endSessionAck id) ∧ u.session? id = none) ∧
        (x.transport = .doe → ∀ k key, ∃ u, exec (.ideKm id k key) s = .next u ∧ answers u (.vendorDefined id) ∧
          sget 0 u.spdm.ideKeys k.toNat = key ∧ ∀ j, j ≠ k.toNat → sget 0 u.spdm.ideKeys j = sget 0 s.spdm.ideKeys j))

/-- R439, R440: a dynamic I3C address is kept until the next entry to AON; the test port runs BYPASS, IDCODE 0xBB80_861F,
SAMPLE/PRELOAD and EXTEST, and EXTEST controls the pins only while RESET_N and PERST_N are both low and acts as BYPASS
otherwise; TRST_N low resets the port and leaves the I3C address. -/
def Obligations.TestPort : Prop :=
  ∀ (s : State),
    (∀ a, s.pins.powered = true → exec (.i3cAddressAssign a) s = .next { s with side := { s.side with i3c := some a } }) ∧
    (s.pins.rails.getLsbD 1 = true →
      let port (ir : BitVec 2) (dr up : BitVec 1024) (held : Bool) : State := { s with
        side := { s.side with jtagIr := ir, jtagDr := dr, jtagUpdate := up, jtagPins := held }, pins := { s.pins with trstN := true } }
      (∀ b, exec (.jtagBypass b) s = .next (port 0 (b.setWidth 1024) s.side.jtagUpdate false)) ∧
      exec .jtagIdcode s = .next (port 1 0xBB80861F s.side.jtagUpdate false) ∧
      (∀ p u, exec (.jtagSamplePreload p u) s = .next (port 2 p u false)) ∧
      (∀ p u, s.pins.resetN = false → s.pins.perstN = false → exec (.jtagExtest p u) s = .next (port 3 p u true)) ∧
      (∀ p u, s.pins.resetN = true ∨ s.pins.perstN = true →
        exec (.jtagExtest p u) s = .next (port 0 0 s.side.jtagUpdate false))) ∧
    ∃ u, exec .trstN s = .next u ∧ u = { s with side := u.side, pins := { s.pins with trstN := false } } ∧
      u.side.i3c = s.side.i3c ∧ u.side.jtagIr = 1 ∧ u.side.jtagPins = false

/-! ## Requests (02_token_step.md, 08_kv_pages.md, 15_host_rings.md) -/

/-- R342, R344, R345, R347, R354, R357: a completion record. With Bus Master Enable and room in the ring it is written at INDEX
with the ring's PHASE and the fields of R354, INDEX advances and the ring's interrupt is raised or counted; otherwise it is
held. The entry is open no longer. -/
def Obligations.CompletionRecord : Prop :=
  ∀ (s : State) (e : Sub) (admin : Bool) (op st : BitVec 8) (h : BitVec 32) (pos em : Nat) (d : BitVec 64),
    let u := s.completeFull e admin op st h pos em d
    let r := s.ring e.fn e.set 2
    let fields (w : BitVec 512) : Prop :=
      w.extractLsb' 0 32 = e.tag ∧ w.extractLsb' 32 8 = st ∧ w.extractLsb' 40 8 = op ∧ (w.extractLsb' 48 2).toNat = e.set.val ∧
      w.getLsbD 50 = admin ∧ w.extractLsb' 64 32 = h ∧ w.extractLsb' 96 16 = (s.ring e.fn e.set (if admin then 0 else 1)).index ∧
      w.extractLsb' 128 28 = BitVec.ofNat 28 pos ∧ w.extractLsb' 160 28 = BitVec.ofNat 28 em ∧ w.extractLsb' 192 64 = d ∧
      w.extractLsb' 256 64 = s.now
    Same [.fns, .out, .held] s u ∧
    u.fns[e.fn].openReqs = dropFirst (fun o => decide (o.sub = e) && (o.admin == admin)) s.fns[e.fn].openReqs ∧
    (s.fns[e.fn].bme = true → r.room = true → u.held = s.held ∧
      (∃ w, fields w ∧ w.getLsbD 63 = r.phase ∧
        u.out = s.out ++ [.completion e.fn e.set r.index w] ++ (if r.advance.signal.1 then [.msix e.fn r.vector] else [])) ∧
      (u.ring e.fn e.set 2).index = r.succ r.index ∧
      (u.ring e.fn e.set 2).phase = (if (r.succ r.index).toNat = 0 then !r.phase else r.phase)) ∧
    (s.fns[e.fn].bme = false ∨ r.room = false → u.out = s.out ∧ ∃ w, fields w ∧ u.held = s.held ++ [.completion e.fn e.set w])

/-- R21, R23, R173, R339, R340, R350: ADMIT to a loaded model of the function, in an active slice, with a frame for the guard,
creates one sequence in ADMITTED under a new handle, puts one frame into the guard and completes OK with the handle; to another
function's model it is refused with DENIED, to a model not loaded with BAD_STATE. -/
def Obligations.Admission : Prop :=
  ∀ (s : State) (e : Sub) (model : BitVec 16) (m : SlotIx) (tr : BitVec 2) (set : SetIx) (p : Bytes) (b : List (BitVec 64))
    (ab : List (BitVec 128)), slotOf model = some m → ab.length ≤ 64 →
    (s.tenant? e.fn = none → Refused (.admitSeq e model tr set p b ab true) s e false 0x01 0x1C) ∧
    ∀ t : Tenant, s.tenant? e.fn = some t →
      (s.load? m = none → Refused (.admitSeq e model tr set p b ab true) s e false 0x01 0x21) ∧
      ∀ l, s.load? m = some l →
        (l.owner ≠ e.fn → Refused (.admitSeq e model tr set p b ab true) s e false 0x01 0x1C) ∧
        (l.owner = e.fn → s.loaded m = true → l.lost = false → (s.ring e.fn set 3).enable = true →
          ∀ x, s.sliceOf m = some x → x.state = .active → s.models[m].degraded = false →
            (policyAllOk p b ab = false → Refused (.admitSeq e model tr set p b ab true) s e false 0x01 0x23) ∧
            (policyAllOk p b ab = true → (s.models[m].pool.frames = 0 ∨ s.models[m].pool.maxSeq ≤ (s.seqsOf m).length) →
              Refused (.admitSeq e model tr set p b ab true) s e false 0x01 0x18) ∧
            (policyAllOk p b ab = true → s.models[m].pool.frames ≠ 0 → (s.seqsOf m).length < s.models[m].pool.maxSeq →
              ∀ slot, s.freeSlot e.fn = some slot → (s.growGuard m e.fn).isSome = true →
                let full := (s.lens? m).isNone || t.classMap.getLsbD tr.toNat
                let h := s.newHandle e.fn slot
                ∃ v, exec (.admitSeq e model tr set p b ab true) s = .next { v.completeReq e 0x01 0x00 h with pending := s.pending } ∧
                  Same [.fns, .models, .seqs, .treeOps, .sync, .out] s v ∧
                  v.seqs = s.seqs ++ [newSeq (.own h) m full (full && t.relayEn && !x.ring.isEmpty) set
                    { block := p, bias := usedBias p b, abias := ab } s.nextOrder] ∧
                  ∃ f, v.models[m].pool.guard = s.models[m].pool.guard ++ [f]))

/-- R339, R352: a request that names a handle of another function is refused with DENIED, one whose handle names no sequence
with BAD_STATE, and neither changes anything. R23, R24, R35, R162, R183, R350: INGEST of tokens that nothing cached can match
adds a chunk and makes the sequence INGESTING, a FINAL one its generating request; EXTEND of an ended sequence starts from the
tokens that no step has run; SET_POLICY waits for the boundary of a sequence in a cohort and takes effect at once for another;
in a state that does not accept them each is refused with BAD_STATE. -/
def Obligations.RequestsOnHandles : Prop :=
  (∀ (s : State) (e : Sub) (h : BitVec 32) (toks : List (BitVec 32)) (n : BitVec 25) (p : Bytes) (sw : List (BitVec 128)),
     badCount toks.length = false → n ≠ 0 → n.toNat ≤ 16777216 →
     let turnedAway (st : BitVec 8) (pos : Nat) : Prop :=
       (∀ f, Refused (.ingest e h f toks) s e false 0x02 st h pos) ∧ Refused (.importKv e h n sw true) s e false 0x03 st h pos ∧
       Refused (.extend e h toks sw true) s e false 0x04 st h pos ∧ Refused (.setPolicy e h false p [] []) s e false 0x05 st h pos ∧
       Refused (.preempt e h sw) s e false 0x06 st h pos ∧ Refused (.resume e h sw true) s e false 0x07 st h pos ∧
       Refused (.cancel e h) s e false 0x08 st h pos ∧ Refused (.release e h) s e false 0x09 st h pos
     (handleFn h ≠ e.fn → turnedAway 0x1C 0) ∧
     ((s.tenant? e.fn).isSome = true → handleFn h = e.fn → s.seq? (.own h) = none → turnedAway 0x21 0)) ∧
  (∀ (s : State) (e : Sub) (h : BitVec 32) (q : Seq) (toks : List (BitVec 32)), s.names e h q → badCount toks.length = false →
     toks.any (s.badToken q.model) = false →
     (∀ fin, (q.state = .admitted ∨ (q.state = .ingesting ∧ q.gen = none)) → s.tooLong q q.endPos toks.length = false →
       (q.matching = false ∨ q.chunks ≠ [] ∨ s.prefixKey? q.model e.fn = none) →
       LeavesSeq [.fns, .models, .out] (.ingest e h fin toks) s (.own h) { q with
         matching := false
         state := .ingesting, gen := if fin then some { sub := e, opcode := 0x02 } else q.gen, genToks := if fin then [] else q.genToks
         chunks := q.chunks ++ [{ sub := e, opcode := 0x02, fin := fin, tokens := tokenIds toks, last := q.endPos + toks.length - 1 }] }) ∧
     (∀ fin, q.state ≠ .admitted → q.state ≠ .ingesting ∨ q.gen.isSome = true → Refused (.ingest e h fin toks) s e false 0x02 0x21 h q.highest) ∧
     (q.state = .ended → (q.endStatus = 0x01 ∨ q.endStatus = 0x02 ∨ q.endStatus = 0x03) → q.swappedPages = [] →
       s.tooLong q q.written (q.carried.length + toks.length) = false →
       (∀ v, s.growGuard q.model e.fn = some v → ∃ u, exec (.extend e h toks [] true) s = .next u ∧
         Same [.fns, .models, .seqs, .treeOps, .out] s u ∧ u.models[q.model].pool.guard = v.models[q.model].pool.guard ∧
         u.models[q.model].pool.free = v.models[q.model].pool.free ∧
         u.seq? (.own h) = some { q with
           state := .ingesting, gen := some { sub := e, opcode := 0x04 }, genToks := [], endStatus := 0, ent := .intact, matching := false
           chunks := [{ sub := e, opcode := 0x04, fin := true, tokens := q.carried ++ tokenIds toks,
                        last := q.written + (q.carried ++ tokenIds toks).length - 1 }] }) ∧
       (s.growGuard q.model e.fn = none → Refused (.extend e h toks [] true) s e false 0x04 0x18 h q.highest)) ∧
     (q.state ≠ .ended → Refused (.extend e h toks [] true) s e false 0x04 0x21 h q.highest) ∧
     (∀ p b ab, policyState q = true → policyAllOk p b ab = true → ab.length ≤ 64 →
       (s.inCohort q = true → LeavesSeq [] (.setPolicy e h false p b ab) s (.own h) { q with
         newPolicy := q.newPolicy ++ [(e, { block := p, bias := usedBias p b, abias := ab })] }) ∧
       (s.inCohort q = false → q.newPolicy = [] → ∃ u, Answered [.seqs] (.setPolicy e h false p b ab) s u e false 0x05 0x00 h q.highest ∧
         u.seq? (.own h) = some { q with policy := { block := p, bias := usedBias p b, abias := ab } })) ∧
     (∀ p b ab, policyState q = true → policyAllOk p b ab = false → ab.length ≤ 64 →
       Refused (.setPolicy e h false p b ab) s e false 0x05 0x23 h q.highest))

/-- R23, R188, R192, R194, R195, R21, R22: PREEMPT of a sequence in no cohort starts its swap and of one in a cohort waits for
the boundary, in the place of the swaps' order that its acceptance gives it; RESUME takes the frames and starts the read-back;
CANCEL ends a sequence in no cohort with CANCELLED, which is ENDED once nothing of its records is held; RELEASE of an ended
sequence completes OK, and its slot's reuse count rises by one. -/
def Obligations.SuspendAndEnd : Prop :=
  ∀ (s : State) (e : Sub) (h : BitVec 32) (q : Seq), s.names e h q →
    (∀ sw, (q.state = .running ∨ q.state = .parkedPages) → q.pendPreempt = none → sw.any misaligned = false → q.relayMap = [] →
      s.swapHolds q.model q.pageCount sw = true →
      (s.inCohort q = true → ∃ u, exec (.preempt e h sw) s = .next u ∧ Same [.seqs, .swapQueue] s u ∧
        u.seq? (.own h) = some { q with pendPreempt := some (e, sw) } ∧ u.swapQueue = s.swapQueue ++ [.own h] ∧
        ∀ h', h' ≠ .own h → u.seq? h' = s.seq? h') ∧
      (s.inCohort q = false → q.pendCancel = [] → ∃ u q', exec (.preempt e h sw) s = .next u ∧ u.seq? (.own h) = some q' ∧
        q'.state = .preempting ∧ q'.gen = none ∧ q'.pendPreempt = none ∧ q'.swap = some
          { sub := e, opcode := 0x06, buf := ((sw[s.ownMember q.model]?).map entryAddr).getD 0, next := 0, frames := [], stop := []
            old := [], mine := false, failed := none } ∧
        u.swapQueue = s.swapQueue ++ [.own h])) ∧
    (∀ sw, (q.state = .running ∨ q.state = .parkedPages) → q.pendPreempt = none → sw.any misaligned = false → q.relayMap = [] →
      s.swapHolds q.model q.pageCount sw = false → Refused (.preempt e h sw) s e false 0x06 0x26 h q.highest) ∧
    (∀ sw, q.state = .swapped → sw.any misaligned = false →
      (s.takeBack q = none → Refused (.resume e h sw true) s e false 0x07 0x18 h q.highest) ∧
      (∀ fs v, s.takeBack q = some (fs, v) → ∃ u q', exec (.resume e h sw true) s = .next u ∧
        u.models[q.model].pool.free = v.models[q.model].pool.free ∧ u.seq? (.own h) = some q' ∧ q'.state = .resuming ∧
        (q'.swap.map fun w => (w.sub, w.opcode, w.frames, w.old)) = some (e, 0x07, q.swappedPages.zip fs, q.pages) ∧
        u.swapQueue = s.swapQueue ++ [.own h] ∧ Same [.fns, .models, .seqs, .treeOps, .sync, .swapQueue, .out] s u)) ∧
    (q.state = .ending ∨ q.state = .ended → Refused (.cancel e h) s e false 0x08 0x00 h q.highest) ∧
    (q.state = .admitted ∨ q.state = .ingesting ∨ q.state = .running ∨ q.state = .parkedPages ∨ q.state = .swapped →
      (s.inCohort q = true → LeavesSeq [] (.cancel e h) s (.own h) { q with pendCancel := q.pendCancel ++ [e] }) ∧
      (s.inCohort q = false → ∃ u q', exec (.cancel e h) s = .next u ∧ u.seq? (.own h) = some q' ∧
        q'.state = (if u.holds (.own h) then .ending else .ended) ∧ q'.endStatus = 0x03 ∧
        q'.gen = none ∧ q'.pendCancel = [])) ∧
    (q.state = .ended → Key.own h ∉ s.swapQueue →
      ∃ u, Answered [.fns, .models, .seqs, .reuse, .sync, .swapQueue] (.release e h) s u e false 0x09 0x00 h q.highest) ∧
    (q.state = .ended → ∃ u, exec (.release e h) s = .next u ∧ u.seq? (.own h) = none ∧ sget 0 u.reuse (16384 * (handleFn h).val + handleSlot h) = sget 0 s.reuse (16384 * (handleFn h).val + handleSlot h) + 1) ∧
    (q.state ≠ .ended → Refused (.release e h) s e false 0x09 0x21 h q.highest)

/-- R188, R191 to R195, R355: of the active swap out, a flushed record moves to the next page, and the last one makes the
sequence SWAPPED; of the active read-back, a record that agrees and verifies puts its page into the frame taken for it, the last
one makes a RESUMEd sequence RUNNING and an EXTENDed one INGESTING, and one that does not is counted and leaves the sequence
SWAPPED, or ENDED for an EXTEND, its page list as it was. Where the slice has other members, this package's part is over and
waits for theirs (log entry 127). -/
def Obligations.SwapRecords : Prop :=
  ∀ (s : State) (h : Key) (q : Seq) (w : Swap), s.seq? h = some q → q.swap = some w →
    (s.activeSwap true = some h → w.stop = [] → ∀ pe, q.page? w.next = some pe →
      (q.pageCount ≤ w.next + 1 → ∃ u q', exec (.swapFlushDone h true) s = .next u ∧ u.seq? h = some q' ∧
        (s.alone q.model = true → q'.state = .swapped ∧ q'.swap = none ∧ q'.ent = .none) ∧
        (s.alone q.model = false → q'.state = q.state ∧ q'.swap = some { w with next := w.next + 1, mine := true, failed := none }) ∧
        (∀ x ∈ u.swapQueue, x ≠ h) ∧ u.swapStat = bump s.swapStat 40 24 1) ∧
      (w.next + 1 < q.pageCount → ∃ u q', exec (.swapFlushDone h true) s = .next u ∧ u.seq? h = some q' ∧
        q'.state = q.state ∧ q'.swap = some { w with next := w.next + 1 } ∧ (q'.page? w.next).map peSwapped = some true)) ∧
    (s.activeSwap true = some h → ∃ u q', exec (.swapFlushDone h false) s = .next u ∧ u.seq? h = some q' ∧
      (h.isOwn = true → (q'.state = .ended ∨ q'.state = .ending) ∧ q'.endStatus = 0x03 ∧ q'.swap = none) ∧
      (h.isOwn = false → q'.state = q.state ∧ q'.swap = some { w with mine := false, failed := some 0x2F }) ∧
      ∀ x ∈ u.swapQueue, x ≠ h) ∧
    (s.activeSwap true ≠ some h → ∀ ok, exec (.swapFlushDone h ok) s = .next s) ∧
    (s.activeSwap false = some h → w.stop = [] → ∀ page f r, (w.frames.find? fun y => decide (y.1 = w.next)) = some (page, f) →
      (s.recordOk q page r = true → (∀ y ∈ w.frames, y.1 ≤ page) → ∃ u q', exec (.swapRecordRead h true r) s = .next u ∧
        u.seq? h = some q' ∧ (∀ x ∈ u.swapQueue, x ≠ h) ∧ u.swapStat = bump s.swapStat 16 24 1 ∧
        (s.alone q.model = true → q'.state = (if w.opcode = 0x04 then .ingesting else .running) ∧ q'.swap = none) ∧
        (s.alone q.model = false → q'.state = q.state ∧ q'.swap = some { w with next := page + 1, mine := true, failed := none })) ∧
      (s.recordOk q page r = true → (∃ y ∈ w.frames, page < y.1) → ∃ u q', exec (.swapRecordRead h true r) s = .next u ∧
        u.seq? h = some q' ∧ q'.state = q.state ∧ (q.page? page ≠ none → (q'.page? page).map peFrame = some (f % 16777216)) ∧
        u.swapStat = bump s.swapStat 16 24 1) ∧
      (s.recordOk q page r = false → ∃ u q', exec (.swapRecordRead h true r) s = .next u ∧ u.seq? h = some q' ∧
        u.swapStat = bump s.swapStat 0 16 1 ∧ (∀ x ∈ u.swapQueue, x ≠ h) ∧
        (h.isOwn = true → q'.state = (if w.opcode = 0x04 then .ended else .swapped) ∧ q'.swap = none ∧ q'.pages = w.old) ∧
        (h.isOwn = false → q'.state = q.state ∧ q'.swap = some { w with mine := false, failed := some 0x1A })) ∧
      ∃ u q', exec (.swapRecordRead h false r) s = .next u ∧ u.seq? h = some q' ∧ u.swapStat = s.swapStat ∧
        (h.isOwn = true → q'.state = (if w.opcode = 0x04 then .ended else .swapped) ∧ q'.swap = none ∧ q'.pages = w.old) ∧
        (h.isOwn = false → q'.state = q.state ∧ q'.swap = some { w with mine := false, failed := some 0x2F })) ∧
    (s.activeSwap false ≠ some h → ∀ ok r, exec (.swapRecordRead h ok r) s = .next s)

/-- R162, R169, R170, R350, R355: IMPORT_KV of an ADMITTED sequence takes its frames before anything is read, and does so
whenever the pool has as many free ones, no LIMIT is set and the list has room; its completion links them as pages with
positions that no token is known for, and a failed read gives them back and ends it with FAULT_HOST_ACCESS. A completion for a
sequence with no import under way changes nothing. -/
def Obligations.KvImport : Prop :=
  ∀ (s : State) (e : Sub) (h : BitVec 32) (q : Seq), s.names e h q →
    (∀ (n : BitVec 25) (bufs : List (BitVec 128)), q.state = .admitted → q.endPos % 256 = 0 → n ≠ 0 → n.toNat ≤ 16777216 →
      s.importOk q.model (cdiv n.toNat 256) bufs = true → s.tooLong q q.endPos n.toNat = false →
      let imported (u : State) (fs : List Nat) : Prop := exec (.importKv e h n bufs true) s = .next u ∧
        Same [.fns, .models, .seqs, .treeOps, .out] s u ∧ fs.length = cdiv n.toNat 256 ∧
        u.seq? (.own h) = some { q with imps := q.imps ++ [{ sub := e, first := q.endPos / 256, positions := n.toNat, frames := fs }] }
      (s.takeImport q e n.toNat = none → Refused (.importKv e h n bufs true) s e false 0x03 0x18 h q.highest) ∧
      ((s.takeImport q e n.toNat).isSome = true → ∃ u fs, imported u fs) ∧
      (s.models[q.model].pool.limit[e.fn] = 0 → s.models[q.model].pool.free.Nodup → cdiv n.toNat 256 ≤ s.models[q.model].pool.free.length →
        s.listFull q (cdiv n.toNat 256) = false → ∃ u fs, imported u fs ∧ ∀ f ∈ fs, f ∈ s.models[q.model].pool.free)) ∧
    ((q.state ≠ .admitted ∨ q.endPos % 256 ≠ 0) → ∀ (n : BitVec 25) (bufs : List (BitVec 128)), n ≠ 0 → n.toNat ≤ 16777216 →
      Refused (.importKv e h n bufs true) s e false 0x03 0x21 h q.highest) ∧
    (q.imps = [] → ∀ ok data, exec (.importComplete (.own h) ok data) s = .next s) ∧
    ∀ i r, q.imps = i :: r →
      (∀ data, ∃ u q', exec (.importComplete (.own h) true data) s = .next u ∧ u.seq? (.own h) = some q' ∧ q'.imps = r ∧
        q'.written = q.written + i.positions ∧ q'.tokens = q.tokens ++ List.replicate i.positions none ∧ q'.state = q.state ∧
        q'.pages.length = q.pages.length + i.frames.length ∧ Same [.fns, .models, .seqs, .out, .held] s u) ∧
      (∀ data, ∃ u, exec (.importComplete (.own h) false data) s = .next u ∧ u.seq? (.own h) = some { q with imps := r } ∧
        u.models = (s.giveBackAll q.model i.frames).models ∧ Same [.fns, .models, .seqs, .boot, .out, .held] s u)

/-! ## Admin commands (12_weight_tiers.md, 16_security_config.md) -/

/-- R269 to R271, R446: MODEL_INSTALL of an image that passes its checks leaves the slot INCOMPLETE with the image written, and
the commit makes it INSTALLED and completes OK; an image whose contents fail a check as they are written is erased again; a slot
that is not EMPTY, a host read that fails, an image a check refuses and a flash tier without room complete with their status.
MODEL_ERASE destroys the key, and no tile counts the slot's model as the last it ran (R135). Commands on slots come from the PF
only. -/
def Obligations.InstallAndErase : Prop :=
  ∀ (s : State) (e : Sub) (model : BitVec 16) (m : SlotIx), slotOf model = some m →
    (e.fn ≠ 0 → (∀ n ok im k, Refused (.modelInstall e model n ok im k) s e true 0x41 0x1C) ∧
      (∀ x k, Refused (.modelLoad e model x k) s e true 0x42 0x1C) ∧ Refused (.modelUnload e model) s e true 0x43 0x1C ∧
      Refused (.modelErase e model) s e true 0x44 0x1C) ∧
    (e.fn = 0 → s.models[m].claim = none → ∀ (n : BitVec 64) (im : Image) (k : BitVec 512),
      (s.models[m].state ≠ .empty → ∀ ok, Refused (.modelInstall e model n ok im k) s e true 0x41 0x21) ∧
      (s.models[m].state = .empty →
        (∃ u, Answered [.boot] (.modelInstall e model n false im k) s u e true 0x41 0x2F ∧
          u.boot = (s.logError 0x0E 7 1 e.fn.val 0 m.val 0).boot) ∧
        (∀ st sec off, installCheck im n (s.ownPart im) = some (st, sec, some off) →
          Refused (.modelInstall e model n true im k) s e true 0x41 st 0 0 (pack 64 [(0, 16, sec), (16, 48, off)])) ∧
        (∀ st sec, installCheck im n (s.ownPart im) = some (st, sec, none) → ∃ u o,
          Answered [.fresh] (.modelInstall e model n true im k) s u e true 0x41 st 0 0 (pack 64 [(0, 16, sec), (16, 48, o)])) ∧
        (installCheck im n (s.ownPart im) = none → imageMiB im (inPart (s.ownPart im)) ≤ s.flash.freeMiB →
          ∀ sec, writeCheck im (s.ownPart im) = some sec → ∃ u o,
          Answered [.tiles, .models, .flash, .fresh] (.modelInstall e model n true im k) s u e true 0x41 0x22 0 0
            (pack 64 [(0, 16, sec), (16, 48, o)]) ∧ u.models[m].flashKey = none ∧ u.models[m].catalogued = false ∧
          (u.models[m].state = .erasing ∨ u.models[m].state = .empty)) ∧
        (installCheck im n (s.ownPart im) = none → s.flash.freeMiB < imageMiB im (inPart (s.ownPart im)) →
          Refused (.modelInstall e model n true im k) s e true 0x41 0x28) ∧
        (installCheck im n (s.ownPart im) = none → imageMiB im (inPart (s.ownPart im)) ≤ s.flash.freeMiB →
          writeCheck im (s.ownPart im) = none →
          ∃ u, exec (.modelInstall e model n true im k) s = .next u ∧ Same [.models, .flash] s u ∧
            u.models = s.models.set m { s.models[m] with
              state := .incomplete, claim := some e, image := some im, part := s.ownPart im, flashKey := some k }))) ∧
    (e.fn = 0 → s.models[m].claim = none → (s.models[m].state = .installed ∨ s.models[m].state = .incomplete) →
      ∃ u, Answered [.tiles, .models, .flash] (.modelErase e model) s u e true 0x44 0x00 ∧ u.models[m].flashKey = none ∧
        u.models[m].catalogued = false ∧ (∀ t : TileIx, u.tiles[t].vec.ctx.model ≠ some m) ∧ (u.models[m].state = .erasing ∨ u.models[m].state = .empty)) ∧
    (∀ c, s.models[m].claim = some c → s.models[m].state = .incomplete →
      ∃ u, Answered [.models, .flash] (.installCommit m) s u c true 0x41 0x00 ∧
        u.models = s.models.set m { s.models[m] with state := .installed, claim := none, catalogued := true } ∧
        u.flash = { s.flash with catalogueSeq := s.flash.catalogueSeq + 1 }) ∧
    (s.models[m].claim = none → exec (.installCommit m) s = .next s)

/-- R269, R272, R273, R281, R398: MODEL_LOAD of an INSTALLED image in an active slice of as many members carves its regions and
leaves the slot LOADING under the slice's owner; LOAD_COMPLETE makes it LOADED and completes OK, or, with a section lost, gives
everything back and marks the slot DEGRADED; MODEL_UNLOAD, with every sequence free, gives everything back. -/
def Obligations.LoadAndUnload : Prop :=
  ∀ (s : State) (e : Sub) (model : BitVec 16) (m : SlotIx), slotOf model = some m → e.fn = 0 →
    (s.models[m].claim = none → ∀ (sid : BitVec 16) (key : BitVec 256),
      (s.models[m].state ≠ .installed → Refused (.modelLoad e model sid key) s e true 0x42 0x21) ∧
      (s.models[m].state = .installed → s.models[m].degraded = true → Refused (.modelLoad e model sid key) s e true 0x42 0x19) ∧
      (s.models[m].state = .installed → s.models[m].degraded = false → 16 ≤ s.loadedCount →
        Refused (.modelLoad e model sid key) s e true 0x42 0x30) ∧
      (s.models[m].state = .installed → s.models[m].degraded = false → s.loadedCount < 16 → ∀ x im p,
        (s.slices.find? fun y => decide (y.id = sid)) = some x → s.image? m = some im → s.programs? m = some p →
        (x.state ≠ .active → Refused (.modelLoad e model sid key) s e true 0x42 0x2C) ∧
        (x.state = .active → x.members.length = im.parts.toNat →
          (∀ st, s.carveLoad im s.models[m].part p = .error st → Refused (.modelLoad e model sid key) s e true 0x42 st) ∧
          ∀ b, s.carveLoad im s.models[m].part p = .ok b → ∃ u l, exec (.modelLoad e model sid key) s = .next u ∧
            Same [.tiles, .models, .sync, .power] s u ∧ u.models[m].state = .loading ∧ u.load? m = some l ∧ l.sliceId = x.id ∧
            l.owner = x.fn ∧ l.done = false ∧ l.sub = e ∧ l.prefixKey = key ∧ l.spBase = b.1 ∧ l.rsBase = b.2.1 ∧ l.opcBase = b.2.2.1 ∧
            l.progBase = b.2.2.2.1 ∧ l.syncBase = b.2.2.2.2 ∧ u.power.tileClk = (if s.power.tileClk = 0 then 0x55 else s.power.tileClk) ∧
            ∀ m', m' ≠ m → u.models[m'] = s.models[m']))) ∧
    (∀ l, s.load? m = some l → l.done = false →
      (∃ u, Answered [.tiles, .models, .power] (.loadComplete m none) s u l.sub true 0x42 0x00 ∧ u.models[m].state = .loaded ∧
        ((u.load? m).map fun l => l.done) = some true ∧
        u.power.tileClk = (if s.power.tileClk = 0x55 then 0xAA else s.power.tileClk)) ∧
      (∀ sec, (s.programs? m).isSome = true → ∃ u, exec (.loadComplete m (some sec)) s = .next u ∧ u.models[m].load = none ∧
        u.models[m].state = .installed ∧ u.models[m].degraded = true)) ∧
    (∀ l, s.load? m = some l → l.done = true → ∀ x, exec (.loadComplete m x) s = .next s) ∧
    (s.models[m].claim = none → (s.models[m].state ≠ .loaded ∨ (s.seqsOf m).isEmpty = false) →
      Refused (.modelUnload e model) s e true 0x43 0x21) ∧
    (s.models[m].claim = none → s.models[m].state = .loaded → s.seqsOf m = [] → (s.load? m).isSome = true →
      (s.programs? m).isSome = true →
      ∃ u, Answered [.tiles, .models, .cohorts, .nextCohorts, .treeOps, .cands, .sampled, .sync, .slices, .spans] (.modelUnload e model) s u e true 0x43 0x00 ∧
        u.models[m].load = none ∧ u.models[m].state = .installed ∧ u.models[m].pool = {} ∧ u.models[m].image = s.models[m].image)

/-- R349, R351, R362, R378 to R380: TENANT_CREATE, TENANT_DESTROY, FUNC_RESET and KEY_INSTALL, each with what refuses it. The
destruction and the reset of a function with nothing in progress end at once. R168, R269, R353: PAGE_POOL_SET of a LOADED model
sets a tenant's limit and, with SET_POOL, the pool; a count of frames that is no multiple of four, a MAX_SEQ out of range, a
slot not LOADED and a pool that does not fit are refused. The PF may get a PAGE_LOW first (R177), but not with LOW_WATER 0. -/
def Obligations.TenantsAndPools : Prop :=
  (∀ (s : State) (e : Sub) (f : Fn),
     (∀ pfx cm rel lp sk pk,
       (pfx = 3 → Refused (.tenantCreate e f pfx cm rel lp sk pk) s e true 0x45 0x2E 0 0 0x10) ∧
       (pfx ≠ 3 → e.fn ≠ 0 ∨ s.fns[f].present = false → Refused (.tenantCreate e f pfx cm rel lp sk pk) s e true 0x45 0x1C) ∧
       (pfx ≠ 3 → e.fn = 0 → s.fns[f].present = true → (s.tenant? f).isSome = true →
         Refused (.tenantCreate e f pfx cm rel lp sk pk) s e true 0x45 0x21) ∧
       (pfx ≠ 3 → e.fn = 0 → s.fns[f].present = true → s.tenant? f = none →
         ∃ u, Answered [.um] (.tenantCreate e f pfx cm rel lp sk pk) s u e true 0x45 0x00 ∧
           u.um = { s.um with
             swapKey := s.um.swapKey.set f (some sk), prefixKey := s.um.prefixKey.set f (some pk)
             live := { s.um.live with
               tenants := s.um.live.tenants.set f (some { pfx := pfx, classMap := cm, relayEn := rel, loupeAllow := lp }) } })) ∧
     (e.fn ≠ 0 ∨ s.fns[f].present = false → Refused (.tenantDestroy e f) s e true 0x46 0x1C) ∧
     (e.fn = 0 → s.fns[f].present = true → s.tenant? f = none → Refused (.tenantDestroy e f) s e true 0x46 0x21) ∧
     ((e.fn ≠ 0 ∧ e.fn ≠ f) ∨ s.fns[f].present = false → Refused (.funcReset e f) s e true 0x50 0x1C) ∧
     (e.fn = 0 → f ≠ 0 → s.fns[f].present = true → s.fns[f].disabling = false → s.fns[f].flrActive = false → s.fns[f].openReqs = [] →
       s.quietFor f → s.fns[(0 : Fin 16)].disabling = false →
       (∃ u, exec (.funcReset e f) s = .next u ∧ ResetFn s u f ∧ u.um.live = s.um.live ∧
         u.fns[(0 : Fin 16)].openReqs = dropFirst (fun o => decide (o.sub = e) && (o.admin == true)) s.fns[(0 : Fin 16)].openReqs) ∧
       ((s.tenant? f).isSome = true → ∃ u, exec (.tenantDestroy e f) s = .next u ∧ ResetFn s u f ∧ u.tenant? f = none ∧
         u.um.swapKey[f] = none ∧ u.um.prefixKey[f] = none ∧ u.um.cmdKey[f] = none ∧
         u.fns[(0 : Fin 16)].openReqs = dropFirst (fun o => decide (o.sub = e) && (o.admin == true)) s.fns[(0 : Fin 16)].openReqs)) ∧
     ∀ w,
       (∀ kind, s.unwrapKey w f kind = none → Refused (.keyInstall e f kind w) s e true 0x47 0x1A) ∧
       (∀ kind k, s.unwrapKey w f kind = some k → s.keyDenied e f = true → Refused (.keyInstall e f kind w) s e true 0x47 0x1C) ∧
       (∀ k, s.unwrapKey w f false = some k → s.keyDenied e f = false →
         ∃ u, Answered [.um] (.keyInstall e f false w) s u e true 0x47 0x00 ∧ u.um = { s.um with cmdKey := s.um.cmdKey.set f (some k) }) ∧
       (∀ k, s.unwrapKey w f true = some k → s.keyDenied e f = false →
         ((s.tenant? f).isSome = true → s.holdsSwapped f = false →
           ∃ u, Answered [.um] (.keyInstall e f true w) s u e true 0x47 0x00 ∧ u.um = { s.um with swapKey := s.um.swapKey.set f (some k) }) ∧
         (s.tenant? f = none ∨ s.holdsSwapped f = true → Refused (.keyInstall e f true w) s e true 0x47 0x21))) ∧
  (∀ (s : State) (e : Sub) (model : BitVec 16) (m : SlotIx) (f : Fn) (n low lim : BitVec 24) (q : BitVec 20), slotOf model = some m → e.fn = 0 →
     (n.toNat % 4 ≠ 0 → Refused (.pagePoolSet e model f true n low lim q) s e true 0x48 0x2E 0 0 0x14) ∧
     (n.toNat % 4 = 0 → q = 0 ∨ 262144 < q.toNat → Refused (.pagePoolSet e model f true n low lim q) s e true 0x48 0x2E 0 0 0x20) ∧
     (s.models[m].claim = none → s.models[m].state ≠ .loaded → Refused (.pagePoolSet e model f false n low lim q) s e true 0x48 0x21) ∧
     (s.models[m].claim = none → s.models[m].state = .loaded →
       (∃ v, exec (.pagePoolSet e model f false n low lim q) s = .next { v.completeAdmin e 0x48 0x00 with pending := s.pending } ∧
         Same [.fns, .models, .out] s v ∧ v.models = s.models.set m { s.models[m] with
           pool := { s.models[m].pool with limit := s.models[m].pool.limit.set f lim.toNat, lowSent := v.models[m].pool.lowSent } }) ∧
       (n.toNat % 4 = 0 → q ≠ 0 → q.toNat ≤ 262144 →
         (s.poolFits m n.toNat q.toNat = false → Refused (.pagePoolSet e model f true n low lim q) s e true 0x48 0x18) ∧
         (s.poolFits m n.toNat q.toNat = true → ∃ v,
           exec (.pagePoolSet e model f true n low lim q) s = .next { v.completeAdmin e 0x48 0x00 with pending := s.pending } ∧
           Same [.fns, .models, .out] s v ∧ (low = 0 → Same [.models] s v) ∧
           v.models[m].pool.frames = n.toNat ∧ v.models[m].pool.lowWater = low.toNat ∧ v.models[m].pool.maxSeq = q.toNat ∧
           v.models[m].pool.limit = s.models[m].pool.limit.set f lim.toNat ∧ v.models[m].pool.nodes = s.models[m].pool.nodes))))

/-- R384 to R386, R388, R389: staging keeps the live configuration, a commit writes it into the other slot as UNCONFIRMED with
the next VERSION, a confirm makes the booted slot CONFIRMED, a revert marks it REVERTED; a firmware image that verifies fills
the bank that is not active, and activation makes that bank the active one. What a command does not find is refused with
BAD_STATE. The digest of the staged contents is free (log entry 41). -/
def Obligations.Configuration : Prop :=
  ∀ (s : State) (e : Sub),
    (e.fn ≠ 0 → (∀ m, m ≠ 3 → Refused (.configStage e m) s e true 0x49 0x1C) ∧ (∀ d, Refused (.configCommit e d) s e true 0x4A 0x1C) ∧
      Refused (.configConfirm e) s e true 0x4A 0x1C ∧ Refused (.configRevert e) s e true 0x4B 0x1C ∧
      (∀ ok b, Refused (.fwStage e ok b) s e true 0x4C 0x1C) ∧ ∀ a, Refused (.fwActivate e a) s e true 0x4D 0x1C) ∧
    (e.fn = 0 →
      (∀ m, m ≠ 3 → ∃ u d, Answered [.um, .fresh] (.configStage e m) s u e true 0x49 0x00 0 0 d ∧ u.um.stagedDigest = d ∧
        u.um.staged = some { s.liveCfg with loupeMode := m } ∧ u.um.live = { s.um.live with loupeMode := m }) ∧
      (s.um.staged = none → ∀ d, Refused (.configCommit e d) s e true 0x4A 0x21) ∧
      (∀ c, s.um.staged = some c → s.um.unconfirmed = false → s.um.bootedVersion < 0xFFFFFFFF →
        ∃ u, Answered [.um] (.configCommit e s.um.stagedDigest) s u e true 0x4A 0x00 ∧
          u.um = s.um.putSlot (!s.um.booted)
            (some { version := BitVec.ofNat 32 (s.um.bootedVersion + 1), state := 1, boots := 0, authentic := true, cfg := c })) ∧
      (∀ c d, s.um.staged = some c → d ≠ s.um.stagedDigest → Refused (.configCommit e d) s e true 0x4A 0x21) ∧
      (∀ m, s.um.bootedSlot = some m →
        (m.state = 0 → Refused (.configConfirm e) s e true 0x4A 0x21) ∧
        (m.state ≠ 0 → ∃ u, Answered [.um] (.configConfirm e) s u e true 0x4A 0x00 ∧
          u.um.bootedSlot = some { m with state := 0 } ∧
          u.um.fusedSvn = (if m.cfg.fwBank = s.um.activeBank then max s.um.fusedSvn s.um.activeSvn else s.um.fusedSvn)) ∧
        (s.um.slotValid (if s.um.booted then s.um.slotA else s.um.slotB) = true → ∃ u, Answered [.um] (.configRevert e) s u e true 0x4B 0x00 ∧
          u.um = s.um.putSlot s.um.booted (some { m with state := 2 }))) ∧
      (s.um.slotValid (if s.um.booted then s.um.slotA else s.um.slotB) = false → Refused (.configRevert e) s e true 0x4B 0x21) ∧
      (s.um.unconfirmed = false → ∀ b,
        (s.um.fwVerifies b = true → ∃ u, Answered [.um] (.fwStage e true b) s u e true 0x4C 0x00 ∧
          u.um = { s.um with banks := s.um.banks.set (Fin.ofNat 2 (b2n !s.um.activeBank)) (some (bankOf b)) }) ∧
        (s.um.fwVerifies b = false → ∃ u, Answered [.um] (.fwStage e true b) s u e true 0x4C 0x22 ∧
          u.um = { s.um with banks := s.um.banks.set (Fin.ofNat 2 (b2n !s.um.activeBank)) none })) ∧
      (s.um.banks[Fin.ofNat 2 (b2n !s.um.activeBank)] = none → ∀ a, Refused (.fwActivate e a) s e true 0x4D 0x21) ∧
      ∀ b, s.um.banks[Fin.ofNat 2 (b2n !s.um.activeBank)] = some b → (∀ x ∈ s.slices, x.members.length ≤ 1) → s.um.bankOk b = true →
        (∃ u, Answered [.um] (.fwActivate e true) s u e true 0x4D 0x00 ∧ u.um = { s.um with
          activeBank := !s.um.activeBank, live := { s.um.live with fwBank := !s.um.activeBank, bankDigest := b.digest } }) ∧
        Refused (.fwActivate e false) s e true 0x4D 0x22 0 0 1)

/-- R330 to R332, R314, R315: a slice of this package alone is ACTIVE at once, one of several members waits for their agreement,
which the last SLICE packet completes and the timeout ends with SLICE; a slice no model is loaded in can be removed; a wiring
plan is taken while no slice is defined. -/
def Obligations.SlicesAndRoutes : Prop :=
  ∀ (s : State) (e : Sub) (id : BitVec 16) (f : Fn), id ≠ 0xFFFF →
    (e.fn = 0 → ∀ (n : BitVec 8) (rl : BitVec 5) (span : BitVec 16) (a : BitVec 64) (l : Bytes),
      let ms := listMembers n.toNat l
      let ok := s.sliceOk id f ms rl.toNat (listRing rl.toNat l) span.toNat
      (ok = false → Refused (.sliceDefine e id f n rl span a l) s e true 0x4E 0x2C) ∧
      (ok = true → ms = [s.address] → ∃ u x, Answered [.slices] (.sliceDefine e id f n rl span a l) s u e true 0x4E 0x00 ∧
        u.slices = (s.slices.filter fun z => !decide (z.id = id)) ++ [x] ∧ x.id = id ∧ x.fn = f ∧ x.members = ms ∧ x.state = .active ∧
        x.relaySpan = span.toNat) ∧
      (ok = true → 2 ≤ ms.length → ∃ u x, exec (.sliceDefine e id f n rl span a l) s = .next u ∧
        Same [.ports, .slices, .inbox, .msgId, .undelivered] s u ∧ x ∈ u.slices ∧ x.id = id ∧ x.fn = f ∧ x.members = ms ∧ x.state = .pending ∧
        x.sub = some e)) ∧
    (e.fn = 0 → (∀ m : SlotIx, ∀ l, s.load? m = some l → l.sliceId ≠ id) → (∃ x ∈ s.slices, x.id = id ∧ x.fn = f) →
      ∃ u, Answered [.slices] (.sliceRemove e id f) s u e true 0x4E 0x00 ∧ u.slices = s.slices.filter fun x => !decide (x.id = id)) ∧
    (e.fn = 0 → (∀ x ∈ s.slices, ¬(x.id = id ∧ x.fn = f)) → Refused (.sliceRemove e id f) s e true 0x4E 0x2C) ∧
    (∀ x c, s.slices = [x] → x.id = id → x.state = .pending → x.sub = some c →
      (∃ u, Answered [.slices] (.sliceAgreementTimeout id) s u c true 0x4E 0x2C ∧ u.slices = []) ∧
      ∀ k : BitVec 8, k.toNat < x.members.length → k.toNat ∉ x.agreed →
        (x.agreed.length + 1 = x.members.length → ∃ u, exec (.slicePacket id k x.digest true) s = .next u ∧
          u.slices = [{ x with agreed := x.agreed ++ [k.toNat], state := .active, sub := none }]) ∧
        (x.agreed.length + 1 ≠ x.members.length → ∃ u, exec (.slicePacket id k x.digest true) s = .next u ∧
          u.slices = [{ x with agreed := x.agreed ++ [k.toNat] }]) ∧
        ∀ d, d ≠ x.digest → ∃ u, exec (.slicePacket id k d true) s = .next u ∧ u.slices = s.slices) ∧
    (e.fn = 0 → ∀ (r sm : BitVec 8) (bm : BitVec 16) (up : Bool) (t : Bytes),
      (s.slices ≠ [] → Refused (.routeLoad e r sm bm up 0 t) s e true 0x4F 0x2D) ∧
      (s.slices = [] → bit bm s.boot.boardId.toNat = true → bit sm s.boot.slotId.toNat = true → r ≠ 0xFF →
        ∃ v, exec (.routeLoad e r sm bm up 0 t) s = .next { v.completeAdmin e 0x4F 0x00 with pending := s.pending } ∧
          Same [.fns, .ports, .slices, .um, .out] s v ∧
          v.um.live.plan = some { rackId := r, slotMask := sm, boardMask := bm, uplink := if up then some t else none }))

/-- R309, R371, R391, R392: LOUPE_SET under mode READ_WRITE applies a sync operation or writes scratchpad bytes and is counted;
LOUPE_READ returns the bytes of a scratchpad range, no more than the buffer holds; without the mode, or from a VF, they are
DENIED and change nothing. -/
def Obligations.Loupe : Prop :=
  ∀ (s : State) (e : Sub) (w : BitVec 16) (v : BitVec 48) (t : TileIx) (off : BitVec 28) (data : Bytes),
    let counted (u : State) : Prop := u.um = { s.um with loupeSets := s.um.loupeSets + 1 }
    (e.fn ≠ 0 ∨ s.um.live.loupeMode ≠ 2 → Refused (.loupeSetFill e w v) s e true 0x52 0x1C ∧
      Refused (.loupeSetClear e w) s e true 0x52 0x1C ∧ Refused (.loupeSetPoison e w) s e true 0x52 0x1C ∧
      (off.toNat % 64 = 0 → off.toNat + data.length ≤ 192 * 2 ^ 20 → 64 ≤ data.length → data.length ≤ 1048576 →
        Refused (.loupeSetScratch e t off data) s e true 0x52 0x1C)) ∧
    (e.fn = 0 → s.um.live.loupeMode = 2 → s.loupeBars (wTenant (s.word w)) = false →
      (wFull (s.word w) = false → wPoisoned (s.word w) = false → ∃ u, Answered [.sync, .um] (.loupeSetFill e w v) s u e true 0x52 0x00 ∧
        counted u ∧ u.sync = (s.applyFill w v).2.sync) ∧
      (wFull (s.word w) = true ∨ wPoisoned (s.word w) = true → Refused (.loupeSetFill e w v) s e true 0x52 0x2B) ∧
      (wPoisoned (s.word w) = false → ∃ u, Answered [.sync, .um] (.loupeSetClear e w) s u e true 0x52 0x00 ∧ counted u ∧
        wFull (u.word w) = false ∧ wPoisoned (u.word w) = false) ∧
      (∃ u, Answered [.sync, .um] (.loupeSetPoison e w) s u e true 0x52 0x00 ∧ counted u ∧ wPoisoned (u.word w) = true)) ∧
    (e.fn = 0 → s.um.live.loupeMode = 2 → off.toNat % 64 = 0 → off.toNat + data.length ≤ 192 * 2 ^ 20 → 64 ≤ data.length →
      data.length ≤ 1048576 → s.scratchBarred t off.toNat data.length = false →
      ∃ u, Answered [.tiles, .um] (.loupeSetScratch e t off data) s u e true 0x52 0x00 ∧ counted u ∧
        u.tiles = (s.scrPut t off.toNat data).tiles) ∧
    (∀ b : BitVec 384, lField b 0x20 0 6 = 0 → lField b 0x10 0 8 = 4 →
      (e.fn ≠ 0 ∨ (s.um.live.loupeMode ≠ 1 ∧ s.um.live.loupeMode ≠ 2) → Refused (.loupeRead e b) s e true 0x51 0x1C) ∧
      (e.fn = 0 → (s.um.live.loupeMode = 1 ∨ s.um.live.loupeMode = 2) → lField b 0x10 8 2 = t.val → lField b 0x14 0 28 % 64 = 0 →
        64 ≤ lField b 0x28 0 32 → lField b 0x28 0 32 ≤ 1048576 → lField b 0x14 0 28 + lField b 0x28 0 32 ≤ 192 * 2 ^ 20 →
        s.scratchBarred t (lField b 0x14 0 28) (lField b 0x28 0 32) = false →
        exec (.loupeRead e b) s = .next { (s.post (.bytes e.fn (BitVec.ofNat 64 (lField b 0x20 0 64))
          (s.scrGet t (lField b 0x14 0 28) (lField b 0x28 0 32)))).completeAdmin e 0x51 0x00 (BitVec.ofNat 64 (lField b 0x28 0 32))
          with pending := s.pending }))

/-! ## Malny (14_malny.md) -/

/-- R316 to R321, R372: a port trains to UP with the peer that the plan expects, to DISCOVERY_ONLY with another, and stays DOWN
or held off for no signal, a peer that drives, and failed authentication; a discovery record is compared with the plan; the
retry timer trains the ports that are DOWN or DISCOVERY_ONLY and no other. -/
def Obligations.PortTraining : Prop :=
  ∀ (s : State) (p : PortIx) (r : PortReport), s.malnyRuns = true →
    (∀ d a n, goodReport r d → s.expected p = some (a, n) → d.address = a → d.port.toNat = n →
      ∃ u, exec (.portTrain p r) s = .next u ∧ u.portIs p 4 0 ∧ portPeer u.ports[p].reg = d.address ∧ u.ports[p].peerDevice = d.device ∧
        u.ports[p].seq = 0 ∧ u.ports[p].expect = 0 ∧ u.ports[p].replay = [] ∧ u.ports[p].missingSent = false ∧
        u.ports[p].txKey = dirKey u.ports[p].secrets s.boot.device 0 ∧ u.ports[p].rxKey = dirKey u.ports[p].secrets d.device 0) ∧
    (∀ d, goodReport r d → s.expected p ≠ some (d.address, d.port.toNat) →
      ∃ u, exec (.portTrain p r) s = .next u ∧ u.portIs p 3 0 ∧ portPeer u.ports[p].reg = d.address) ∧
    (r.rx.signal = false → (r.tx.facingTx = true ∨ r.rx.facingTx = true) → ∃ u, exec (.portTrain p r) s = .next u ∧ u.portIs p 2 2) ∧
    (r.rx.signal = false → r.tx.facingTx = false → r.rx.facingTx = false → ∃ u, exec (.portTrain p r) s = .next u ∧ u.portIs p 0 1) ∧
    (r.rx.signal = true → r.rx.badLanes = 0 → r.tx.badLanes = 0 → r.authOk = false →
      ∃ u, exec (.portTrain p r) s = .next u ∧ u.portIs p 2 3) ∧
    (∀ d : Discovery, (portState s.ports[p] = 1 ∨ 3 ≤ portState s.ports[p]) →
      (s.expected p = some (d.address, d.port.toNat) → ∃ u, exec (.discoveryRecord p d) s = .next u ∧ u.portIs p 4 0) ∧
      (s.expected p ≠ some (d.address, d.port.toNat) → ∃ u, exec (.discoveryRecord p d) s = .next u ∧ u.portIs p 3 0)) ∧
    (∀ d : Discovery, portState s.ports[p] = 0 ∨ portState s.ports[p] = 2 → exec (.discoveryRecord p d) s = .next s) ∧
    ∀ rs, ∃ u, exec (.portRetryTimer rs) s = .next u ∧
      (portState s.ports[p] ≠ 0 → portState s.ports[p] ≠ 3 → u.ports[p] = s.ports[p]) ∧
      (portState s.ports[p] = 0 ∨ portState s.ports[p] = 3 → ∀ d, goodReport rs[p] d → s.expected p = some (d.address, d.port.toNat) →
        u.portIs p 4 0)

/-- R320, R326, R328, R442: a retrain takes fresh keys, is counted, comes back UP with the peer the plan expects and sends
again, under the fresh keys, the frames not acknowledged; at the fourth within one second the port goes DOWN; a port whose link
fails goes DOWN and gives up its keys. -/
def Obligations.PortLoss : Prop :=
  ∀ (s : State) (p : PortIx) (r : PortReport),
    (portState s.ports[p] = 4 → ∀ d, goodReport r d → s.expected p = some (d.address, d.port.toNat) →
      (s.ports[p].retrainTimes.filter fun t => decide (s.now.toNat - t.toNat < oneSecond)).length < 3 →
      ∃ u, exec (.portRetrain p r) s = .next u ∧ u.portIs p 4 0 ∧ u.ports[p].retrainCount = s.ports[p].retrainCount + 1 ∧
        u.ports[p].stat = bump s.ports[p].stat 56 8 1 ∧ u.ports[p].expect = s.ports[p].expect ∧
        u.ports[p].txKey = dirKey s.ports[p].secrets s.boot.device (s.ports[p].retrainCount + 1) ∧
        (s.ports[p].sent ++ s.ports[p].replay.map (u.ports[p].frameOf (0, 0))) <+: u.ports[p].sent) ∧
    (portState s.ports[p] = 4 → 3 ≤ (s.ports[p].retrainTimes.filter fun t => decide (s.now.toNat - t.toNat < oneSecond)).length →
      ∃ u, exec (.portRetrain p r) s = .next u ∧ portState u.ports[p] = 0) ∧
    (portState s.ports[p] < 3 → exec (.portRetrain p r) s = .next s ∧ exec (.portDown p) s = .next s) ∧
    (3 ≤ portState s.ports[p] → portState s.ports[p] ≤ 5 → ∃ u, exec (.portDown p) s = .next u ∧ u.portIs p 0 1 ∧
      u.ports[p].txKey = [] ∧ u.ports[p].rxKey = [])

/-- R322, R323, R325 to R327, R335: a good frame in order is taken once and its packet for this package waits; one out of order,
or with a codeword that cannot be corrected, is discarded with the frame expected the same; one whose tag fails begins a
retrain; the idle timer sends a LINK frame; a TRANSIT packet leaves when the allowance holds its bytes, and takes them from it. -/
def Obligations.Frames : Prop :=
  ∀ (s : State) (p : PortIx) (f : Frame),
    (portState s.ports[p] ≠ 3 → portState s.ports[p] ≠ 4 →
      exec (.malnyFrame p f) s = .next s ∧ exec (.linkIdleTimer p) s = .next s) ∧
    (portState s.ports[p] = 4 → f.crcOk = true → f.tagOk = true → (∀ n ∈ f.symErrs, n ≤ 12) → fld f.hdr 49 2 < 2 →
      ∀ k, f.packet = some k →
        (f.hdr.extractLsb' 0 24 = s.ports[p].expect → (headOf k.hdr).dest = s.address →
          ∃ u, exec (.malnyFrame p f) s = .next u ∧ u.ports[p].expect = s.ports[p].expect + 1 ∧ u.inbox = s.inbox ++ [k] ∧
            u.ports[p].nakSent = false ∧ u.ports[p].failures = 0) ∧
        (f.hdr.extractLsb' 0 24 ≠ s.ports[p].expect → s.ports[p].failures < 4 →
          ∃ u, exec (.malnyFrame p f) s = .next u ∧ u.ports[p].expect = s.ports[p].expect ∧ u.inbox = s.inbox ∧
            u.ports[p].nakSent = true)) ∧
    (portState s.ports[p] = 4 → ((∃ n ∈ f.symErrs, 12 < n) ∨ f.crcOk = false) → s.ports[p].failures < 3 →
      ∃ u, exec (.malnyFrame p f) s = .next u ∧ u.ports[p].expect = s.ports[p].expect ∧ u.inbox = s.inbox ∧
        u.ports[p].nakSent = true ∧ u.ports[p].failures = s.ports[p].failures + 1) ∧
    (portState s.ports[p] = 4 → (∀ n ∈ f.symErrs, n ≤ 12) → f.crcOk = true → f.tagOk = false → s.ports[p].failures < 4 →
      (s.ports[p].retrainTimes.filter fun t => decide (s.now.toNat - t.toNat < oneSecond)).length < 3 →
      ∃ u, exec (.malnyFrame p f) s = .next u ∧ u.portIs p 5 0 ∧ u.ports[p].expect = s.ports[p].expect ∧ u.inbox = s.inbox) ∧
    (portState s.ports[p] = 3 ∨ portState s.ports[p] = 4 → ∃ u w, exec (.linkIdleTimer p) s = .next u ∧ Same [.ports] s u ∧
      u.ports[p].sent = s.ports[p].sent ++ [w] ∧ w = s.ports[p].linkWire false ∧ u.ports[p].seq = s.ports[p].seq ∧
      w.hdr.extractLsb' 24 24 = s.ports[p].expect ∧ w.hdr.extractLsb' 49 2 = 3 ∧ ∀ q, q ≠ p → u.ports[q] = s.ports[q]) ∧
    ∀ n : BitVec 32, let a := min 3584 (s.ports[p].allowance + 112 * n.toNat)
      (∀ k r, s.ports[p].transit = k :: r → packetBytes k.packet ≤ a → s.maySend p 2 = true →
        ∃ u, exec (.transitSend p n) s = .next u ∧ u.ports[p].transit = r ∧ u.ports[p].allowance = a - packetBytes k.packet ∧
          u.ports[p].sent = s.ports[p].sent ++ [s.ports[p].frameOf s.ports[p].credit
            { seq := s.ports[p].seq, wraps := s.ports[p].wraps, item := k }] ∧ u.ports[p].seq = s.ports[p].seq + 1) ∧
      (s.ports[p].transit = [] ∨ (∃ k r, s.ports[p].transit = k :: r ∧ a < packetBytes k.packet) ∨ s.maySend p 2 = false →
        exec (.transitSend p n) s = .next (s.modPort p fun x => { x with allowance := a }))

/-- R102, R107, R108, R13: a packet of a NARROW or RAW message is written into the model's scratchpad region and a WIDE one
expanded there; packets of a narrow message after its DISCARD mark, or of one known to be written wide, are dropped, and a wide
copy waits for that mark; a packet for no model of the package changes nothing but that it no longer waits. R13, R17, R290,
R299, R304, R305: the FILL carried by a message acts once the message is whole: on its cohort's current step it fills the word,
for a step that is over it is dropped as STALE, for one to come, or to a full word, it is held, and to a word of another tenant
it is blocked, counted and changes no word, and its sender, this package or another, is told DENIED. -/
def Obligations.MessagesIn : Prop :=
  (∀ (s : State) (k : Packet),
     let h := headOf k.hdr
     let v := s.takePacket k
     (s.packetModel h = none → exec (.narrowMessage k) s = .next v ∧ exec (.wideMessage k) s = .next v ∧ exec (.rawMessage k) s = .next v) ∧
     ∀ m, s.packetModel h = some m → let at0 := s.spBase m h.tile + h.addr
       (((s.inbound? h).any fun x => x.mark) = true → exec (.narrowMessage k) s = .next v) ∧
       (((s.inbound? h).any fun x => x.mark) = false → s.wideFirst h = true →
         (h.discard = false → exec (.narrowMessage k) s = .next v) ∧
         (h.discard = true → ∃ u, exec (.narrowMessage k) s = .next u ∧ Same [.inbound, .wideSeen, .inbox] s u ∧ (h.src, h.msg) ∉ u.wideSeen ∧
           (∀ x, s.inbound? h = some x → ((u.inbound? h).any fun x => x.mark) = true))) ∧
       (((s.inbound? h).any fun x => x.mark) = false → s.wideFirst h = false → h.discard = false → ∃ u, exec (.narrowMessage k) s = .next u ∧
         Same [.tiles, .inbound, .inbox] s u ∧ u.inbox = v.inbox ∧ u.tiles = (s.scrPut h.tile at0 (narrowBytes k.data)).tiles) ∧
       (((s.inbound? h).any fun x => x.mark) = false → s.wideFirst h = false → h.discard = true → ∃ u, exec (.narrowMessage k) s = .next u ∧
         Same [.fns, .tiles, .inbound, .heldWide, .wideSeen, .inbox, .out] s u ∧ ((u.inbound? h).any fun x => x.mark) = true ∧ u.inbox = v.inbox ∧
         u.heldWide = s.heldWide.filter fun y => !(decide ((headOf y.hdr).src = h.src) && decide ((headOf y.hdr).msg = h.msg))) ∧
       (((s.inbound? h).any fun x => x.narrow && !x.mark) = true → ∃ k1, exec (.wideMessage k) s = .next { v with heldWide := s.heldWide ++ [k1] } ∧
         k1.data = k.data ∧ headOf k1.hdr = { h with typ := 1 }) ∧
       (((s.inbound? h).any fun x => x.narrow && !x.mark) = false → ∃ u, exec (.wideMessage k) s = .next u ∧
         u.tiles = (v.writePacket m { h with typ := 1 } k.data ((s.inbound? h).any fun x => x.bad)).2.tiles ∧ u.inbox = v.inbox) ∧
       (∃ u, exec (.rawMessage k) s = .next u ∧ Same [.tiles, .inbound, .inbox] s u ∧ u.inbox = v.inbox ∧
         u.tiles = (s.scrPut h.tile at0 k.data).tiles)) ∧
  (∀ (s : State) (p : PortIx) (k : Packet) (m : SlotIx) (w : BitVec 16),
     let h := headOf k.hdr
     let c : CohIx := Fin.ofNat 8 h.cohort
     let v := BitVec.ofNat 48 h.value
     let step := (s.stepOf m c).extractLsb' 0 48
     (h.src = s.address → h.dest ≠ s.address → ∃ u, exec (.carriedFill p k) s = .next u ∧ Same [.fns, .sync, .out] s u ∧
       u.sync = { s.sync with result := (syDenied, 0) }) ∧
     (h.src ≠ s.address ∨ h.dest = s.address → s.packetModel h = none → exec (.carriedFill p k) s = .next s) ∧
     (h.src ≠ s.address ∨ h.dest = s.address → s.packetModel h = some m → s.modelWord m c h.word = some w →
     (h.signal = false ∨ s.signalDue h = false → exec (.carriedFill p k) s = .next s) ∧
     (h.signal = true → s.signalDue h = true →
       ((wTenant (s.word w)).val = h.tenant → v = step → wFull (s.word w) = true → wPoisoned (s.word w) = false →
         ∃ u x, exec (.carriedFill p k) s = .next u ∧ u.sync = { s.sync with held := s.sync.held ++ [x] } ∧ x.word = w ∧ x.v = v) ∧
       ((wTenant (s.word w)).val = h.tenant → v = step → wFull (s.word w) = false →
         ∃ u, exec (.carriedFill p k) s = .next u ∧ Same [.inbound, .sync] s u ∧ u.sync.words = (s.applyFill w v).2.sync.words ∧
           u.sync.completions = (s.applyFill w v).2.sync.completions) ∧
       ((wTenant (s.word w)).val = h.tenant → v < step → ∃ u, exec (.carriedFill p k) s = .next u ∧ Same [.inbound, .sync] s u ∧
         u.sync = { s.sync with stat := bump s.sync.stat 16 16 1, result := (syStale, 0) }) ∧
       ((wTenant (s.word w)).val = h.tenant → step < v → ∃ u x, exec (.carriedFill p k) s = .next u ∧ u.sync = { s.sync with held := s.sync.held ++ [x] } ∧
         x.word = w ∧ x.v = v) ∧
       ((wTenant (s.word w)).val ≠ h.tenant → ∃ u, exec (.carriedFill p k) s = .next u ∧ Same [.fns, .inbound, .sync, .denials, .out] s u ∧
         u.sync.words = s.sync.words ∧ u.sync.stat = bump s.sync.stat 48 16 1 ∧
         (h.src = s.address → u.sync.result = (syDenied, 0) ∧ u.denials = s.denials) ∧
         (h.src ≠ s.address → u.denials = s.denials ++ [h.bits])))))

/-- R28, R32, R44, R181, R241, R280, R289, R307, R328, R336, R398: a cohort record opens the leader's step here with every
engine awake, or waits while the cohort's step still runs, and an eviction that it carries takes effect at once; a token message
fills the rows of that step or of the one that waits, and commits the tokens accepted elsewhere; CUT cuts the slice's cohorts,
and the first LEAVING of a package takes the slices it is a member of DOWN and their models' owners away. -/
def Obligations.StepsFromPeers : Prop :=
  ∀ (s : State),
    (∀ (w : BitVec 4608) (m : SlotIx) (c : CohIx) l, fld w 64 16 = m.val → fld w 80 8 = c.val → s.load? m = some l → s.isReady = true →
      s.loaded m = true → l.lost = false →
      (s.cohort? m c = none → ∃ u k, exec (.cohortRecord ⟨w, []⟩) s = .next u ∧ u.cohort? m c = some k ∧ k.step = w.extractLsb' 0 64 ∧
        (∀ r : Fin 32, k.mask.getLsbD r.val = true → (w.extractLsb' 96 32).getLsbD r.val = true ∧ k.rows[r] = s.rowOfRecord m w r) ∧
        k.doneCount = [] ∧ k.abandoned = 0 ∧ k.cutNow = false ∧ k.stepEnd = false ∧
        u.stepOf m c = w.extractLsb' 0 64 ∧ u.stepCount = s.stepCount + 1 ∧ (∀ t : TileIx, u.tiles[t].gated = 0) ∧
        ∀ x y, ¬(x = m ∧ y = c) → u.cohort? x y = s.cohort? x y) ∧
      (∀ k, s.cohort? m c = some k →
        (∃ u k', exec (.cohortRecord ⟨w, []⟩) s = .next u ∧ Same [.nextCohorts, .inbox] s u ∧ k' ∈ u.nextCohorts ∧ k'.model = m ∧
          k'.index = c ∧ k'.step = w.extractLsb' 0 64 ∧ k'.mask = w.extractLsb' 96 32 ∧ ∀ r : Fin 32, k'.rows[r] = s.rowOfRecord m w r) ∧
        ∀ id taken n, s.node? m id = some n → ∃ u, exec (.cohortRecord ⟨w, [.evict id taken]⟩) s = .next u ∧ u.node? m id = none)) ∧
    (∀ m c (a : Accepted) q, (s.keyOf m a.home a.handle).isOwn = false → s.seq? (s.keyOf m a.home a.handle) = some q →
      ∃ u q', exec (.tokenMessage m c ⟨[], [a]⟩) s = .next u ∧ Same [.seqs, .inbox] s u ∧ u.seq? (s.keyOf m a.home a.handle) = some q' ∧
        q'.tokens = q.tokens ++ a.tokens.map some ∧ q'.genToks = q.genToks ++ a.tokens ∧ q'.tree = a.tree) ∧
    (∀ m c k (r : TokenRow), s.nextCohorts = [k] → k.model = m → k.index = c → ∃ u k', exec (.tokenMessage m c ⟨[r], []⟩) s = .next u ∧
      Same [.nextCohorts, .inbox] s u ∧ u.nextCohorts = [k'] ∧
      (r.kind ≠ 0 → k' = { k with rows := k.rows.set r.row { k.rows[r.row] with
        token := r.token, position := r.position, kind := r.kind, parent := r.parent } }) ∧
      (r.kind = 0 → k' = { k with mask := clrBit k.mask r.row.val, rows := k.rows.set r.row { k.rows[r.row] with kind := 0, sample := false } })) ∧
    (∀ m c k (r : TokenRow), s.cohort? m c = some k → (∀ x ∈ s.nextCohorts, ¬(x.model = m ∧ x.index = c)) →
      ∃ u k', exec (.tokenMessage m c ⟨[r], []⟩) s = .next u ∧ Same [.cohorts, .inbox] s u ∧ u.cohort? m c = some k' ∧
      (r.kind ≠ 0 → k' = { k with rows := k.rows.set r.row { k.rows[r.row] with
        token := r.token, position := r.position, kind := r.kind, parent := r.parent } }) ∧
      (r.kind = 0 → k' = { k with mask := clrBit k.mask r.row.val, rows := k.rows.set r.row { k.rows[r.row] with kind := 0, sample := false } })) ∧
    (∀ id from', ∃ u, exec (.cut id from') s = .next u ∧ u.slices = s.slices ∧
      ∀ m c k l, s.cohort? m c = some k → s.load? m = some l → l.sliceId = id → (u.cohort? m c).map (fun k => k.cutNow) = some true) ∧
    (∀ p a n, (a, n) ∈ s.left ∨ a = s.address → exec (.leaving p a n) s = .next (s.takeType 7)) ∧
    (∀ p a n, (a, n) ∉ s.left → a ≠ s.address → ∃ u, exec (.leaving p a n) s = .next u ∧ u.left = s.left ++ [(a, n)] ∧
      u.slices = s.slices.map (fun x => if x.members.contains a && decide (x.state ≠ .pending) then { x with state := .down, memberLost := true } else x) ∧
      ∀ m l x, s.load? m = some l → x ∈ s.slices → a ∈ x.members → x.id = l.sliceId → (u.load? m).map (fun l => l.lost) = some true)

/-- R230 to R233: RELAY_PULL sends one block for each page that this package holds for the model, a Relay block waits on its
tile, SPILL_DONE marks the sequence's spill as written on its home board, and the target of a spill, where it can take 256
frames, holds the span in them. -/
def Obligations.RelayTraffic : Prop :=
  ∀ (s : State) (m : SlotIx) (layer : BitVec 8) (t : TileIx) (hd : BitVec 512) (data : Bytes) (h : Key),
    (s.geometry? m = none ∨ ((∀ x ∈ s.spans, x.model ≠ m) ∧ s.undelivered = []) → exec (.relayPull m layer) s = .next s) ∧
    ((s.geometry? m).isSome = true → ∃ u, exec (.relayPull m layer) s = .next u ∧ u.spans = s.spans ∧ u.undelivered = [] ∧
      u.relayStat = bump s.relayStat 40 24 ((s.spans.filter fun x => decide (x.model = m)).map fun x => x.pages.length).sum ∧
      (s.cohorts = [] → Same [.ports, .inbox, .msgId, .undelivered, .relayStat] s u)) ∧
    (∃ u, exec (.relayBlock t hd data) s = .next u ∧ u.inbox = (s.takeType 3).inbox) ∧
    ((∀ k ∈ s.cohorts, k.prismIn.length ≠ 4) → exec (.relayBlock t hd data) s =
      .next ((s.takeType 3).modTile t fun x => { x with relay := x.relay ++ [(hd, data)] })) ∧
    (∀ q, s.seq? h = some q →
      (q.spill.isSome = true → LeavesSeq [] (.spillDone h q.relayMap.length .returned) s h { q with spillDone := true }) ∧
      ∀ n, q.spill = none ∨ q.relayMap.length ≠ n → LeavesSeq [] (.spillDone h n .returned) s h q) ∧
    (s.seq? h = none → ∀ n, ∃ u, exec (.spillDone h n .returned) s = .next u ∧ Same [] s u) ∧
    ∀ n home bytes, let r := s.takeFrames m (handleFn h.handle) (handleSlot h.handle) ((List.range 256).map fun i => 256 * n + i)
      (∀ g fs s1, s.geometry? m = some g → r = some (fs, s1) →
        ∃ u, exec (.spillDone h n (.written m home bytes)) s = .next u ∧ u.undelivered = [] ∧
          u.spans = s.spans ++ [{ model := m, handle := h.handle, home := home, pages := ((List.range 256).map fun i => 256 * n + i).zip fs }] ∧
          (s.cohorts = [] → Same [.fns, .models, .treeOps, .ports, .inbox, .spans, .msgId, .undelivered, .out] s u)) ∧
      (s.geometry? m = none ∨ r = none →
        ∃ u, exec (.spillDone h n (.written m home bytes)) s = .next u ∧ u.spans = s.spans ∧ u.undelivered = [])

/-! ## Steps and engines (02_token_step.md, 04_matrix_array.md, 07_vector_engine.md, 08_kv_pages.md, 09_prism.md, 12_weight_tiers.md) -/

/-- R26 to R28, R34, R289: a step boundary does nothing for a model that is not loaded and running, or while the cohort's step
is under way; otherwise the step is settled, the cohort leaves, and the cohort leader either forms the next step, STEP one
higher, with a row for every bit of its mask, or leaves the cohort closed; another member opens the step of the leader's record
that waits (R44), if one does; only a message that finds no route cuts a step as it begins (R13, R328). R184: a copied page's
entry names the new frame with SHARED and SUMMARY_VALID clear, and the frame holds the old one's bytes. R221, R222: a page
summarised has a summary of every layer and group, and SUMMARY_VALID set. -/
def Obligations.StepsAndPages : Prop :=
  ∀ (s : State),
    (∀ m c ps news, s.load? m = none ∨ s.isReady = false ∨ s.loaded m = false ∨ (∃ l, s.load? m = some l ∧ l.lost = true) →
      exec (.stepBoundary m c ⟨ps, news⟩) s = .next s) ∧
    (∀ m c ps news k, s.cohort? m c = some k → k.stepEnd = false → k.cutNow = false → exec (.stepBoundary m c ⟨ps, news⟩) s = .next s) ∧
    (∀ m c ps news l, s.load? m = some l → s.isReady = true → s.loaded m = true → l.lost = false →
      (∀ k, s.cohort? m c = some k → k.stepEnd = true ∨ k.cutNow = true) → ∃ u, exec (.stepBoundary m c ⟨ps, news⟩) s = .next u ∧ u.undelivered = [] ∧
        (s.ownMember m ≠ 0 → (∀ k ∈ s.nextCohorts, ¬(k.model = m ∧ k.index = c)) → u.cohort? m c = none ∧ u.stepCount = s.stepCount) ∧
        (s.ownMember m ≠ 0 → ∀ k, (s.nextCohorts.find? fun k => decide (k.model = m) && decide (k.index = c)) = some k →
          u.stepOf m c = k.step ∧ u.stepCount = s.stepCount + 1 ∧ ∃ k', u.cohort? m c = some k' ∧ k'.step = k.step ∧
            ∀ r : Fin 32, k'.mask.getLsbD r.val = true → k.mask.getLsbD r.val = true ∧ k'.rows[r] = k.rows[r]) ∧
        (s.ownMember m = 0 → (u.cohort? m c = none ∧ u.stepCount = s.stepCount) ∨
          ∃ k, u.cohort? m c = some k ∧ k.step = s.stepOf m c + 1 ∧ k.mask ≠ 0 ∧
            (∀ r : Fin 32, k.mask.getLsbD r.val = decide (k.rows[r].kind ≠ 0)) ∧ k.doneCount = [] ∧ k.abandoned = 0 ∧ k.prismIn = [] ∧
            k.stepEnd = false ∧ (s.slices = [] → k.cutNow = false) ∧ u.stepOf m c = k.step ∧ u.stepCount = s.stepCount + 1 ∧
            (∀ t : TileIx, u.tiles[t].gated = 0) ∧ ∀ x ∈ u.cands, ¬(x.model = m ∧ x.cohort = c)) ∧
        ∀ m' c', ¬(m' = m ∧ c' = c) → ((u.cohort? m' c').map fun k => (k.step, k.mask, k.rows)) =
            (s.cohort? m' c').map (fun k => (k.step, k.mask, k.rows)) ∧ (s.slices = [] → u.cohort? m' c' = s.cohort? m' c')) ∧
    (∀ h page, (∀ q, s.seq? h = some q → (q.cow.find? fun y => decide (y.1 = page)) = none ∨ q.page? page = none) →
      exec (.cowCopy h page) s = .next s) ∧
    (∀ h page q y e, s.seq? h = some q → (q.cow.find? fun y => decide (y.1 = page)) = some y → q.page? page = some e →
      Memory.wf s.models[q.model].pool.data = true →
      ∃ u q' e', exec (.cowCopy h page) s = .next u ∧ Same [.models, .seqs] s u ∧ u.seq? h = some q' ∧ q'.page? page = some e' ∧
        peFrame e' = y.2 % 2 ^ 24 ∧ peShared e' = false ∧ peSummary e' = false ∧ peSpec e' = peSpec e ∧
        q'.cow = q.cow.filter (fun z => !decide (z.1 = page)) ∧ q'.tokens = q.tokens ∧
        (∀ a, a < 2 ^ 40 → getByte u.models[q.model].pool.data (frameBase y.2 + a) =
          getByte s.models[q.model].pool.data (frameBase (peFrame e) + a)) ∧
        ∀ f a, f ≠ y.2 → a < 2 ^ 40 → getByte u.models[q.model].pool.data (frameBase f + a) =
          getByte s.models[q.model].pool.data (frameBase f + a)) ∧
    (∀ h page, (∀ q, s.seq? h = some q → s.lens? q.model = none ∨ q.summarisable page = false) → exec (.lensSummary h page) s = .next s) ∧
    ∀ h page q e g, s.seq? h = some q → (s.lens? q.model).isSome = true → q.summarisable page = true → q.page? page = some e →
      s.geometry? q.model = some g → ∃ u q', exec (.lensSummary h page) s = .next u ∧ Same [.models, .seqs] s u ∧ u.seq? h = some q' ∧
        q'.page? page = some (setBit e 27) ∧ u.models[q.model].pool.data = s.models[q.model].pool.data ∧
        (∀ l i, l < g.layersP → i < g.groupsP → s.summarise q.model g page (peFrame e) l i ∈ u.models[q.model].pool.summaries) ∧
        ∀ x, x.frame ≠ peFrame e → (x ∈ u.models[q.model].pool.summaries ↔ x ∈ s.models[q.model].pool.summaries)

/-- R31, R84, R85, R279, R288, R292, R297, R298, R398: a descriptor of a cohort that does not run, or whose engine is held by an
earlier one of its list or by a wait, changes nothing; one whose WAIT does not complete leaves a watch or is abandoned and does
no more; one whose WAIT completes and whose data are there runs to its DONE, on every engine but Prism's, whose sets have a
statement of their own. -/
def Obligations.Descriptors : Prop :=
  ∀ (i : Instr) (c : DCtx) (d : BitVec 512) (e : BitVec 3) (s : State), descOf i = some (c, d, e) →
    (s.running? c.model c.cohort = none → exec i s = .next s) ∧
    ∀ k, s.running? c.model c.cohort = some k →
      (bit k.abandoned (8 * c.tile.val + e.toNat) = true ∨ s.engineHeld c.tile e (s.waitWord c d) = true ∨
        s.frontHeld c d e = true → exec i s = .next s) ∧
      (s.takesUp c d e k → descHere i s →
        (s.waitWord c d = none → e ≠ 2 → descData i s k → ∃ u, DescRuns i s u c d e k) ∧
        ∀ w, s.waitWord c d = some w → let r := (s.takenUp c d e k).waitFor (dWaitMode d) w (tileHome c.tile) e
          (r.1 = .waiting → ∃ u, exec i s = .next u ∧ Same [] r.2 u) ∧
          (r.1 = .abandoned → ∃ u, exec i s = .next u ∧ Same [] (r.2.abandon c e) u) ∧
          (r.1 = .ready → e ≠ 2 → descData i r.2 k → ∃ u, exec i s = .next u ∧ Completes r.2 u c d e k))

/-- R71, R73, R81, R82, R98, R275, R276, R280: FETCH_STREAM binds its range to a stream context, and waits for a context in use
and a window slot not filled; FETCH_STAGE writes its range into the scratchpad; MATMUL without the weights of its own cohort's
step waits, and else writes the totals of its active rows and no other's, and takes its bytes from the stream; a rescale block
is written once, when no earlier operation still reads what it replaces. -/
def Obligations.StreamsAndArray : Prop :=
  ∀ (s : State) (c : DCtx) (d : BitVec 512) (k : Cohort),
    (s.starts c d 3 k → let f := fetchOf d
      (descData (.fetchStream c d) s k → ∃ u st, DescRuns (.fetchStream c d) s u c d 3 k ∧
        u.tiles[c.tile].streams = s.tiles[c.tile].streams ++ [st] ∧ st.id = f.stream ∧ st.model = c.model ∧ st.cohort = c.cohort ∧ st.sec = f.sec ∧
        st.start = f.offset + (match s.fetchIndex c.tile f with | some n => n * f.units | none => 0) ∧ st.len = f.length ∧
        st.staged = f.staged ∧ st.spAddr = f.spAddr ∧
        st.kind = (if s.fetchEmpty c.tile f then 1 else if s.fetchOutside c.model c.tile f then 2 else 0)) ∧
      (s.fetchReady c f = none → (s.tiles[c.tile].streams.any fun x => decide (x.id = f.stream)) = true →
        ∃ u, exec (.fetchStream c d) s = .next u ∧ Same [.tiles] s u ∧ u.tiles[c.tile].streams = s.tiles[c.tile].streams) ∧
      (∀ y, s.fetchReady c f = some y → k.stall = none → ∀ i, i = .fetchStream c d ∨ i = .fetchStage c d →
        ∃ u k', exec i s = .next u ∧ Same [.fns, .tiles, .models, .cohorts, .out] s u ∧ u.cohort? c.model c.cohort = some k' ∧
          k'.stall = some (y, s.now) ∧ k'.doneCount = k.doneCount ∧
          u.models[c.model].apertureStat = bump s.models[c.model].apertureStat 0 32 1 ∧
          u.tiles[c.tile].streams = s.tiles[c.tile].streams ∧ u.tiles[c.tile].scratch = s.tiles[c.tile].scratch) ∧
      (s.fetchReady c f = none → s.fetchEmpty c.tile f = false → s.fetchOutside c.model c.tile f = false →
        ∃ u, DescRuns (.fetchStage c d) s u c d 3 k ∧
          let b := s.secBytes c.model f.sec (s.fetchStart c.tile f) f.length
          let at0 := s.spBase c.model c.tile + f.spAddr
          (∀ n, n < f.length → some (getByte u.tiles[c.tile].scratch (at0 + n)) = b[n]?) ∧
          (∀ n, n < at0 ∨ at0 + f.length ≤ n → getByte u.tiles[c.tile].scratch n = getByte s.tiles[c.tile].scratch n) ∧
          ∀ t, t ≠ c.tile → u.tiles[t] = s.tiles[t])) ∧
    (let a := arrayOf d
      let rows := maskRows (effMask k d)
      let strm := s.tiles[c.tile].streams
      (s.boundStream c a = none → s.starts c d 0 k → ∃ u, exec (.arrayMatmul c d) s = .next u ∧ Same [.tiles] s u ∧
        ∀ t : TileIx, u.tiles[t].acc = s.tiles[t].acc ∧ u.tiles[t].streams = s.tiles[t].streams ∧ u.tiles[t].scratch = s.tiles[t].scratch) ∧
      ∀ st, s.boundStream c a = some st →
        (s.starts c d 0 k → (∀ x ∈ strm, x.id = a.stream → x = st) →
          (st.kind = 1 → ∃ u, DescRuns (.arrayMatmul c d) s u c d 0 k ∧ u.tiles[c.tile].acc = s.tiles[c.tile].acc ∧
            u.tiles[c.tile].streams = strm.filter fun x => decide (x.id ≠ a.stream)) ∧
          (st.kind = 0 → let n := a.streamBytes st.rsLoad
            ∃ u, DescRuns (.arrayMatmul c d) s u c d 0 k ∧
              (∀ x, x ∈ u.tiles[c.tile].streams ↔ (x ∈ strm ∧ x.id ≠ a.stream) ∨ (n < st.len ∧ x =
                { st with start := st.start + n, len := st.len - n, staged := st.staged - n, spAddr := st.spAddr + n, rsLoad := false,
                          rsPending := false })) ∧
              (s.tiles[c.tile].chunks = [] ∨ dChain d = true → ∀ ix, (∀ r ∈ rows, ix % 32 ≠ r.val) →
                sget emptyTotal u.tiles[c.tile].acc ix = sget emptyTotal s.tiles[c.tile].acc ix) ∧
              (s.tiles[c.tile].chunks = [] → dChain d = false → a.imp = false → a.fold = 1 → a.epi ≠ 0 →
                ∀ x ∈ (s.activations c d a rows false).1, ∀ y, y < a.n →
                  sget emptyTotal u.tiles[c.tile].acc (accIx a.acc (a.outBase + y) x.1.val) =
                    (freshTotal (s.beatWeights c.tile st a y) a.fmt (x.2.take a.beats) x.2).word)))) ∧
    ∀ (t : TileIx) (n : Fin 8192), let own := s.tiles[t].streams.find? fun x => decide (x.id = n.val)
      (own = none → exec (.rescaleBlockWrite t n) s = .next s) ∧
      ∀ st, own = some st →
        (st.rsPending = false ∨ s.rescaleHeld t st = true ∨ s.load? st.model = none → exec (.rescaleBlockWrite t n) s = .next s) ∧
        (st.rsPending = true → s.rescaleHeld t st = false → ∀ l, s.load? st.model = some l → ∃ u, exec (.rescaleBlockWrite t n) s = .next u ∧ Same [.tiles] s u ∧
          (∀ j, sget 0 u.tiles[t].rs j = if l.rsBase[t] + st.rsIndex ≤ j ∧ j < l.rsBase[t] + st.rsIndex + st.rsCount then
              BitVec.ofNat 32 (leNat (s.streamBytes t st (4 * (j - (l.rsBase[t] + st.rsIndex))) 4))
            else sget 0 s.tiles[t].rs j) ∧
          (∀ x ∈ u.tiles[t].streams, x.id = n.val → x.rsPending = false) ∧ u.tiles[t].acc = s.tiles[t].acc ∧
          u.tiles[t].scratch = s.tiles[t].scratch)

/-- R134, R135, R137, R140: a VECTOR descriptor starts with its predicates and its stack clear, VL and context as it gives them,
and the registers of its own model only; SC_LOAD reads c16 to c63. R32, R36 to R40, R156: EMBED writes each row's embedding row;
CANDIDATES keeps at most 1,024 of each sampled row and exports them (log entry 122 for their layout); SAMPLE merges them, and a
greedy row's token is one that no other candidate comes before; ACCEPT commits it; STOP_EMIT emits it, unless a fault has ended
the request; STEP_END marks the step's end and sends one message to every other member. -/
def Obligations.VectorAndLoop : Prop :=
  ∀ (s : State) (c : DCtx) (d : BitVec 512) (k : Cohort), s.starts c d 1 k →
    let rows := (maskRows (effMask k d)).filter fun r => decide (k.rows[r].kind ≠ 0)
    let base := s.spBase c.model c.tile
    (dField d 0x14 0 16 = 0 → ∃ u, DescRuns (.vectorRun c d) s u c d 1 k ∧
      let v := s.tiles[c.tile].vec
      let w := u.tiles[c.tile].vec
      w.p = Vector.replicate 8 0 ∧ w.stack = [] ∧ w.vl = vlOf (dField d 0x10 10 11) ∧ w.ctx = vecCtxOf c k d ∧
      w.v = (if v.ctx.model = some c.model then v.v else []) ∧ w.flags = v.flags ∧ w.opc = v.opc ∧
      u.tiles[c.tile].scratch = s.tiles[c.tile].scratch ∧
      ∀ i, sget 0 w.c i = if dField d 0x14 16 1 = 1 ∧ 16 ≤ i ∧ i < 64 then
          (match s.load? c.model, s.programs? c.model with
            | some l, some p => if dField d 0x18 0 28 + 384 ≤ p.spSpan[c.tile] then
                BitVec.ofNat 64 (leNat (s.scrGet c.tile (l.spBase[c.tile] + dField d 0x18 0 28 + 8 * (i - 16)) 8))
              else nan32.zeroExtend 64
            | _, _ => nan32.zeroExtend 64)
        else sget 0 v.c i) ∧
    (∀ loc : EmbedLoc, ∃ u, DescRuns (.loopEmbed c d loc) s u c d 1 k ∧
      (∀ r ∈ rows, ∀ n, n < loc.rowBytes → some (getByte u.tiles[c.tile].scratch (base + loopSrc d + r.val * loc.rowBytes + n)) =
        (s.secBytes c.model loc.sec (loc.offset + k.rows[r].token.toNat * loc.rowBytes) loc.rowBytes)[n]?) ∧
      ∀ a, (∀ r ∈ rows, a < base + loopSrc d + r.val * loc.rowBytes ∨ base + loopSrc d + (r.val + 1) * loc.rowBytes ≤ a) →
        getByte u.tiles[c.tile].scratch a = getByte s.tiles[c.tile].scratch a) ∧
    (∃ u, DescRuns (.loopCandidates c d) s u c d 1 k ∧
      (∀ r ∈ rows, k.rows[r].sample = true → (s.rowCands c d k r).1 ∈ u.cands ∧ (s.rowCands c d k r).1.cands.length ≤ 1024 ∧
        u.scrGet c.tile (base + loopDst d + 8256 * r.val) 8204 = candBytes (s.rowCands c d k r).1) ∧
      (∀ a, (∀ r ∈ rows, a < base + loopDst d + 8256 * r.val ∨ base + loopDst d + 8256 * r.val + 8204 ≤ a) →
        getByte u.tiles[c.tile].scratch a = getByte s.tiles[c.tile].scratch a) ∧
      ∀ x, (x.model ≠ c.model ∨ x.cohort ≠ c.cohort ∨ x.row ∉ rows) → (x ∈ u.cands ↔ x ∈ s.cands)) ∧
    (∀ peers : List PeerCand, ∃ u, DescRuns (.loopSample c d peers) s u c d 1 k ∧
      ∀ r ∈ rows, k.rows[r].sample = true → s.homeRow k r = true → ∀ own q,
        (s.cands.find? fun x => decide (x.model = c.model) && decide (x.cohort = c.cohort) && decide (x.row = r)) = some own →
        s.seq? k.rows[r].handle = some q →
        let ps := peers.filter fun y => decide (y.row = r)
        ∃ x ∈ u.sampled, x = (sampleRow q.policy c.model c.cohort r (nodePos k r) (hasTree k q.handle) own ps).1 ∧
          (polGreedy q.policy = true → (∀ y ∈ own.cands ++ ps.flatMap (·.cands), (fp32 y.2).isNan = false) → ∀ t, x.token = some t →
            ∃ w, (t, w) ∈ own.cands ++ ps.flatMap (·.cands) ∧ ∀ y ∈ own.cands ++ ps.flatMap (·.cands), candBefore y (t, w) = false) ∧
          (hasTree k q.handle = false → x.fault ≠ 0 → ∃ q', u.seq? q.handle = some q' ∧ (x.fault, 0) ∈ q'.causes)) ∧
    (∀ r ∈ s.rootRows k rows, ∀ q x t, s.seq? k.rows[r].handle = some q → (∀ y ∈ s.rootRows k rows, k.rows[y].handle = q.handle → y = r) →
      hasTree k q.handle = false → s.sampled? k.model k.index r = some x → x.fault = 0 → x.token = some t →
      let p : Pass := { root := k.rows[r].position.toNat, path := [], tokens := [(BitVec.ofNat 18 t, r)], nodes := 0 }
      (∃ u q', DescRuns (.loopAccept c d) s u c d 1 k ∧ u.seq? q.handle = some q' ∧ q'.pass = some p ∧ q'.tokens = q.tokens) ∧
      ∃ u q', DescRuns (.loopStopEmit c d) s u c d 1 k ∧ u.seq? q.handle = some q' ∧
        (q.causes = [] → q.stopped = none → q'.pass = some p ∧ q'.slots = q.slots - (s.emits q p).length ∧
          q'.genToks = q.genToks ++ (s.emits q p).map fun e => BitVec.ofNat 18 e.1) ∧
        (q.causes ≠ [] ∨ q.stopped ≠ none → q' = q)) ∧
    (∃ u, DescRuns (.loopAccept c d) s u c d 1 k) ∧ (∃ u, DescRuns (.loopStopEmit c d) s u c d 1 k) ∧
    (∃ u k', exec (.loopStepEnd c d) s = .next u ∧ u.cohort? c.model c.cohort = some k' ∧ k'.stepEnd = true ∧ k'.rows = k.rows) ∧
    (s.routesOpen c.model → ∃ u, DescRuns (.loopStepEnd c d) s u c d 1 k ∧
      (∀ x, s.sliceOf c.model = some x →
        u.msgId = s.msgId + BitVec.ofNat 32 (x.members.filter fun a => decide (a ≠ s.address)).length) ∧
      ((∀ x, s.sliceOf c.model = some x → ∀ a ∈ x.members, a = s.address) → u.inbox = s.inbox ∧ u.ports = s.ports))

/-- R198, R209, R210, R233: a Prism descriptor waits in its cohort's set until the Prisms of all four tiles have come to it and
its Relay blocks are there; then the set runs once, and the DONE of each of the four tiles follows; a row that saw no key gives
zeros, MAX −∞ and SUM 0. -/
def Obligations.PrismSets : Prop :=
  (∀ (s : State) (c : DCtx) (d : BitVec 512) (k : Cohort) (x : Instr × Nat),
    x ∈ [(Instr.prismAttend c d, 1), (.prismPartial c d, 2), (.prismMerge c d, 3)] → s.starts c (setFld d 8 8 x.2) 2 k →
    ((k.prismIn.any fun e => decide (e.1 = c.tile)) = true → exec x.1 s = .next s) ∧
    ((k.prismIn.any fun e => decide (e.1 = c.tile)) = false → let l := k.prismIn ++ [(c.tile, setFld d 8 8 x.2)]
      (k.prismIn.length < 3 ∨ (k.prismIn.length = 3 ∧ ∃ h, l.head? = some h ∧ s.relayMissing k h.2 = true) →
        ∃ u k', exec x.1 s = .next u ∧ Same [.tiles, .cohorts] s u ∧ u.cohort? c.model c.cohort = some k' ∧ k'.prismIn = l ∧
          k'.doneCount = k.doneCount ∧ ∀ t : TileIx, u.tiles[t].scratch = s.tiles[t].scratch ∧ u.tiles[t].acc = s.tiles[t].acc) ∧
      (k.prismIn.length = 3 → (∀ h, l.head? = some h → s.relayMissing k h.2 = false) → (l.map (·.1)).Nodup →
        ∃ u k', exec x.1 s = .next u ∧ u.cohort? c.model c.cohort = some k' ∧ k'.prismIn = [] ∧
          (∀ h, l.head? = some h → ∀ t : TileIx,
            let v := (s.takenUp c (setFld d 8 8 x.2) 2 k).modCohort c.model c.cohort fun k => { k with prismIn := l }
            u.tiles[t].scratch = (v.prismSet { k with prismIn := l } h.2).tiles[t].scratch) ∧
          ∀ e ∈ l, sget 0 k'.doneCount (256 * e.1.val + (dLayer e.2).toNat) =
            sget 0 k.doneCount (256 * e.1.val + (dLayer e.2).toNat) + 1))) ∧
  ∀ p : PRow, p.nan = false → p.inf = false → p.seen = false → p.finish = (p.o.map fun _ => .zero, 0xFF800000, 0, stEmptyRow)

/-- R13, R16, R101, R102, R105, R106, R324, R334: an EXCHANGE descriptor sends its rows as one message under the next message
number, NARROW or WIDE by the drift monitor's verdict, which it keeps for the step, RAW unchanged, in packets of at most 3,552
bytes with the signal on the last; a refused route sends nothing and gives DENIED (log entry 115 for its DONE). -/
def Obligations.Exchanges : Prop :=
  ∀ (s : State) (c : DCtx) (d : BitVec 512) (k : Cohort), s.starts c d 5 k → let e := exchOf d
    (s.exchDest c.model e = none → ∀ i ∈ [Instr.exchangeNarrow c d, .exchangeWide c d, .exchangeRaw c d],
      ∃ u, exec i s = .next u ∧ Completes (s.syncResult syDenied 0) u c d 5 k ∧ u.inbox = s.inbox ∧ u.ports = s.ports ∧ u.msgId = s.msgId) ∧
    ∀ x dest, s.exchDest c.model e = some (x, dest) → s.routesOpen c.model →
      (∀ i ∈ [Instr.exchangeNarrow c d, .exchangeWide c d, .exchangeRaw c d], ∃ u, DescRuns i s u c d 5 k ∧ u.msgId = s.msgId + 1) ∧
      (dest = s.address → ∃ u ks, DescRuns (.exchangeRaw c d) s u c d 5 k ∧ u.inbox = s.inbox ++ ks ∧ u.ports = s.ports ∧ ks ≠ [] ∧
        (∀ p ∈ ks, (headOf p.hdr).typ = 2 ∧ (headOf p.hdr).dest = dest ∧ (headOf p.hdr).src = s.address ∧
          (headOf p.hdr).slice = x.id ∧ (headOf p.hdr).msg = s.msgId ∧ (headOf p.hdr).tile = e.dstTile ∧ p.data.length ≤ 3552 ∧
          (headOf p.hdr).model = c.model.val ∧ (headOf p.hdr).cohort = c.cohort.val) ∧
        (∀ p ∈ ks.dropLast, (headOf p.hdr).last = false ∧ (headOf p.hdr).signal = false) ∧
        (∀ p, ks.getLast? = some p → (headOf p.hdr).last = true ∧ (headOf p.hdr).signal = decide (dDoneMode d = 2) ∧
          (dDoneMode d = 2 → (headOf p.hdr).word = dDoneWord d ∧ (headOf p.hdr).value = (k.step.extractLsb' 0 48).toNat)) ∧
        (ks.flatMap (·.data)) = (maskRows (effMask k d)).flatMap fun r =>
          s.scrGet c.tile (s.spBase c.model c.tile + e.src + r.val * e.srcStride) e.length) ∧
      (dest = s.address → ∃ u ks, DescRuns (.exchangeWide c d) s u c d 5 k ∧ u.inbox = s.inbox ++ ks ∧ ks ≠ [] ∧
        ∀ p ∈ ks, (headOf p.hdr).typ = 1 ∧ p.data.length ≤ 3552) ∧
      (s.judged? c k e.mon = none → (s.monitor? c.model e.mon).isSome = true →
        ∃ u v, DescRuns (.exchangeNarrow c d) s u c d 5 k ∧ u.judged? c k e.mon = some v) ∧
      (dest = s.address → ∀ v, s.judged? c k e.mon = some v → ∃ u ks, DescRuns (.exchangeNarrow c d) s u c d 5 k ∧
        u.inbox = s.inbox ++ ks ∧ ks ≠ [] ∧ ∀ p ∈ ks, (headOf p.hdr).typ = (if v then 0 else 1) ∧ p.data.length ≤ 3552)

/-- R159, R165, R167, R184: APPEND waits while a page of its rows is being copied; then each row's key and value of every group
stand in the frame of its page, narrowed, at the places of their position, and no other byte of a page changes. -/
def Obligations.Appends : Prop :=
  ∀ (s : State) (c : DCtx) (d : BitVec 512) (k : Cohort), s.starts c d 4 k →
    let a := appendOf d
    let rows := liveRows k (effMask k d)
    let y := (dLayer d).toNat
    (rows.any (s.copying k) = true → ∃ u, exec (.appendKv c d) s = .next u ∧ Same [.tiles] s u ∧
      ∀ t : TileIx, u.tiles[t].kvErr = s.tiles[t].kvErr ∧ u.tiles[t].kvGroups = s.tiles[t].kvGroups) ∧
    (rows.any (s.copying k) = false → ∀ g, s.geometry? c.model = some g →
      let place (r : Fin 32) (x : BitVec 32) : Prop :=
        ∃ q, s.seq? k.rows[r].handle = some q ∧ q.page? (k.rows[r].position.toNat / 256) = some x
      let pos (r : Fin 32) : Nat := k.rows[r].position.toNat % 256
      let vec (r : Fin 32) (i kind : Nat) : Bytes × Bytes × List (List Machine.Num × Group) :=
        kvNarrow g (s.appendSource c a r ((if kind = 0 then a.kOff else a.vOff) + i * g.headDim) g.headDim)
      ∃ u, DescRuns (.appendKv c d) s u c d 4 k ∧ (∀ m, m ≠ c.model → u.models[m] = s.models[m]) ∧
        (∀ n, (∀ r ∈ rows, ∀ x, place r x → ∀ i kind, i < a.gCount → kind < 2 →
            (n < frameBase (peFrame x) + codeAddr g y (a.gFirst + i) kind (pos r) ∨
              frameBase (peFrame x) + codeAddr g y (a.gFirst + i) kind (pos r) + (vec r i kind).1.length ≤ n) ∧
            (n < frameBase (peFrame x) + sideAddr g y (a.gFirst + i) kind (pos r) ∨
              frameBase (peFrame x) + sideAddr g y (a.gFirst + i) kind (pos r) + (vec r i kind).2.1.length ≤ n)) →
          getByte u.models[c.model].pool.data n = getByte s.models[c.model].pool.data n) ∧
        (g.headDim % 64 = 0 → y < g.layersP → a.gFirst + a.gCount ≤ g.groupsP → geoFrame g < 2 ^ 40 →
          (∀ r ∈ rows, ∀ r' ∈ rows, ∀ x x', place r x → place r' x' → r ≠ r' → peFrame x ≠ peFrame x' ∨ pos r ≠ pos r') →
          ∀ r ∈ rows, ∀ x, place r x → ∀ i kind, i < a.gCount → kind < 2 →
            u.frameBytes c.model (peFrame x) (codeAddr g y (a.gFirst + i) kind (pos r)) (geoVec g) = (vec r i kind).1 ∧
            u.frameBytes c.model (peFrame x) (sideAddr g y (a.gFirst + i) kind (pos r)) (geoSc g) = (vec r i kind).2.1))

/-! ## The tiers (12_weight_tiers.md) -/

/-- R254 to R256, R278 to R282: a fill puts the next layer into a free window slot and ends the stalls on it; a stall that times
out cuts its cohort and ends its requests with FAULT_TIER_TIMEOUT; the scrubber counts corrected codewords and those it reports
as uncorrectable (of more than three symbols in error it need not report one: log entry 131), and marks what it found damaged; a
consumer that met a damaged tile ends its rows' requests with FAULT_MEM_UNCORRECTABLE, and a tile without a good copy in flash
is quarantined. -/
def Obligations.Tiers : Prop :=
  ∀ (s : State),
    (∀ m, s.load? m = none → exec (.windowFill m) s = .next s) ∧
    (∀ m l, s.load? m = some l → let ys := s.windowLayers m
      let n := max 1 ys.length
      (ys[l.nextFill % n]? = none → exec (.windowFill m) s = .next s) ∧
      (∀ y, ys[l.nextFill % n]? = some y → l.window.contains (some y) = true ∨ l.window.contains none = false →
        exec (.windowFill m) s = .next s) ∧
      (∀ y, ys[l.nextFill % n]? = some y → l.window.contains (some y) = false → l.window.contains none = true →
        ∃ u l', exec (.windowFill m) s = .next u ∧ Same [.models, .cohorts] s u ∧ u.load? m = some l' ∧
          l'.window = l.window.set (l.window.findIdx fun w => decide (w = none)) (some y) ∧ l'.nextFill = (l.nextFill + 1) % n ∧
          u.cohorts = s.cohorts.map (fun k => if decide (k.model = m) && (k.stall.any fun x => decide (x.1 = y)) then { k with stall := none }
            else k))) ∧
    (∀ m c, (∀ k, s.cohort? m c = some k → k.stall = none) → exec (.windowTimeout m c) s = .next s) ∧
    (∀ m c k y, s.cohort? m c = some k → k.stall = some y → ∃ u k', exec (.windowTimeout m c) s = .next u ∧
      u.cohort? m c = some k' ∧ k'.cutNow = true ∧ k'.stall = none ∧
      fld u.models[m].apertureStat 48 16 = min 0xFFFF (fld s.models[m].apertureStat 48 16 + 1) ∧
      ∀ h q, h ∈ rowHandles k 0xFFFFFFFF → h.isOwn = true → s.seq? h = some q → q.state ≠ .ended → q.state ≠ .ending → q.causes = [] →
        q.lastOut = false → ∃ q', u.seq? h = some q' ∧ (q'.state = .ended ∨ (q'.state = .ending ∧ u.holds h = true)) ∧
          q'.endStatus = 0x12) ∧
    (∀ (x : Fin 8) n d p, let t := stackTile x
      let j : Fin 2 := Fin.ofNat 2 x.val
      ∃ u, exec (.scrubRead x n d p) s = .next u ∧
        fld u.tiles[t].eccStat[j] 16 32 = (if n = 1 ∨ n = 2 then min (2 ^ 32 - 1) (fld s.tiles[t].eccStat[j] 16 32 + 1)
          else fld s.tiles[t].eccStat[j] 16 32) ∧
        fld u.tiles[t].eccStat[j] 48 16 = (if n = 3 ∨ (3 < n ∧ (s.reported n).1 = true) then min 0xFFFF (fld s.tiles[t].eccStat[j] 48 16 + 1)
          else fld s.tiles[t].eccStat[j] 48 16) ∧
        fld u.tiles[t].eccStat[j] 0 16 = (if p then min 0xFFFF (fld s.tiles[t].eccStat[j] 0 16 + 1) else fld s.tiles[t].eccStat[j] 0 16) ∧
        (n = 0 → Same [.tiles] s u) ∧ (n = 1 ∨ n = 2 → Same [.tiles, .fns, .out] s u) ∧
        (3 < n → (s.reported n).1 = false → Same [.tiles, .fresh] s u) ∧
        (n = 3 ∨ (3 < n ∧ (s.reported n).1 = true) → (∀ m f, d = .pageFrame m f → f ∈ u.models[m].pool.marked ++ u.models[m].pool.free) ∧
          (∀ h q, d = .pageList h → s.seq? h = some q → (u.seq? h).map (·.listBad) = some true) ∧
          ∀ m f l g, d = .summary m f l g → (∀ y ∈ u.models[m].pool.summaries, ¬(y.frame = f ∧ y.layer = l ∧ y.group = g)) ∧
            ∀ q ∈ u.seqs, q.model = m → ∀ e ∈ q.pages, peSwapped e = false → peFrame e = f → peSummary e = false)) ∧
    ∀ m i n, exec (.tileReread m i n none true) s = .next s ∧
      (∀ o, ∃ u, exec (.tileReread m i n o false) s = .next u ∧ (i, n) ∈ u.models[m].quarantine ++ u.models[m].lostUnits) ∧
      ∀ c mask x k ok, s.cohort? m c = some k → ∃ u, exec (.tileReread m i n (some (c, mask, x)) ok) s = .next u ∧
        ∀ h q, h ∈ rowHandles k mask → s.seq? h = some q →
          ∃ q', u.seq? h = some q' ∧ q'.causes = q.causes ++ [(0x14, s.faultDetail m (s.secLayer m i) i)]

/-- R262 to R266, R271, R274, R281: a unit read is counted against its block; one that needed the slow decode has its block
scheduled for refresh, and one that no copy can give is quarantined; retries rewrite it or lose it and degrade the slot;
refresh, wear levelling and a failed program move a block's data and erase or retire it; a slot becomes EMPTY with its last
block erased. -/
def Obligations.FlashTier : Prop :=
  ∀ (s : State),
    (∀ m i n slow mir, ∃ u, exec (.flashUnitRead m i n true slow mir) s = .next u ∧ Same [.flash] s u ∧
      u.flash = s.flash.countRead m i n false) ∧
    (∀ m i n mir, ∃ u, exec (.flashUnitRead m i n false true mir) s = .next u ∧ Same [.flash] s u ∧
      ∀ id, s.flash.unitBlock m i n false = some id → id ∈ u.flash.refreshQueue) ∧
    (∀ m i n mir, ∃ u, exec (.flashUnitRead m i n false false mir) s = .next u ∧
      fld u.flash.readStat 48 16 = min 0xFFFF (fld s.flash.readStat 48 16 + 1) ∧
      (s.mirrored m i = true → mir = true → u.models = s.models ∧ fld u.flash.readStat 32 16 = min 0xFFFF (fld s.flash.readStat 32 16 + 1)) ∧
      (s.mirrored m i = false ∨ mir = false → fld u.flash.readStat 32 16 = fld s.flash.readStat 32 16 ∧
        (i, n) ∈ u.models[m].quarantine ++ u.models[m].lostUnits)) ∧
    (∀ m i n ok, s.models[m].quarantine.contains (i, n) = false → exec (.readRetry m i n ok) s = .next s) ∧
    (∀ m i n ok, s.models[m].quarantine.contains (i, n) = true → ∃ u, exec (.readRetry m i n ok) s = .next u ∧
      fld u.flash.readStat 16 16 = min 0xFFFF (fld s.flash.readStat 16 16 + 1) ∧
      u.models[m].quarantine = s.models[m].quarantine.filter (fun y => !decide (y = (i, n))) ∧
      (ok = true → u.models[m].lostUnits = s.models[m].lostUnits ∧ u.models[m].degraded = s.models[m].degraded) ∧
      (ok = false → u.models[m].lostUnits = s.models[m].lostUnits ++ [(i, n)] ∧ u.models[m].degraded = true)) ∧
    (∀ id worst th, (∀ b, s.flash.block? id = some b → b.held = false) → exec (.readDisturbScan id worst th) s = .next s) ∧
    (∀ id worst th b, s.flash.block? id = some b → b.held = true → ∃ u, exec (.readDisturbScan id worst th) s = .next u ∧
      Same [.flash] s u ∧ (th < worst → id ∈ u.flash.refreshQueue ∧ u.flash.blocks = s.flash.blocks) ∧
      (worst ≤ th → u.flash.block? id = some { b with reads := 0 } ∧ u.flash.refreshQueue = s.flash.refreshQueue)) ∧
    (∀ id dst ok, s.flash.refreshQueue.contains id = false ∨ s.flash.canTake id dst = false → exec (.blockRefresh id dst ok) s = .next s) ∧
    (∀ id dst b, s.flash.refreshQueue.contains id = true → s.flash.canTake id dst = true → s.flash.block? id = some b →
      (∃ u b', exec (.blockRefresh id dst true) s = .next u ∧ Same [.flash] s u ∧ u.flash.block? id = some b.erasedNow ∧
        u.flash.block? dst = some b' ∧ b'.units = b.units ∧ b'.erased = false ∧ u.flash.refreshQueue.contains id = false ∧
        fld u.flash.readStat 0 16 = min 0xFFFF (fld s.flash.readStat 0 16 + 1)) ∧
      ∃ u b', exec (.blockRefresh id dst false) s = .next u ∧ Same [.flash] s u ∧ u.flash.block? id = some b ∧
        u.flash.block? dst = some b' ∧ b'.bad = true) ∧
    (∀ t src dst, (s.flash.eraseCounts t).foldl max 0 - (s.flash.eraseCounts t).foldl min ((s.flash.eraseCounts t).headD 0) ≤ 256 →
      exec (.staticWearMove t src dst) s = .next s) ∧
    (∀ t src dst b, 256 < (s.flash.eraseCounts t).foldl max 0 - (s.flash.eraseCounts t).foldl min ((s.flash.eraseCounts t).headD 0) →
      s.flash.block? src = some b → b.target = t → s.flash.canTake src dst = true →
      (∀ x ∈ s.flash.blocks, x.target = t → x.held = true → x.erasing = none → b.erase ≤ x.erase) →
      (∀ x ∈ s.flash.blocks, x.target = t → x.erased = true → x.bad = false → x.erase ≤ (s.flash.blockOr dst).erase) →
      ∃ u b', exec (.staticWearMove t src dst) s = .next u ∧ Same [.flash] s u ∧ u.flash.block? src = some b.erasedNow ∧
        u.flash.block? dst = some b' ∧ b'.units = b.units) ∧
    (∀ id ok, (∀ b, s.flash.block? id = some b → b.erasing = none) → exec (.blockErase id ok) s = .next s) ∧
    (∀ id b m, s.flash.block? id = some b → b.erasing = some m →
      (∃ u, exec (.blockErase id true) s = .next u ∧ u.flash.block? id = some b.erasedNow ∧
        (s.models[m].state = .erasing → (∀ x ∈ u.flash.blocks, x.erasing ≠ some m) → u.models[m].state = .empty ∧
          u.models[m].degraded = false ∧ u.models[m].image = none)) ∧
      ∃ u, exec (.blockErase id false) s = .next u ∧ u.flash.block? id = some { b with bad := true, erasing := none, units := [] }) ∧
    (∀ id spare, ∃ u, exec (.programPageDone id true spare) s = .next u ∧ Same [.flash] s u ∧
      u.flash = { s.flash with journal := s.flash.journal + 1 }) ∧
    (∀ id spare, s.flash.canTake id spare = false → exec (.programPageDone id false spare) s = .next s) ∧
    ∀ id spare b, s.flash.canTake id spare = true → s.flash.block? id = some b → ∃ u x y, exec (.programPageDone id false spare) s = .next u ∧
      Same [.flash] s u ∧ u.flash.block? id = some x ∧ x.bad = true ∧ x.units = [] ∧ u.flash.block? spare = some y ∧ y.units = b.units

/-! ## The whole block -/

/-- A step takes the command at the front of the queue and runs it on the state with the queue's rest; with no command waiting,
one cycle of the local time counter passes while its clock and its rail are there, and nothing else does (R396; log entry 7:
what passes is the model's choice). -/
def Obligations.StepRunsTheFront : Prop :=
  (∀ (c : Instr) (s : State), step { s with pending := c :: s.pending } = exec c s) ∧
  ∀ s : State, s.pending = [] → ∃ t, step s = .next t ∧ Same [.boot] s t ∧ t.pending = [] ∧
    t.boot = { s.boot with localTime := s.boot.localTime + (if s.pins.aonRefclk = true ∧ bit s.pins.rails 0 = true then 1 else 0) }

/-- Every command whose encoding its row admits completes with the queue as it was; no command faults; and what is refused is a
vector instruction with an encoding that is reserved or undefined for its opcode (R141 to R144), which MODEL_INSTALL refuses in
an image. -/
def Obligations.Completion : Prop :=
  (∀ (c : Instr) (s : State), c.wellFormed = true → ∃ t, exec c s = .next t ∧ t.pending = s.pending) ∧
  (∀ (c : Instr) (s : State) (e : Fault), exec c s ≠ .fault e) ∧
  (∀ (c : Instr) (s : State) (e : Refusal), exec c s = .refused e → e = .illFormed ∧ c.wellFormed = false) ∧
  ∀ (s : State) (t : TileIx) (f : VF),
    (vfOk 0x10 f = false → exec (.vAdd t f) s = .refused .illFormed) ∧
    (vfOk 0x01 f = false → exec (.vLd t f) s = .refused .illFormed) ∧
    (vfOk 0x02 f = false → exec (.vSt t f) s = .refused .illFormed) ∧
    (vfOk 0x20 f = false → exec (.vCmplt t f) s = .refused .illFormed) ∧
    (f.sb ≠ 0xFF → exec (.vAbs t f) s = .refused .illFormed) ∧
    (f.dst = 0x50 → exec (.vPand t f) s = .refused .illFormed) ∧
    (f.dst < 0x90 → exec (.vMovc t f) s = .refused .illFormed)

/-- Each command changes at most the parts of the package that touches names for it; all else stays, and the queue. Nothing
changes the device wrapping key, the fused key hash or the part (R364, R366). -/
def Obligations.Frame : Prop :=
  (∀ (c : Instr) (s t : State), exec c s = .next t → Same (touches c) s t ∧ t.pending = s.pending) ∧
  (∀ s t : State, step s = .next t → t.um.roots = s.um.roots ∧ t.boot.partE = s.boot.partE)

/-- R370, R399 to R404: every step keeps the bounds of the issue rate, the settings that the power registers take, a tripped
package in AON, and at most four sessions. -/
def Obligations.StepKeepsInv : Prop :=
  ∀ s t : State, s.Inv → step s = .next t → t.Inv

/-- What reset leaves, as far as the spec gives it: AON, with local time zero (R393, R396), no clock on the tiles, 10,000, 1,500
W, 100 °C and 95 °C (R398, R399, R404), HANG_LIMIT 2,000 (R301), SCRUB_HOURS 24 and RATE_LIMIT 1,000 (R257), WINDOW_TIMEOUT 250
(R282), every ring disabled, with INDEX 0 and COAL_COUNT 1 (R342), every slot EMPTY (R269), no sequence, no cohort, no slice;
the invariant of the steps holds, and every memory has its canonical form, with nothing listed. -/
def Obligations.ResetState : Prop :=
  State.reset.Inv ∧ State.reset.boot.stage = .aon ∧ State.reset.boot.localTime = 0 ∧ State.reset.power.tileClk = 0 ∧
  State.reset.power.pllOffDelay = 10000 ∧ State.reset.power.cap = 1500 ∧ State.reset.power.logicThrottle = 100 ∧
  State.reset.power.dramThrottle = 95 ∧ State.reset.sync.hangLimit = 2000 ∧ State.reset.scrubHours = 24 ∧ State.reset.rateLimit = 1000 ∧
  (∀ m : SlotIx, State.reset.models[m].state = .empty ∧ State.reset.models[m].windowTimeout = 250 ∧ State.reset.models[m].pool.data = []) ∧
  (∀ (f : Fn) (k : Fin 4) (n : Fin 5), (State.reset.ring f k n).enable = false ∧ (State.reset.ring f k n).index = 0 ∧
    (State.reset.ring f k n).coalCount = 1) ∧
  (∀ t : TileIx, Memory.wf State.reset.tiles[t].scratch = true ∧ State.reset.tiles[t].scratch = [] ∧ State.reset.tiles[t].vec.opc = []) ∧
  (∀ w : BitVec 16, State.reset.word w = 0) ∧ State.reset.seqs = [] ∧ State.reset.cohorts = [] ∧ State.reset.slices = [] ∧
  State.reset.pending = []
end

