-- ==== Sys2Proof/Laws/Bits.lean ====
section
/-!
SUPPORT. Sys2Proof/Laws/Bits.lean: the bits of a word after a field of it is set (R421).
-/
namespace Sys2Proof.Machine

theorem bits_testBit (x lo w i : Nat) : (bits x lo w).testBit i = (decide (i < w) && x.testBit (lo + i)) := by
  unfold bits
  rw [Nat.testBit_mod_two_pow, Nat.testBit_div_two_pow, Nat.add_comm]

theorem getLsbD_setFld {n : Nat} (x : BitVec n) (lo w v i : Nat) (h : lo + w ≤ n) :
    (setFld x lo w v).getLsbD i = if lo ≤ i ∧ i < lo + w then v.testBit (i - lo) else x.getLsbD i := by
  unfold setFld
  rw [BitVec.getLsbD_ofNat]
  have hx : x.toNat = 2 ^ (lo + w) * (x.toNat / 2 ^ (lo + w)) + (2 ^ lo * bits x.toNat lo w + x.toNat % 2 ^ lo) := by
    unfold bits
    have h1 := Nat.div_add_mod x.toNat (2 ^ (lo + w))
    have h2 := Nat.div_add_mod (x.toNat % 2 ^ (lo + w)) (2 ^ lo)
    have h3 : x.toNat % 2 ^ (lo + w) / 2 ^ lo = x.toNat / 2 ^ lo % 2 ^ w := by
      rw [Nat.pow_add, Nat.mod_mul_right_div_self]
    have h4 : x.toNat % 2 ^ (lo + w) % 2 ^ lo = x.toNat % 2 ^ lo :=
      Nat.mod_mod_of_dvd _ (Nat.pow_dvd_pow 2 (Nat.le_add_right lo w))
    rw [h3, h4] at h2
    omega
  have hlow : x.toNat % 2 ^ lo < 2 ^ lo := Nat.mod_lt _ (Nat.two_pow_pos lo)
  have hv : v % 2 ^ w < 2 ^ w := Nat.mod_lt _ (Nat.two_pow_pos w)
  have hs : x.toNat - bits x.toNat lo w * 2 ^ lo + (v % 2 ^ w) * 2 ^ lo =
      2 ^ (lo + w) * (x.toNat / 2 ^ (lo + w)) + (2 ^ lo * (v % 2 ^ w) + x.toNat % 2 ^ lo) := by
    have c1 := Nat.mul_comm (bits x.toNat lo w) (2 ^ lo)
    have c2 := Nat.mul_comm (v % 2 ^ w) (2 ^ lo)
    omega
  have hm : 2 ^ lo * (v % 2 ^ w) + x.toNat % 2 ^ lo < 2 ^ (lo + w) := by
    have : 2 ^ lo * (v % 2 ^ w + 1) ≤ 2 ^ lo * 2 ^ w := Nat.mul_le_mul_left _ hv
    rw [Nat.pow_add]
    rw [Nat.mul_add, Nat.mul_one] at this
    omega
  rw [hs, Nat.testBit_two_pow_mul_add _ hm, Nat.testBit_two_pow_mul_add _ hlow, Nat.testBit_mod_two_pow]
  by_cases h1 : i < lo + w
  · by_cases h2 : i < lo
    · have : ¬(lo ≤ i ∧ i < lo + w) := by omega
      have hin : i < n := by omega
      rw [if_pos h1, if_neg this, if_pos h2]
      simp only [hin, h2, decide_true, Bool.true_and]
      rfl
    · have h3 : lo ≤ i ∧ i < lo + w := by omega
      have hin : i < n := by omega
      have : i - lo < w := by omega
      simp [h1, h2, h3, hin, this]
  · have : ¬(lo ≤ i ∧ i < lo + w) := by omega
    rw [if_neg h1, if_neg this, Nat.testBit_div_two_pow]
    have e : i - (lo + w) + (lo + w) = i := by omega
    rw [e]
    by_cases hin : i < n
    · simp [hin, BitVec.getLsbD]
    · have : x.getLsbD i = false := BitVec.getLsbD_of_ge x i (by omega)
      simp [hin, this]

/-- A field read after it is set. -/
theorem fld_setFld_same {n : Nat} (x : BitVec n) (lo w v : Nat) (h : lo + w ≤ n) : fld (setFld x lo w v) lo w = v % 2 ^ w := by
  apply Nat.eq_of_testBit_eq
  intro i
  unfold fld
  rw [bits_testBit, Nat.testBit_mod_two_pow]
  by_cases hi : i < w
  · have := getLsbD_setFld x lo w v (lo + i) h
    rw [BitVec.getLsbD] at this
    rw [this]
    have h2 : lo ≤ lo + i ∧ lo + i < lo + w := by omega
    simp [hi, h2]
  · simp [hi]

/-- A field read after another that does not meet it is set. -/
theorem fld_setFld_other {n : Nat} (x : BitVec n) (lo w v lo' w' : Nat) (h : lo + w ≤ n) (hd : lo' + w' ≤ lo ∨ lo + w ≤ lo') :
    fld (setFld x lo w v) lo' w' = fld x lo' w' := by
  apply Nat.eq_of_testBit_eq
  intro i
  unfold fld
  rw [bits_testBit, bits_testBit]
  by_cases hi : i < w'
  · have := getLsbD_setFld x lo w v (lo' + i) h
    rw [BitVec.getLsbD, BitVec.getLsbD] at this
    rw [this]
    have h2 : ¬(lo ≤ lo' + i ∧ lo' + i < lo + w) := by omega
    simp [h2]
  · simp [hi]

end Sys2Proof.Machine
end

