-- ==== Sys2Proof/Laws/Frame.lean ====
section
/-!
SUPPORT. Sys2Proof/Laws/Frame.lean: which parts of the package an operation may change.
-/
namespace Sys2Proof.Machine

theorem Piece.same_refl (p : Piece) (s : State) : p.same s s := by cases p <;> exact rfl

theorem Piece.same_trans {p : Piece} {s t u : State} (h : p.same s t) (g : p.same t u) : p.same s u := by
  cases p <;> exact Eq.trans g h

theorem Same.refl (l : List Piece) (s : State) : Same l s s := fun p _ => p.same_refl s

theorem Same.mono {l m : List Piece} {s t : State} (h : Same l s t) (hl : ∀ p ∈ l, p ∈ m) : Same m s t :=
  fun p hp => h p fun hq => hp (hl p hq)

/-- After an operation that changes at most l', what held with l holds still. -/
theorem Same.andThen {l l' : List Piece} {s t u : State} (g : Same l' t u) (hl : ∀ p ∈ l', p ∈ l) (h : Same l s t) : Same l s u :=
  fun p hp => Piece.same_trans (h p hp) (g.mono hl p hp)

theorem Same.ite {l : List Piece} {s a b : State} {c : Prop} {_ : Decidable c} (ha : Same l s a) (hb : Same l s b) :
    Same l s (if c then a else b) := by split <;> assumption

theorem Same.foldl {α : Type} {l : List Piece} {s x : State} {f : State → α → State} {r : List α}
    (hf : ∀ (y : State) (a : α), Same l y (f y a)) (h : Same l s x) : Same l s (r.foldl f x) := by
  induction r generalizing x with
  | nil => exact h
  | cons a r ih => exact ih ((hf x a).andThen (fun _ q => q) h)

theorem Same.ofSnd {α : Type} {l : List Piece} {s y : State} {a : α} {p : α × State} (h : p = (a, y)) (g : Same l s p.2) : Same l s y := by
  subst h; exact g

theorem Same.ofFst {α : Type} {l : List Piece} {s y : State} {a : α} {p : State × α} (h : p = (y, a)) (g : Same l s p.1) : Same l s y := by
  subst h; exact g

theorem Same.ofThird {α β : Type} {l : List Piece} {s y : State} {a : α} {b : β} {p : α × β × State} (h : p = (a, b, y))
    (g : Same l s p.2.2) : Same l s y := by subst h; exact g

theorem Leaves.done {l : List Piece} {s t u : State} (h : Same l s t) : Leaves l s (done u t) := by
  intro x hx
  simp only [Machine.done, Host.Outcome.next.injEq] at hx
  subst hx
  intro p hp
  have := h p hp
  cases p <;> exact this

theorem Leaves.ite {l : List Piece} {s : State} {a b : Host.Outcome State Fault Refusal} {c : Prop} {_ : Decidable c} (ha : Leaves l s a)
    (hb : Leaves l s b) : Leaves l s (if c then a else b) := by split <;> assumption

theorem Leaves.refused {l : List Piece} {s : State} {r : Refusal} : Leaves l s (.refused r) := fun _ h => by cases h

theorem Leaves.next {l : List Piece} {s t : State} (h : Same l s t) : Leaves l s (.next t) := by
  intro u hu
  cases hu
  exact h

theorem Leaves.mono {l m : List Piece} {s : State} {o : Host.Outcome State Fault Refusal} (h : Leaves l s o) (hl : ∀ p ∈ l, p ∈ m) :
    Leaves m s o := fun t ht => (h t ht).mono hl

theorem Leaves.andThen {l l' : List Piece} {s t : State} {o : Host.Outcome State Fault Refusal} (g : Leaves l' t o)
    (hl : ∀ p ∈ l', p ∈ l) (h : Same l s t) : Leaves l s o := fun u hu => (g u hu).andThen hl h

theorem Same.iteSnd {α : Type} {l : List Piece} {s : State} {a b : α × State} {c : Prop} {_ : Decidable c} (ha : Same l s a.2)
    (hb : Same l s b.2) : Same l s (if c then a else b).2 := by split <;> assumption

theorem Same.iteFst {α : Type} {l : List Piece} {s : State} {a b : State × α} {c : Prop} {_ : Decidable c} (ha : Same l s a.1)
    (hb : Same l s b.1) : Same l s (if c then a else b).1 := by split <;> assumption

theorem Same.iteThird {α β : Type} {l : List Piece} {s : State} {a b : α × β × State} {c : Prop} {_ : Decidable c} (ha : Same l s a.2.2)
    (hb : Same l s b.2.2) : Same l s (if c then a else b).2.2 := by split <;> assumption

theorem Same.pairSnd {α : Type} {l : List Piece} {s t : State} {a : α} (h : Same l s t) : Same l s (a, t).2 := h

theorem Same.pairFst {α : Type} {l : List Piece} {s t : State} {a : α} (h : Same l s t) : Same l s (t, a).1 := h

theorem Same.pairThird {α β : Type} {l : List Piece} {s : State} {a : α} {b : β × State} (h : Same l s b.2) : Same l s (a, b).2.2 := h

theorem Same.foldlSnd {α β : Type} {l : List Piece} {s : State} {x : β × State} {f : β × State → α → β × State} {r : List α}
    (hf : ∀ (y : β × State) (a : α), Same l y.2 (f y a).2) (h : Same l s x.2) : Same l s (r.foldl f x).2 := by
  induction r generalizing x with
  | nil => exact h
  | cons a r ih => exact ih ((hf x a).andThen (fun _ q => q) h)

theorem Same.foldlFst {α β : Type} {l : List Piece} {s : State} {x : State × β} {f : State × β → α → State × β} {r : List α}
    (hf : ∀ (y : State × β) (a : α), Same l y.1 (f y a).1) (h : Same l s x.1) : Same l s (r.foldl f x).1 := by
  induction r generalizing x with
  | nil => exact h
  | cons a r ih => exact ih ((hf x a).andThen (fun _ q => q) h)

theorem Same.foldlThird {α β γ : Type} {l : List Piece} {s : State} {x : β × γ × State} {f : β × γ × State → α → β × γ × State}
    {r : List α} (hf : ∀ (y : β × γ × State) (a : α), Same l y.2.2 (f y a).2.2) (h : Same l s x.2.2) :
    Same l s (r.foldl f x).2.2 := by
  induction r generalizing x with
  | nil => exact h
  | cons a r ih => exact ih ((hf x a).andThen (fun _ q => q) h)

/-- An operation that may answer a state answers one that differs from s at most in the parts of l. -/
def SomeSame {α : Type} (l : List Piece) (s : State) (o : Option (α × State)) : Prop := ∀ r, o = some r → Same l s r.2

theorem SomeSame.none {α : Type} {l : List Piece} {s : State} : SomeSame l s (none : Option (α × State)) := fun _ h => by cases h

theorem SomeSame.some {α : Type} {l : List Piece} {s : State} {p : α × State} (h : Same l s p.2) : SomeSame l s (some p) := by
  intro r hr
  cases hr
  exact h

theorem SomeSame.ite {α : Type} {l : List Piece} {s : State} {a b : Option (α × State)} {c : Prop} {_ : Decidable c}
    (ha : SomeSame l s a) (hb : SomeSame l s b) : SomeSame l s (if c then a else b) := by split <;> assumption

theorem SomeSame.andThen {α : Type} {l l' : List Piece} {s t : State} {o : Option (α × State)} (g : SomeSame l' t o)
    (hl : ∀ p ∈ l', p ∈ l) (h : Same l s t) : SomeSame l s o := fun r hr => (g r hr).andThen hl h

theorem SomeSame.map {α β : Type} {l : List Piece} {s : State} {f : α × State → β × State} {o : Option (α × State)}
    (hf : ∀ y, Same l y.2 (f y).2) (h : SomeSame l s o) : SomeSame l s (o.map f) := by
  intro r hr
  cases o with
  | none => cases hr
  | some x => cases hr; exact (hf x).andThen (fun _ q => q) (h x rfl)

theorem SomeSame.of {α : Type} {l : List Piece} {s : State} {r : α × State} {p : Option (α × State)} (h : p = Option.some r)
    (g : SomeSame l s p) : Same l s r.2 := g r h

theorem SomeSame.ofSnd {α : Type} {l : List Piece} {s y : State} {a : α} {p : Option (α × State)} (h : p = Option.some (a, y))
    (g : SomeSame l s p) : Same l s y := g _ h

/-- An operation that may answer a state answers one that differs from s at most in the parts of l. -/
def SomeSame1 (l : List Piece) (s : State) (o : Option State) : Prop := ∀ r, o = some r → Same l s r

theorem SomeSame1.none {l : List Piece} {s : State} : SomeSame1 l s (none : Option State) := fun _ h => by cases h

theorem SomeSame1.some {l : List Piece} {s t : State} (h : Same l s t) : SomeSame1 l s (some t) := by
  intro r hr
  cases hr
  exact h

theorem SomeSame1.ite {l : List Piece} {s : State} {a b : Option State} {c : Prop} {_ : Decidable c}
    (ha : SomeSame1 l s a) (hb : SomeSame1 l s b) : SomeSame1 l s (if c then a else b) := by split <;> assumption

theorem SomeSame1.andThen {l l' : List Piece} {s t : State} {o : Option State} (g : SomeSame1 l' t o)
    (hl : ∀ p ∈ l', p ∈ l) (h : Same l s t) : SomeSame1 l s o := fun r hr => (g r hr).andThen hl h

theorem SomeSame1.of {l : List Piece} {s y : State} {p : Option State} (h : p = Option.some y) (g : SomeSame1 l s p) : Same l s y := g y h

theorem SomeSame1.getD {l : List Piece} {s t : State} {o : Option State} (ho : SomeSame1 l s o) (h : Same l s t) :
    Same l s (o.getD t) := by
  cases o with
  | none => exact h
  | some x => exact ho x rfl

theorem SomeSame1.map {l : List Piece} {s : State} {f : State → State} {o : Option State}
    (hf : ∀ y, Same l y (f y)) (h : SomeSame1 l s o) : SomeSame1 l s (o.map f) := by
  intro r hr
  cases o with
  | none => cases hr
  | some x => cases hr; exact (hf x).andThen (fun _ q => q) (h x rfl)

theorem SomeSame1.mapSnd {α : Type} {l : List Piece} {s : State} {f : α × State → State} {o : Option (α × State)}
    (hf : ∀ y, Same l y.2 (f y)) (h : SomeSame l s o) : SomeSame1 l s (o.map f) := by
  intro r hr
  cases o with
  | none => cases hr
  | some x => cases hr; exact (hf x).andThen (fun _ q => q) (h x rfl)

theorem SomeSame.mapFrom {α β : Type} {l : List Piece} {s : State} {f : α → β × State} {o : Option α}
    (hf : ∀ y, Same l s (f y).2) : SomeSame l s (o.map f) := by
  intro r hr
  cases o with
  | none => cases hr
  | some x => cases hr; exact hf x

theorem Same.upd {l : List Piece} {s x : State} {a0 : _} {a1 : _} {a2 : _} {a3 : _} {a4 : _} {a5 : _} {a6 : _} {a7 : _} {a8 : _} {a9 : _} {a10 : _} {a11 : _} {a12 : _} {a13 : _} {a14 : _} {a15 : _} {a16 : _} {a17 : _} {a18 : _} {a19 : _} {a20 : _} {a21 : _} {a22 : _} {a23 : _} {a24 : _} {a25 : _} {a26 : _} {a27 : _} {a28 : _} {a29 : _} {a30 : _} {a31 : _} {a32 : _} {a33 : _} {a34 : _} {a35 : _} {a36 : _} {a37 : _} {a38 : _} {a39 : _} {a40 : _} (h : Same l s x)
    (hy : ∀ p : Piece, p ∉ l → p.same x (State.mk x.pending a0 a1 a2 a3 a4 a5 a6 a7 a8 a9 a10 a11 a12 a13 a14 a15 a16 a17 a18 a19 a20 a21 a22 a23 a24 a25 a26 a27 a28 a29 a30 a31 a32 a33 a34 a35 a36 a37 a38 a39 a40)) :
    Same l s (State.mk x.pending a0 a1 a2 a3 a4 a5 a6 a7 a8 a9 a10 a11 a12 a13 a14 a15 a16 a17 a18 a19 a20 a21 a22 a23 a24 a25 a26 a27 a28 a29 a30 a31 a32 a33 a34 a35 a36 a37 a38 a39 a40) := fun p hp => Piece.same_trans (h p hp) (hy p hp)

end Sys2Proof.Machine
end

