-- ==== Sys2Proof/Laws/FrameOps.lean ====
section
/-!
SUPPORT. Sys2Proof/Laws/FrameOps.lean: for each operation over the package, the parts of State it may change.
-/
namespace Sys2Proof.Machine

theorem State.modFn_same {s} {f} {g} : Same [.fns] s (State.modFn s f g) := by
  unfold State.modFn
  refine Same.upd ?_ (fun p hp => by cases p <;> first | exact absurd (by decide) hp | exact rfl)
  exact Same.refl _ _

theorem State.emitStall_same {s} {h} : Same [.fns] s (State.emitStall s h) := by
  unfold State.emitStall
  refine Same.ite ?_ ?_
  · exact Same.mono State.modFn_same (by decide)
  · exact Same.refl _ _

theorem State.modModel_same {s} {m} {g} : Same [.models] s (State.modModel s m g) := by
  unfold State.modModel
  refine Same.upd ?_ (fun p hp => by cases p <;> first | exact absurd (by decide) hp | exact rfl)
  exact Same.refl _ _

theorem State.modPool_same {s} {m} {g} : Same [.models] s (State.modPool s m g) := by
  unfold State.modPool
  exact Same.mono State.modModel_same (by decide)

theorem State.takeFree_same {s} {m} {t} : SomeSame [.models] s (State.takeFree s m t) := by
  unfold State.takeFree
  refine SomeSame.mapFrom (fun y0 => ?_)
  refine Same.pairSnd ?_
  exact Same.mono State.modPool_same (by decide)

theorem State.treeOp_same {s} {m} {o} : Same [.treeOps] s (State.treeOp s m o) := by
  unfold State.treeOp
  refine Same.ite ?_ ?_
  · refine Same.upd ?_ (fun p hp => by cases p <;> first | exact absurd (by decide) hp | exact rfl)
    exact Same.refl _ _
  · exact Same.refl _ _

theorem State.poolEvent_same {s} {m} {lo} : Same [.models] s (State.poolEvent s m lo) := by
  unfold State.poolEvent
  exact Same.mono State.modPool_same (by decide)

theorem State.dropNode_same {s} {m} {id} {taken} : Same [.models, .treeOps] s (State.dropNode s m id taken) := by
  unfold State.dropNode
  refine Same.andThen State.treeOp_same (by decide) ?_
  refine Same.andThen State.poolEvent_same (by decide) ?_
  exact Same.mono State.modPool_same (by decide)

theorem State.evict_same {s} {m} : SomeSame [.models, .treeOps] s (State.evict s m) := by
  unfold State.evict
  refine SomeSame.ite ?_ ?_
  · refine SomeSame.mapFrom (fun y0 => ?_)
    refine Same.pairSnd ?_
    refine Same.andThen State.modPool_same (by decide) ?_
    exact Same.mono State.dropNode_same (by decide)
  · exact SomeSame.none

theorem State.anyFrame_same {s} {m} {t} : SomeSame [.models, .treeOps] s (State.anyFrame s m t) := by
  unfold State.anyFrame
  split
  · refine SomeSame.some ?_
    refine SomeSame.of (by assumption) ?_
    refine SomeSame.andThen State.takeFree_same (by decide) ?_
    exact Same.refl _ _
  · refine SomeSame.andThen State.evict_same (by decide) ?_
    exact Same.refl _ _

theorem State.modSeq_same {s} {h} {g} : Same [.seqs] s (State.modSeq s h g) := by
  unfold State.modSeq
  refine Same.upd ?_ (fun p hp => by cases p <;> first | exact absurd (by decide) hp | exact rfl)
  exact Same.refl _ _

theorem State.useGuard_same {s} {h} {crossing} : SomeSame [.models, .seqs] s (State.useGuard s h crossing) := by
  unfold State.useGuard
  split
  · split
    · refine SomeSame.ite ?_ ?_
      · extract_lets -merge +onlyGivenNames x0
        have h0 : Same [.models, .seqs] s x0 := by
          exact Same.mono State.modPool_same (by decide)
        try clear_value x0
        refine SomeSame.some ?_
        refine Same.pairSnd ?_
        refine Same.andThen State.modSeq_same (by decide) ?_
        refine Same.ite ?_ ?_
        · refine Same.andThen State.poolEvent_same (by decide) ?_
          exact h0
        · exact h0
      · exact SomeSame.none
    · exact SomeSame.none
  · exact SomeSame.none

theorem State.frameForCopy_same {s} {q} {t} {guard} : SomeSame [.models, .seqs, .treeOps] s (State.frameForCopy s q t guard) := by
  unfold State.frameForCopy
  split
  · refine SomeSame.some ?_
    refine SomeSame.of (by assumption) ?_
    refine SomeSame.andThen State.anyFrame_same (by decide) ?_
    exact Same.refl _ _
  · refine SomeSame.ite ?_ ?_
    · refine SomeSame.andThen State.useGuard_same (by decide) ?_
      exact Same.refl _ _
    · exact SomeSame.none

theorem State.ensureOwn_same {s} {h} {j} {guard} : Same [.models, .seqs, .treeOps] s (State.ensureOwn s h j guard).2 := by
  unfold State.ensureOwn
  split
  · refine Same.pairSnd ?_
    exact Same.refl _ _
  · split
    · refine Same.pairSnd ?_
      exact Same.refl _ _
    · refine Same.iteSnd ?_ ?_
      · refine Same.pairSnd ?_
        exact Same.refl _ _
      · refine Same.iteSnd ?_ ?_
        · refine Same.iteSnd ?_ ?_
          · refine Same.pairSnd ?_
            exact Same.refl _ _
          · split
            · refine Same.pairSnd ?_
              refine Same.andThen State.modSeq_same (by decide) ?_
              refine SomeSame.ofSnd (by assumption) ?_
              refine SomeSame.andThen State.frameForCopy_same (by decide) ?_
              exact Same.refl _ _
            · refine Same.pairSnd ?_
              exact Same.refl _ _
        · refine Same.pairSnd ?_
          exact Same.mono State.modSeq_same (by decide)

theorem State.takeFrame_same {s} {m} {f} {t} : SomeSame [.models, .treeOps] s (State.takeFrame s m f t) := by
  unfold State.takeFrame
  refine SomeSame.ite ?_ ?_
  · exact SomeSame.none
  · refine SomeSame.andThen State.anyFrame_same (by decide) ?_
    exact Same.refl _ _

theorem State.frameForCrossing_same {s} {q} {t} {guard} : SomeSame [.models, .seqs, .treeOps] s (State.frameForCrossing s q t guard) := by
  unfold State.frameForCrossing
  extract_lets -merge +onlyGivenNames own
  have h : SomeSame [.models, .seqs, .treeOps] s own := SomeSame.ite SomeSame.none (State.takeFrame_same.andThen (by decide) (Same.refl _ _))
  clear_value own
  split
  · exact h
  · exact SomeSame.ite (State.useGuard_same.andThen (by decide) (Same.refl _ _)) SomeSame.none

theorem State.ensurePage_same {s} {h} {j} {draft} : Same [.models, .seqs, .treeOps] s (State.ensurePage s h j draft).2 := by
  unfold State.ensurePage
  split
  · refine Same.pairSnd ?_
    exact Same.refl _ _
  · refine Same.iteSnd ?_ ?_
    · refine Same.pairSnd ?_
      exact Same.refl _ _
    · refine Same.iteSnd ?_ ?_
      · refine Same.pairSnd ?_
        exact Same.refl _ _
      · extract_lets -merge +onlyGivenNames x0
        split
        · refine Same.pairSnd ?_
          exact Same.mono State.modSeq_same (by decide)
        · split
          · refine Same.pairSnd ?_
            refine Same.andThen State.modSeq_same (by decide) ?_
            refine SomeSame.ofSnd (by assumption) ?_
            refine SomeSame.andThen State.frameForCrossing_same (by decide) ?_
            exact Same.refl _ _
          · refine Same.pairSnd ?_
            exact Same.refl _ _

theorem State.ensure_same {s} {h} {a} {b} {draft} : Same [.models, .seqs, .treeOps] s (State.ensure s h a b draft).2 := by
  unfold State.ensure
  extract_lets -merge +onlyGivenNames x0
  have h0 : Same [.models, .seqs, .treeOps] s x0.2 := by
    exact Same.mono State.ensureOwn_same (by decide)
  try clear_value x0
  refine Same.iteSnd ?_ ?_
  · exact h0
  · refine Same.iteSnd ?_ ?_
    · refine Same.andThen State.ensurePage_same (by decide) ?_
      exact h0
    · extract_lets -merge +onlyGivenNames x1
      have h1 : Same [.models, .seqs, .treeOps] s x1.2 := by
        refine Same.andThen State.ensurePage_same (by decide) ?_
        exact h0
      try clear_value x1
      refine Same.iteSnd ?_ ?_
      · exact h1
      · extract_lets -merge +onlyGivenNames x2
        have h2 : Same [.models, .seqs, .treeOps] s x2.2 := by
          refine Same.andThen State.ensureOwn_same (by decide) ?_
          exact h1
        try clear_value x2
        refine Same.iteSnd ?_ ?_
        · exact h2
        · refine Same.andThen State.ensurePage_same (by decide) ?_
          exact h2

theorem State.modRing_same {s} {f} {k} {n} {g} : Same [.fns] s (State.modRing s f k n g) := by
  unfold State.modRing
  exact Same.mono State.modFn_same (by decide)

theorem State.takeSlots_same {s} {q} {n} : Same [.fns, .seqs] s (State.takeSlots s q n) := by
  unfold State.takeSlots
  refine Same.ite ?_ ?_
  · refine Same.andThen State.modSeq_same (by decide) ?_
    exact Same.mono State.modRing_same (by decide)
  · exact Same.mono State.modSeq_same (by decide)

theorem State.countTrims_same {s} {h} {n} : Same [.specSource] s (State.countTrims s h n) := by
  unfold State.countTrims
  refine Same.ite ?_ ?_
  · refine Same.upd ?_ (fun p hp => by cases p <;> first | exact absurd (by decide) hp | exact rfl)
    exact Same.refl _ _
  · exact Same.refl _ _

theorem State.ingestPages_same {s} {q} {p} {n} : Same [.models, .seqs, .treeOps] s (State.ingestPages s q p n).2 := by
  unfold State.ingestPages
  extract_lets -merge +onlyGivenNames x0
  extract_lets -merge +onlyGivenNames x1
  extract_lets -merge +onlyGivenNames x2
  have h2 : Same [.models, .seqs, .treeOps] s x2.2 := by
    exact Same.mono State.ensure_same (by decide)
  try clear_value x2
  refine Same.iteSnd ?_ ?_
  · refine Same.pairSnd ?_
    exact h2
  · extract_lets -merge +onlyGivenNames x3
    have h3 : Same [.models, .seqs, .treeOps] s x3.2 := by
      exact Same.mono State.ensure_same (by decide)
    try clear_value x3
    refine Same.iteSnd ?_ ?_
    · refine Same.pairSnd ?_
      exact h3
    · refine Same.pairSnd ?_
      exact Same.refl _ _

theorem State.modCohort_same {s} {m} {c} {g} : Same [.cohorts] s (State.modCohort s m c g) := by
  unfold State.modCohort
  refine Same.upd ?_ (fun p hp => by cases p <;> first | exact absurd (by decide) hp | exact rfl)
  exact Same.refl _ _

theorem State.modTile_same {s} {t} {g} : Same [.tiles] s (State.modTile s t g) := by
  unfold State.modTile
  refine Same.upd ?_ (fun p hp => by cases p <;> first | exact absurd (by decide) hp | exact rfl)
  exact Same.refl _ _

theorem State.clearFront_same {s} {t} {engine} : Same [.tiles] s (State.clearFront s t engine) := by
  unfold State.clearFront
  exact Same.mono State.modTile_same (by decide)

theorem State.abandon_same {s} {c} {engine} : Same [.tiles, .cohorts] s (State.abandon s c engine) := by
  unfold State.abandon
  refine Same.andThen State.modCohort_same (by decide) ?_
  exact Same.mono State.clearFront_same (by decide)

theorem State.post_same {s} {o} : Same [.out] s (State.post s o) := by
  unfold State.post
  refine Same.upd ?_ (fun p hp => by cases p <;> first | exact absurd (by decide) hp | exact rfl)
  exact Same.refl _ _

theorem State.recordDone_same {s} {f} {k} {n} {release} : Same [.fns, .out] s (State.recordDone s f k n release) := by
  unfold State.recordDone
  extract_lets -merge +onlyGivenNames x0
  extract_lets -merge +onlyGivenNames x1
  extract_lets -merge +onlyGivenNames x2
  extract_lets -merge +onlyGivenNames x3
  have h3 : Same [.fns, .out] s x3 := by
    exact Same.mono State.modRing_same (by decide)
  try clear_value x3
  refine Same.ite ?_ ?_
  · refine Same.andThen State.post_same (by decide) ?_
    exact h3
  · exact h3

theorem State.putCompletion_same {s} {f} {k} {rec} {reserved} : Same [.fns, .out, .held] s (State.putCompletion s f k rec reserved) := by
  unfold State.putCompletion
  extract_lets -merge +onlyGivenNames x0
  refine Same.ite ?_ ?_
  · extract_lets -merge +onlyGivenNames x1
    refine Same.andThen State.recordDone_same (by decide) ?_
    exact Same.mono State.post_same (by decide)
  · refine Same.upd ?_ (fun p hp => by cases p <;> first | exact absurd (by decide) hp | exact rfl)
    exact Same.refl _ _

theorem State.completeFull_same {s} {e} {admin} {opcode} {status} {handle} {position} {emitted} {detail} : Same [.fns, .out, .held] s (State.completeFull s e admin opcode status handle position emitted detail) := by
  unfold State.completeFull
  extract_lets -merge +onlyGivenNames x0
  extract_lets -merge +onlyGivenNames x1
  have h1 : Same [.fns, .out, .held] s x1 := by
    exact Same.mono State.modFn_same (by decide)
  try clear_value x1
  extract_lets -merge +onlyGivenNames x2
  refine Same.andThen State.putCompletion_same (by decide) ?_
  exact h1

theorem State.abortReq_same {s} {o} {status} : Same [.fns, .out, .held] s (State.abortReq s o status) := by
  unfold State.abortReq
  split
  · extract_lets -merge +onlyGivenNames x0
    extract_lets -merge +onlyGivenNames x1
    exact Same.mono State.completeFull_same (by decide)
  · exact Same.mono State.completeFull_same (by decide)

theorem State.abortAll_same {s} {f} {status} : Same [.fns, .out, .held] s (State.abortAll s f status) := by
  unfold State.abortAll
  extract_lets -merge +onlyGivenNames x0
  have h0 : Same [.fns, .out, .held] s x0 := by
    refine Same.ite ?_ ?_
    · refine Same.foldl (fun y1 a1 => ?_) ?_
      · exact Same.mono State.abortReq_same (by decide)
      · exact Same.refl _ _
    · refine Same.upd ?_ (fun p hp => by cases p <;> first | exact absurd (by decide) hp | exact rfl)
      exact Same.refl _ _
  try clear_value x0
  refine Same.andThen State.modFn_same (by decide) ?_
  exact h0

theorem State.accPut_same {s} {t} {ix} {x} : Same [.tiles] s (State.accPut s t ix x) := by
  unfold State.accPut
  exact Same.mono State.modTile_same (by decide)

theorem State.touch_same {s} {m} {id} {step} : Same [.models] s (State.touch s m id step) := by
  unfold State.touch
  exact Same.mono State.modPool_same (by decide)

theorem State.linkNode_same {s} {h} {n} {ngram} {step} : Same [.models, .seqs, .treeOps] s (State.linkNode s h n ngram step) := by
  unfold State.linkNode
  split
  · extract_lets -merge +onlyGivenNames x0
    refine Same.andThen State.modSeq_same (by decide) ?_
    refine Same.andThen State.touch_same (by decide) ?_
    exact Same.mono State.treeOp_same (by decide)
  · exact Same.refl _ _

theorem State.collision_same {s} {m} : Same [.models] s (State.collision s m) := by
  unfold State.collision
  exact Same.mono State.poolEvent_same (by decide)

theorem State.matchFull_same {s} {h} {m} {f} {key} {cross} {ngram} {fin} {y8} {y9} {y10} : Same [.models, .seqs, .treeOps] s (State.matchFull s h m f key cross ngram fin y8 y9 y10).2.2 := by
  induction y8 generalizing s y9 y10 with
  | zero => exact Same.refl _ _
  | succ n ih =>
    unfold State.matchFull
    split
    · exact Same.refl _ _
    · dsimp only
      split
      · exact Same.refl _ _
      · split
        · exact ih.andThen (by decide) (State.linkNode_same.mono (by decide))
        · exact State.collision_same.mono (by decide)

theorem State.matchChunk_same {s} {h} {ngram} {fin} {toks} : Same [.models, .seqs, .treeOps] s (State.matchChunk s h ngram fin toks).2 := by
  unfold State.matchChunk
  split
  · refine Same.pairSnd ?_
    exact Same.refl _ _
  · split
    · refine Same.pairSnd ?_
      exact Same.refl _ _
    · refine Same.iteSnd ?_ ?_
      · refine Same.pairSnd ?_
        exact Same.refl _ _
      · extract_lets -merge +onlyGivenNames x0
        have h0 : Same [.models, .seqs, .treeOps] s x0.2.2 := by
          exact Same.mono State.matchFull_same (by decide)
        try clear_value x0
        split
        · refine Same.pairSnd ?_
          refine Same.andThen State.linkNode_same (by decide) ?_
          exact h0
        · refine Same.pairSnd ?_
          exact h0

theorem State.loseEvent_same {s} {f} {k} : Same [.fns] s (State.loseEvent s f k) := by
  unfold State.loseEvent
  extract_lets -merge +onlyGivenNames x0
  have h0 : Same [.fns] s x0 := by
    exact Same.mono State.modFn_same (by decide)
  try clear_value x0
  split
  · refine Same.andThen State.modRing_same (by decide) ?_
    exact h0
  · exact h0

theorem State.event_same {s} {f} {code} {unit} {args} : Same [.fns, .out] s (State.event s f code unit args) := by
  unfold State.event
  split
  · exact Same.mono State.loseEvent_same (by decide)
  · extract_lets -merge +onlyGivenNames x0
    refine Same.ite ?_ ?_
    · extract_lets -merge +onlyGivenNames x1
      extract_lets -merge +onlyGivenNames x2
      extract_lets -merge +onlyGivenNames x3
      have h3 : Same [.fns, .out] s x3 := by
        exact Same.mono State.post_same (by decide)
      try clear_value x3
      extract_lets -merge +onlyGivenNames x4
      have h4 : Same [.fns, .out] s x4 := by
        refine Same.andThen State.recordDone_same (by decide) ?_
        exact h3
      try clear_value x4
      refine Same.andThen State.modRing_same (by decide) ?_
      exact h4
    · exact Same.mono State.loseEvent_same (by decide)

theorem State.pageLow_same {s} {m} : Same [.fns, .models, .out] s (State.pageLow s m) := by
  unfold State.pageLow
  extract_lets -merge +onlyGivenNames x0
  extract_lets -merge +onlyGivenNames x1
  refine Same.ite ?_ ?_
  · exact Same.refl _ _
  · refine Same.ite ?_ ?_
    · refine Same.andThen State.modPool_same (by decide) ?_
      exact Same.mono State.event_same (by decide)
    · refine Same.ite ?_ ?_
      · exact Same.mono State.modPool_same (by decide)
      · exact Same.refl _ _

theorem State.finishReq_same {s} {q} {e} {opcode} {status} {emitted} {detail} : Same [.fns, .out, .held] s (State.finishReq s q e opcode status emitted detail) := by
  unfold State.finishReq
  refine Same.ite ?_ ?_
  · exact Same.mono State.completeFull_same (by decide)
  · exact Same.refl _ _

theorem State.acceptChunk_same {s} {q} {e} {fin} {toks} : Same [.fns, .models, .seqs, .treeOps, .out, .held] s (State.acceptChunk s q e fin toks) := by
  unfold State.acceptChunk
  extract_lets -merge +onlyGivenNames x0
  extract_lets -merge +onlyGivenNames x1
  extract_lets -merge +onlyGivenNames x2
  have h2 : Same [.fns, .models, .seqs, .treeOps, .out, .held] s x2 := by
    exact Same.mono State.modSeq_same (by decide)
  try clear_value x2
  extract_lets -merge +onlyGivenNames x3
  have h3 : Same [.fns, .models, .seqs, .treeOps, .out, .held] s x3.2 := by
    refine Same.iteSnd ?_ ?_
    · refine Same.andThen State.matchChunk_same (by decide) ?_
      exact h2
    · refine Same.pairSnd ?_
      exact h2
  try clear_value x3
  extract_lets -merge +onlyGivenNames x4
  have h4 : Same [.fns, .models, .seqs, .treeOps, .out, .held] s x4 := by
    refine Same.andThen State.pageLow_same (by decide) ?_
    exact h3
  try clear_value x4
  refine Same.ite ?_ ?_
  · split
    · refine Same.andThen State.finishReq_same (by decide) ?_
      exact h4
    · exact h4
  · refine Same.andThen State.modSeq_same (by decide) ?_
    exact h4

theorem State.modPort_same {s} {p} {g} : Same [.ports] s (State.modPort s p g) := by
  unfold State.modPort
  refine Same.upd ?_ (fun p hp => by cases p <;> first | exact absurd (by decide) hp | exact rfl)
  exact Same.refl _ _

theorem State.sendFrame_same {s} {p} {q} : Same [.ports] s (State.sendFrame s p q) := by
  unfold State.sendFrame
  exact Same.mono State.modPort_same (by decide)

theorem State.sendNext_same {s} {p} {vc} : SomeSame1 [.ports] s (State.sendNext s p vc) := by
  unfold State.sendNext
  split
  · refine SomeSame1.ite ?_ ?_
    · refine SomeSame1.some ?_
      refine Same.andThen State.sendFrame_same (by decide) ?_
      exact Same.mono State.modPort_same (by decide)
    · exact SomeSame1.none
  · exact SomeSame1.none

theorem State.pump_same {s} {p} {y2} : Same [.ports] s (State.pump s p y2) := by
  induction y2 generalizing s with
  | zero => exact Same.refl _ _
  | succ n ih =>
    unfold State.pump
    split
    · rename_i heq
      exact ih.andThen (by decide) ((State.sendNext_same _ heq).mono (by decide))
    · split
      · rename_i heq
        exact ih.andThen (by decide) ((State.sendNext_same _ heq).mono (by decide))
      · exact Same.refl _ _

theorem State.pumpPort_same {s} {p} : Same [.ports] s (State.pumpPort s p) := by
  unfold State.pumpPort
  exact Same.mono State.pump_same (by decide)

theorem State.queuePacket_same {s} {p} {transit} {vc} {cls} {k} : Same [.ports] s (State.queuePacket s p transit vc cls k) := by
  unfold State.queuePacket
  refine Same.ite ?_ ?_
  · exact Same.mono State.modPort_same (by decide)
  · refine Same.andThen State.pumpPort_same (by decide) ?_
    exact Same.mono State.modPort_same (by decide)

theorem State.noRoute_same {s} {k} : Same [.undelivered] s (State.noRoute s k) := by
  unfold State.noRoute
  extract_lets -merge +onlyGivenNames x0
  refine Same.ite ?_ ?_
  · refine Same.upd ?_ (fun p hp => by cases p <;> first | exact absurd (by decide) hp | exact rfl)
    exact Same.refl _ _
  · exact Same.refl _ _

theorem State.deliverPacket_same {s} {from' : _} {vc} {cls} {k} : Same [.ports, .inbox, .undelivered] s (State.deliverPacket s from' vc cls k) := by
  unfold State.deliverPacket
  extract_lets -merge +onlyGivenNames x0
  refine Same.ite ?_ ?_
  · refine Same.ite ?_ ?_
    · exact Same.refl _ _
    · refine Same.upd ?_ (fun p hp => by cases p <;> first | exact absurd (by decide) hp | exact rfl)
      exact Same.refl _ _
  · split
    · exact Same.mono State.queuePacket_same (by decide)
    · exact Same.mono State.noRoute_same (by decide)

theorem State.acceptFrame_same {s} {p} {vc} {cls} {k} : Same [.ports, .inbox, .undelivered] s (State.acceptFrame s p vc cls k) := by
  unfold State.acceptFrame
  refine Same.andThen State.deliverPacket_same (by decide) ?_
  exact Same.mono State.modPort_same (by decide)

theorem State.modBoot_same {s : State} {g : Boot → Boot} (hg : ∀ b, (g b).partE = b.partE) : Same [.boot] s (s.modBoot g) := by
  refine Same.upd (Same.refl _ _) (fun p hp => by cases p <;> first | exact absurd (by decide) hp | exact rfl | exact hg _)

theorem State.putErrLog_same {s} {e} : Same [.boot] s (State.putErrLog s e) := by
  unfold State.putErrLog
  extract_lets -merge +onlyGivenNames x0
  extract_lets -merge +onlyGivenNames x1
  exact Same.mono (State.modBoot_same (fun _ => by first | rfl | simp | (split <;> rfl) | (dsimp only; split <;> rfl) | (dsimp only; (repeat' split) <;> rfl))) (by decide)

theorem State.logError_same {s} {cls} {unit} {scope} {fn} {index} {model} {layer} : Same [.boot] s (State.logError s cls unit scope fn index model layer) := by
  unfold State.logError
  exact Same.mono State.putErrLog_same (by decide)

theorem State.addCause_same {s} {h} {status} {detail} : Same [.seqs] s (State.addCause s h status detail) := by
  unfold State.addCause
  exact Same.mono State.modSeq_same (by decide)

theorem State.sampleFault_same {s} {t} {h} {m} {f} : Same [.seqs, .boot] s (State.sampleFault s t h m f) := by
  unfold State.sampleFault
  refine Same.ite ?_ ?_
  · exact Same.refl _ _
  · refine Same.andThen State.logError_same (by decide) ?_
    exact Same.mono State.addCause_same (by decide)

theorem State.acceptSeq_same {s} {c} {k} {q} {root} : Same [.seqs, .specStat, .specSource, .boot] s (State.acceptSeq s c k q root) := by
  unfold State.acceptSeq
  extract_lets -merge +onlyGivenNames x0
  extract_lets -merge +onlyGivenNames x1
  extract_lets -merge +onlyGivenNames x2
  have h2 : Same [.seqs, .specStat, .specSource, .boot] s x2 := by
    refine Same.ite ?_ ?_
    · exact Same.mono State.sampleFault_same (by decide)
    · exact Same.refl _ _
  try clear_value x2
  split
  · refine Same.andThen State.modSeq_same (by decide) ?_
    exact h2
  · extract_lets -merge +onlyGivenNames x3
    extract_lets -merge +onlyGivenNames x4
    have h4 : Same [.seqs, .specStat, .specSource, .boot] s x4 := by
      refine Same.upd ?_ (fun p hp => by cases p <;> first | exact absurd (by decide) hp | exact rfl)
      exact h2
    try clear_value x4
    extract_lets -merge +onlyGivenNames x5
    extract_lets -merge +onlyGivenNames x6
    extract_lets -merge +onlyGivenNames x7
    extract_lets -merge +onlyGivenNames x8
    extract_lets -merge +onlyGivenNames x9
    extract_lets -merge +onlyGivenNames x10
    have h10 : Same [.seqs, .specStat, .specSource, .boot] s x10 := by
      refine Same.upd ?_ (fun p hp => by cases p <;> first | exact absurd (by decide) hp | exact rfl)
      exact h4
    try clear_value x10
    refine Same.andThen State.modSeq_same (by decide) ?_
    exact h10

theorem State.sticky_same {s} {t} {m} : Same [.tiles] s (State.sticky s t m) := by
  unfold State.sticky
  exact Same.mono State.modTile_same (by decide)

theorem State.malformedBlock_same {s} {b} {addr} {cause} {first} : Same [.fns, .tiles, .out] s (State.malformedBlock s b addr cause first) := by
  unfold State.malformedBlock
  extract_lets -merge +onlyGivenNames x0
  have h0 : Same [.fns, .tiles, .out] s x0 := by
    exact Same.mono State.sticky_same (by decide)
  try clear_value x0
  extract_lets -merge +onlyGivenNames x1
  have h1 : Same [.fns, .tiles, .out] s x1 := by
    refine Same.andThen State.modTile_same (by decide) ?_
    exact h0
  try clear_value x1
  refine Same.ite ?_ ?_
  · refine Same.andThen State.event_same (by decide) ?_
    exact h1
  · exact h1

theorem State.countDecoded_same {s} {b} {flat} : Same [.tiles] s (State.countDecoded s b flat) := by
  unfold State.countDecoded
  refine Same.ite ?_ ?_
  · exact Same.mono State.modTile_same (by decide)
  · exact Same.refl _ _

theorem State.decodeBlock_same {s} {b} {addr} {block} {seen} : Same [.fns, .tiles, .out] s (State.decodeBlock s b addr block seen).2.2 := by
  unfold State.decodeBlock
  extract_lets -merge +onlyGivenNames x0
  try clear_value x0
  split
  · refine Same.pairThird ?_
    refine Same.pairSnd ?_
    exact Same.mono State.malformedBlock_same (by decide)
  · refine Same.pairThird ?_
    refine Same.pairSnd ?_
    exact Same.mono State.countDecoded_same (by decide)
  · refine Same.pairThird ?_
    refine Same.pairSnd ?_
    exact Same.mono State.countDecoded_same (by decide)

theorem State.rowBlocks_same {s} {b} {y2} {y3} {y4} : Same [.fns, .tiles, .out] s (State.rowBlocks s b y2 y3 y4).2.2 := by
  induction y2 generalizing s y3 y4 with
  | zero => exact Same.refl _ _
  | succ n ih =>
    refine Same.andThen ih (by decide) ?_
    refine Same.ite ?_ ?_
    · exact State.modTile_same.andThen (by decide) (State.decodeBlock_same.mono (by decide))
    · exact State.decodeBlock_same.mono (by decide)

theorem State.activations_same {s} {c} {d} {a} {y4} {y5} : Same [.fns, .tiles, .out] s (State.activations s c d a y4 y5).2 := by
  induction y4 generalizing s y5 with
  | nil => exact Same.refl _ _
  | cons r rs ih =>
    refine Same.andThen ih (by decide) ?_
    refine Same.iteThird (Same.refl _ _) ?_
    exact State.rowBlocks_same.mono (by decide)

theorem State.addNode_same {s} {m} {n} : Same [.models, .seqs] s (State.addNode s m n) := by
  unfold State.addNode
  extract_lets -merge +onlyGivenNames x0
  have h0 : Same [.models, .seqs] s x0 := by
    exact Same.mono State.modPool_same (by decide)
  try clear_value x0
  refine Same.upd ?_ (fun p hp => by cases p <;> first | exact absurd (by decide) hp | exact rfl)
  exact h0

theorem State.moveKv_same {s} {q} {src} {dst} : Same [.models] s (State.moveKv s q src dst) := by
  unfold State.moveKv
  split
  · refine Same.ite ?_ ?_
    · exact Same.refl _ _
    · exact Same.mono State.modPool_same (by decide)
  · exact Same.refl _ _

theorem State.moveAccepted_same {s} {q} {p} : Same [.models] s (State.moveAccepted s q p) := by
  unfold State.moveAccepted
  refine Same.foldl (fun y0 a0 => ?_) ?_
  · exact Same.mono State.moveKv_same (by decide)
  · exact Same.refl _ _

theorem State.release_same {s} {m} {fs} : Same [.models] s (State.release s m fs) := by
  unfold State.release
  refine Same.foldl (fun y0 a0 => ?_) ?_
  · refine Same.ite ?_ ?_
    · exact Same.mono State.modPool_same (by decide)
    · exact Same.refl _ _
  · exact Same.refl _ _

theorem State.dropSpec_same {s} {h} : Same [.models, .seqs] s (State.dropSpec s h) := by
  unfold State.dropSpec
  split
  · refine Same.ite ?_ ?_
    · exact Same.refl _ _
    · extract_lets -merge +onlyGivenNames x0
      refine Same.andThen State.release_same (by decide) ?_
      exact Same.mono State.modSeq_same (by decide)
  · exact Same.refl _ _

theorem State.settleSpec_same {s} {h} {last} : Same [.models, .seqs] s (State.settleSpec s h last) := by
  unfold State.settleSpec
  refine Same.andThen State.dropSpec_same (by decide) ?_
  exact Same.mono State.modSeq_same (by decide)

theorem State.advance_same {s} {k} {h} : Same [.models, .seqs] s (State.advance s k h) := by
  unfold State.advance
  split
  · exact Same.refl _ _
  · extract_lets -merge +onlyGivenNames x0
    extract_lets -merge +onlyGivenNames x1
    split
    · extract_lets -merge +onlyGivenNames x2
      have h2 : Same [.models, .seqs] s x2 := by
        exact Same.mono State.moveAccepted_same (by decide)
      try clear_value x2
      extract_lets -merge +onlyGivenNames x3
      refine Same.andThen State.settleSpec_same (by decide) ?_
      refine Same.andThen State.modSeq_same (by decide) ?_
      exact h2
    · refine Same.andThen State.settleSpec_same (by decide) ?_
      exact Same.mono State.modSeq_same (by decide)

theorem State.endSpill_same {s} {h} : Same [.models, .seqs, .relayStat] s (State.endSpill s h) := by
  unfold State.endSpill
  split
  · exact Same.refl _ _
  · split
    · exact Same.refl _ _
    · refine Same.ite ?_ ?_
      · exact Same.refl _ _
      · extract_lets -merge +onlyGivenNames x0
        extract_lets -merge +onlyGivenNames x1
        have h1 : Same [.models, .seqs, .relayStat] s x1 := by
          exact Same.mono State.modSeq_same (by decide)
        try clear_value x1
        extract_lets -merge +onlyGivenNames x2
        have h2 : Same [.models, .seqs, .relayStat] s x2 := by
          refine Same.andThen State.release_same (by decide) ?_
          exact h1
        try clear_value x2
        refine Same.upd ?_ (fun p hp => by cases p <;> first | exact absurd (by decide) hp | exact rfl)
        exact h2

theorem State.dropSpans_same {s} {gone} : Same [.models, .spans] s (State.dropSpans s gone) := by
  unfold State.dropSpans
  extract_lets -merge +onlyGivenNames x0
  extract_lets -merge +onlyGivenNames x1
  have h1 : Same [.models, .spans] s x1 := by
    refine Same.upd ?_ (fun p hp => by cases p <;> first | exact absurd (by decide) hp | exact rfl)
    exact Same.refl _ _
  try clear_value x1
  refine Same.foldl (fun y2 a2 => ?_) ?_
  · exact Same.mono State.release_same (by decide)
  · exact h1

theorem State.unpark_same {s} {m} {peers} : Same [.seqs] s (State.unpark s m peers) := by
  unfold State.unpark
  refine Same.foldl (fun y0 a0 => ?_) ?_
  · refine Same.ite ?_ ?_
    · exact Same.mono State.modSeq_same (by decide)
    · exact Same.refl _ _
  · exact Same.refl _ _

theorem State.giveBack_same {s} {m} {f} : Same [.models] s (State.giveBack s m f) := by
  unfold State.giveBack
  exact Same.mono State.modPool_same (by decide)

theorem State.giveBackAll_same {s} {m} {fs} : Same [.models] s (State.giveBackAll s m fs) := by
  unfold State.giveBackAll
  refine Same.foldl (fun y0 a0 => ?_) ?_
  · exact Same.mono State.giveBack_same (by decide)
  · exact Same.refl _ _

theorem State.restoreGuard_same {s} {m} : Same [.seqs] s (State.restoreGuard s m) := by
  unfold State.restoreGuard
  extract_lets -merge +onlyGivenNames x0
  refine Same.foldl (fun y1 a1 => ?_) ?_
  · refine Same.ite ?_ ?_
    · exact Same.mono State.modSeq_same (by decide)
    · exact Same.refl _ _
  · exact Same.refl _ _

theorem State.refillGuard_same {s} {m} {y2} : Same [.models, .treeOps] s (State.refillGuard s m y2) := by
  induction y2 generalizing s with
  | zero => exact Same.refl _ _
  | succ n ih =>
    unfold State.refillGuard
    refine Same.ite ?_ (Same.refl _ _)
    split
    · rename_i f t heq
      refine Same.andThen ih (by decide) (State.modPool_same.andThen (by decide) ?_)
      split at heq
      · rename_i r hr
        cases heq
        exact State.takeFree_same _ hr |>.mono (by decide)
      · exact State.evict_same _ heq |>.mono (by decide)
    · exact Same.refl _ _

theorem State.allocatorBoundary_same {s} {m} : Same [.models, .seqs, .treeOps] s (State.allocatorBoundary s m) := by
  unfold State.allocatorBoundary
  extract_lets -merge +onlyGivenNames x0
  extract_lets -merge +onlyGivenNames x1
  have h1 : Same [.models, .seqs, .treeOps] s x1 := by
    refine Same.andThen State.giveBackAll_same (by decide) ?_
    exact Same.mono State.modPool_same (by decide)
  try clear_value x1
  refine Same.andThen State.restoreGuard_same (by decide) ?_
  refine Same.andThen State.refillGuard_same (by decide) ?_
  exact h1

theorem State.evictNode_same {s} {m} {n} : Same [.models, .treeOps] s (State.evictNode s m n) := by
  unfold State.evictNode
  extract_lets -merge +onlyGivenNames x0
  have h0 : Same [.models, .treeOps] s x0 := by
    exact Same.mono State.dropNode_same (by decide)
  try clear_value x0
  refine Same.ite ?_ ?_
  · refine Same.andThen State.modPool_same (by decide) ?_
    exact h0
  · exact h0

theorem State.sweepTenant_same {s} {m} {gone} {y3} : Same [.models, .treeOps] s (State.sweepTenant s m gone y3) := by
  induction y3 generalizing s with
  | zero => exact Same.refl _ _
  | succ n ih =>
    unfold State.sweepTenant
    split
    · exact ih.andThen (by decide) (State.evictNode_same.mono (by decide))
    · exact Same.refl _ _

theorem State.reserveFor_same {s} {h} : Same [.models, .seqs, .treeOps] s (State.reserveFor s h) := by
  unfold State.reserveFor
  split
  · refine Same.ite ?_ ?_
    · split
      · refine Same.andThen State.modSeq_same (by decide) ?_
        refine SomeSame.ofSnd (by assumption) ?_
        refine SomeSame.andThen State.takeFrame_same (by decide) ?_
        exact Same.refl _ _
      · exact Same.refl _ _
    · exact Same.refl _ _
  · exact Same.refl _ _

theorem State.sendPacket_same {s} {members} {control} {k} : Same [.ports, .inbox, .undelivered] s (State.sendPacket s members control k) := by
  unfold State.sendPacket
  extract_lets -merge +onlyGivenNames x0
  refine Same.ite ?_ ?_
  · refine Same.upd ?_ (fun p hp => by cases p <;> first | exact absurd (by decide) hp | exact rfl)
    exact Same.refl _ _
  · split
    · exact Same.mono State.queuePacket_same (by decide)
    · exact Same.mono State.noRoute_same (by decide)

theorem State.sendAll_same {s} {members} {control} {ks} : Same [.ports, .inbox, .undelivered] s (State.sendAll s members control ks) := by
  unfold State.sendAll
  refine Same.foldl (fun y0 a0 => ?_) ?_
  · exact Same.mono State.sendPacket_same (by decide)
  · exact Same.refl _ _

theorem State.relayMessage_same {s} {m} {dest} {frame} {all} : Same [.ports, .inbox, .msgId, .undelivered] s (State.relayMessage s m dest frame all) := by
  unfold State.relayMessage
  extract_lets -merge +onlyGivenNames x0
  extract_lets -merge +onlyGivenNames x1
  extract_lets -merge +onlyGivenNames x2
  extract_lets -merge +onlyGivenNames x3
  extract_lets -merge +onlyGivenNames x4
  have h4 : Same [.ports, .inbox, .msgId, .undelivered] s x4 := by
    exact Same.mono State.sendAll_same (by decide)
  try clear_value x4
  refine Same.upd ?_ (fun p hp => by cases p <;> first | exact absurd (by decide) hp | exact rfl)
  exact h4

theorem State.sendSpan_same {s} {q} {x} {n} : Same [.ports, .inbox, .msgId, .undelivered] s (State.sendSpan s q x n) := by
  unfold State.sendSpan
  split
  · refine Same.foldl (fun y0 a0 => ?_) ?_
    · split
      · extract_lets -merge +onlyGivenNames x1
        exact Same.mono State.relayMessage_same (by decide)
      · exact Same.refl _ _
    · exact Same.refl _ _
  · exact Same.refl _ _

theorem State.beginSpill_same {s} {h} {n} : Same [.seqs, .ports, .inbox, .msgId, .undelivered] s (State.beginSpill s h n) := by
  unfold State.beginSpill
  split
  · exact Same.refl _ _
  · split
    · exact Same.refl _ _
    · refine Same.andThen State.sendSpan_same (by decide) ?_
      exact Same.mono State.modSeq_same (by decide)

theorem State.startSpill_same {s} {h} {r} : Same [.seqs, .ports, .inbox, .msgId, .undelivered] s (State.startSpill s h r) := by
  unfold State.startSpill
  split
  · exact Same.refl _ _
  · split
    · exact Same.refl _ _
    · extract_lets -merge +onlyGivenNames x0
      extract_lets -merge +onlyGivenNames x1
      extract_lets -merge +onlyGivenNames x2
      have h2 : Same [.seqs, .ports, .inbox, .msgId, .undelivered] s x2 := by
        exact Same.mono State.modSeq_same (by decide)
      try clear_value x2
      refine Same.ite ?_ ?_
      · split
        · exact h2
        · refine Same.andThen State.beginSpill_same (by decide) ?_
          refine Same.andThen State.modSeq_same (by decide) ?_
          exact h2
      · exact h2

theorem State.allocate_same {s} {m} {peers} : Same ([.fns, .models, .seqs, .treeOps, .ports, .inbox, .spans, .msgId, .undelivered, .relayStat] ++ [.out]) s (State.allocate s m peers) := by
  unfold State.allocate
  extract_lets -merge +onlyGivenNames x0
  extract_lets -merge +onlyGivenNames x1
  have h1 : Same ([.fns, .models, .seqs, .treeOps, .ports, .inbox, .spans, .msgId, .undelivered, .relayStat] ++ [.out]) s x1 := by
    refine Same.foldl (fun y2 a2 => ?_) ?_
    · exact Same.mono State.endSpill_same (by decide)
    · exact Same.refl _ _
  try clear_value x1
  extract_lets -merge +onlyGivenNames x3
  have h3 : Same ([.fns, .models, .seqs, .treeOps, .ports, .inbox, .spans, .msgId, .undelivered, .relayStat] ++ [.out]) s x3 := by
    refine Same.andThen State.dropSpans_same (by decide) ?_
    exact h1
  try clear_value x3
  extract_lets -merge +onlyGivenNames x4
  have h4 : Same ([.fns, .models, .seqs, .treeOps, .ports, .inbox, .spans, .msgId, .undelivered, .relayStat] ++ [.out]) s x4 := by
    refine Same.andThen State.pageLow_same (by decide) ?_
    refine Same.andThen State.unpark_same (by decide) ?_
    refine Same.andThen State.allocatorBoundary_same (by decide) ?_
    exact h3
  try clear_value x4
  extract_lets -merge +onlyGivenNames x5
  have h5 : Same ([.fns, .models, .seqs, .treeOps, .ports, .inbox, .spans, .msgId, .undelivered, .relayStat] ++ [.out]) s x5 := by
    refine Same.andThen State.sweepTenant_same (by decide) ?_
    exact h4
  try clear_value x5
  extract_lets -merge +onlyGivenNames x6
  have h6 : Same ([.fns, .models, .seqs, .treeOps, .ports, .inbox, .spans, .msgId, .undelivered, .relayStat] ++ [.out]) s x6 := by
    refine Same.foldl (fun y7 a7 => ?_) ?_
    · exact Same.mono State.reserveFor_same (by decide)
    · exact h5
  try clear_value x6
  refine Same.foldl (fun y8 a8 => ?_) ?_
  · exact Same.mono State.startSpill_same (by decide)
  · exact h6

theorem State.modSpdm_same {s} {g} : Same [.spdm] s (State.modSpdm s g) := by
  unfold State.modSpdm
  refine Same.upd ?_ (fun p hp => by cases p <;> first | exact absurd (by decide) hp | exact rfl)
  exact Same.refl _ _

theorem State.answer_same {s} {t} {r} : Same [.spdm] s (State.answer s t r) := by
  unfold State.answer
  exact Same.mono State.modSpdm_same (by decide)

theorem State.putFrame_same {s} {m} {f} {a} {b} : Same [.models] s (State.putFrame s m f a b) := by
  unfold State.putFrame
  exact Same.mono State.modPool_same (by decide)

theorem State.countKv_same {s} {t} {layer} {gs} : Same [.tiles] s (State.countKv s t layer gs) := by
  unfold State.countKv
  refine Same.ite ?_ ?_
  · extract_lets -merge +onlyGivenNames x0
    exact Same.mono State.modTile_same (by decide)
  · exact Same.refl _ _

theorem State.appendVector_same {s} {c} {g} {layer} {frame} {grp} {kind} {q} {xs} : Same [.tiles, .models] s (State.appendVector s c g layer frame grp kind q xs) := by
  unfold State.appendVector
  extract_lets -merge +onlyGivenNames x0
  extract_lets -merge +onlyGivenNames x1
  have h1 : Same [.tiles, .models] s x1 := by
    exact Same.mono State.putFrame_same (by decide)
  try clear_value x1
  extract_lets -merge +onlyGivenNames x2
  have h2 : Same [.tiles, .models] s x2 := by
    refine Same.andThen State.putFrame_same (by decide) ?_
    exact h1
  try clear_value x2
  refine Same.andThen State.countKv_same (by decide) ?_
  exact h2

theorem State.appendRow_same {s} {c} {a} {g} {layer} {k} {r} : Same [.tiles, .models] s (State.appendRow s c a g layer k r) := by
  unfold State.appendRow
  extract_lets -merge +onlyGivenNames x0
  split
  · exact Same.refl _ _
  · refine Same.foldl (fun y1 a1 => ?_) ?_
    · extract_lets -merge +onlyGivenNames x2
      have h2 : Same [.tiles, .models] y1 x2 := by
        exact Same.mono State.appendVector_same (by decide)
      try clear_value x2
      refine Same.andThen State.appendVector_same (by decide) ?_
      exact h2
    · exact Same.refl _ _

theorem State.modSync_same {s} {g} : Same [.sync] s (State.modSync s g) := by
  unfold State.modSync
  refine Same.upd ?_ (fun p hp => by cases p <;> first | exact absurd (by decide) hp | exact rfl)
  exact Same.refl _ _

theorem State.putWord_same {s} {w} {x} : Same [.sync] s (State.putWord s w x) := by
  unfold State.putWord
  exact Same.mono State.modSync_same (by decide)

theorem State.applyClear_same {s} {w} : Same [.sync] s (State.applyClear s w).2 := by
  unfold State.applyClear
  extract_lets -merge +onlyGivenNames x0
  refine Same.iteSnd ?_ ?_
  · refine Same.pairSnd ?_
    exact Same.refl _ _
  · refine Same.iteSnd ?_ ?_
    · refine Same.pairSnd ?_
      exact Same.mono State.putWord_same (by decide)
    · refine Same.pairSnd ?_
      exact Same.refl _ _

theorem State.dropSlots_same {s} {h} : Same [.fns, .seqs] s (State.dropSlots s h) := by
  unfold State.dropSlots
  split
  · refine Same.andThen State.modSeq_same (by decide) ?_
    exact Same.mono State.modRing_same (by decide)
  · exact Same.refl _ _

theorem State.finishGen_same {s} {h} {status} {detail} : Same [.fns, .seqs, .out, .held] s (State.finishGen s h status detail) := by
  unfold State.finishGen
  split
  · split
    · refine Same.andThen State.modSeq_same (by decide) ?_
      exact Same.mono State.finishReq_same (by decide)
    · exact Same.refl _ _
  · exact Same.refl _ _

theorem State.dropCopies_same {s} {h} : Same [.models, .seqs] s (State.dropCopies s h) := by
  unfold State.dropCopies
  split
  · refine Same.andThen State.giveBackAll_same (by decide) ?_
    exact Same.mono State.modSeq_same (by decide)
  · exact Same.refl _ _

theorem State.dropReserve_same {s} {h} : Same [.models, .seqs] s (State.dropReserve s h) := by
  unfold State.dropReserve
  split
  · split
    · refine Same.andThen State.giveBack_same (by decide) ?_
      exact Same.mono State.modSeq_same (by decide)
    · exact Same.refl _ _
  · exact Same.refl _ _

theorem State.settleSeq_same {s} {h} : Same [.fns, .models, .seqs] s (State.settleSeq s h) := by
  unfold State.settleSeq
  refine Same.andThen State.dropSlots_same (by decide) ?_
  refine Same.andThen State.dropCopies_same (by decide) ?_
  exact Same.mono State.dropReserve_same (by decide)

theorem State.deliver_same {s} {ws} {st} {v} : Same [.sync] s (State.deliver s ws st v) := by
  unfold State.deliver
  exact Same.mono State.modSync_same (by decide)

theorem State.applyPoison_same {s} {w} : Same [.sync] s (State.applyPoison s w).2 := by
  unfold State.applyPoison
  extract_lets -merge +onlyGivenNames x0
  refine Same.iteSnd ?_ ?_
  · refine Same.pairSnd ?_
    exact Same.refl _ _
  · refine Same.pairSnd ?_
    refine Same.andThen State.deliver_same (by decide) ?_
    exact Same.mono State.putWord_same (by decide)

theorem State.loseOwner_same {s} {kind} {id} : Same [.sync] s (State.loseOwner s kind id) := by
  unfold State.loseOwner
  split
  · exact Same.refl _ _
  · extract_lets -merge +onlyGivenNames x0
    extract_lets -merge +onlyGivenNames x1
    have h1 : Same [.sync] s x1 := by
      exact Same.mono State.modSync_same (by decide)
    try clear_value x1
    refine Same.foldl (fun y2 a2 => ?_) ?_
    · exact Same.mono State.applyPoison_same (by decide)
    · exact h1

theorem State.loseSeqOwner_same {s} {h} : Same [.sync] s (State.loseSeqOwner s h) := by
  unfold State.loseSeqOwner
  refine Same.ite ?_ ?_
  · exact Same.mono State.loseOwner_same (by decide)
  · exact Same.refl _ _

theorem State.trimGuard_same {s} {m} : Same [.models] s (State.trimGuard s m) := by
  unfold State.trimGuard
  extract_lets -merge +onlyGivenNames x0
  refine Same.ite ?_ ?_
  · split
    · refine Same.andThen State.giveBack_same (by decide) ?_
      exact Same.mono State.modPool_same (by decide)
    · exact Same.refl _ _
  · exact Same.refl _ _

theorem State.stopImports_same {s} {h} {status} : Same [.fns, .models, .seqs, .out, .held] s (State.stopImports s h status) := by
  unfold State.stopImports
  split
  · extract_lets -merge +onlyGivenNames x0
    have h0 : Same [.fns, .models, .seqs, .out, .held] s x0 := by
      refine Same.foldl (fun y1 a1 => ?_) ?_
      · refine Same.andThen State.finishReq_same (by decide) ?_
        exact Same.mono State.giveBackAll_same (by decide)
      · exact Same.refl _ _
    try clear_value x0
    refine Same.andThen State.modSeq_same (by decide) ?_
    exact h0
  · exact Same.refl _ _

theorem State.modUm_same {s : State} {g : Umathal → Umathal} (hg : ∀ u, (g u).roots = u.roots) : Same [.um] s (s.modUm g) := by
  refine Same.upd (Same.refl _ _) (fun p hp => by cases p <;> first | exact absurd (by decide) hp | exact rfl | exact hg _)

@[simp] theorem Umathal.putSlot_roots (u : Umathal) (b : Bool) (m : Option Mirror) : (u.putSlot b m).roots = u.roots := by
  unfold Umathal.putSlot
  split <;> rfl

@[simp] theorem Umathal.blow_roots (u : Umathal) (m : Mirror) : (u.blow m).roots = u.roots := by
  unfold Umathal.blow
  split <;> rfl

theorem Umathal.bootPick_roots (n : Nat) (u : Umathal) (a b : Bool) : (Umathal.bootPick n u a b).2.roots = u.roots := by
  induction n generalizing u a b with
  | zero => rfl
  | succ n ih =>
    unfold Umathal.bootPick
    split
    · rfl
    · split
      · rfl
      · split
        · exact (ih _ _ _).trans (Umathal.putSlot_roots _ _ _)
        · split
          · dsimp only
            split
            · exact Umathal.putSlot_roots _ _ _
            · rfl
          · exact ih _ _ _

theorem Umathal.boot_roots (u : Umathal) : (∀ v, u.boot.1 = some v → v.roots = u.roots) ∧ u.boot.2.roots = u.roots := by
  unfold Umathal.boot
  have h := Umathal.bootPick_roots 4 u false false
  split
  · rename_i x v hv
    rw [hv] at h
    split
    · refine ⟨fun w hw => ?_, h⟩
      cases hw
      split
      · exact (Umathal.blow_roots _ _).trans h
      · exact h
    · exact ⟨fun w hw => (by cases hw), h⟩
  · rename_i v hv
    rw [hv] at h
    split
    · refine ⟨fun w hw => ?_, h⟩
      cases hw
      exact h
    · exact ⟨fun w hw => (by cases hw), h⟩

theorem Umathal.boot_some {u v w : Umathal} (h : u.boot = (some v, w)) : v.roots = u.roots := by
  have := (Umathal.boot_roots u).1 v
  rw [h] at this
  exact this rfl

theorem Umathal.boot_renewed {u v w : Umathal} {key : Nat → BitVec 256} (h : u.boot = (some v, w)) :
    (v.renewKeys key).roots = u.roots :=
  (show (v.renewKeys key).roots = v.roots from rfl).trans (Umathal.boot_some h)

theorem Umathal.boot_none {u v : Umathal} (h : u.boot = (none, v)) : v.roots = u.roots := by
  have := (Umathal.boot_roots u).2
  rw [h] at this
  exact this

theorem State.nextCounter_same {s} {f} : Same [.um] s (State.nextCounter s f).2 := by
  unfold State.nextCounter
  extract_lets -merge +onlyGivenNames x0
  refine Same.pairSnd ?_
  exact Same.mono (State.modUm_same (fun _ => by first | rfl | simp | (split <;> rfl) | (dsimp only; split <;> rfl) | (dsimp only; (repeat' split) <;> rfl))) (by decide)

theorem State.writeRecord_same {s} {h} : Same [.seqs, .um, .out] s (State.writeRecord s h) := by
  unfold State.writeRecord
  split
  · exact Same.refl _ _
  · split
    · extract_lets -merge +onlyGivenNames x0
      extract_lets -merge +onlyGivenNames x1
      extract_lets -merge +onlyGivenNames x2
      have h2 : Same [.seqs, .um, .out] s x2.2 := by
        exact Same.mono State.nextCounter_same (by decide)
      try clear_value x2
      extract_lets -merge +onlyGivenNames x3
      have h3 : Same [.seqs, .um, .out] s x3 := by
        refine Same.andThen State.modSeq_same (by decide) ?_
        exact h2
      try clear_value x3
      extract_lets -merge +onlyGivenNames x4
      extract_lets -merge +onlyGivenNames x5
      extract_lets -merge +onlyGivenNames x6
      extract_lets -merge +onlyGivenNames x7
      extract_lets -merge +onlyGivenNames x8
      extract_lets -merge +onlyGivenNames x9
      have h9 : Same [.seqs, .um, .out] s x9 := by
        refine Same.andThen State.post_same (by decide) ?_
        exact h3
      try clear_value x9
      refine Same.andThen State.post_same (by decide) ?_
      exact h9
    · exact Same.refl _ _

theorem State.startOut_same {s} : Same [.seqs, .um, .out] s (State.startOut s) := by
  unfold State.startOut
  split
  · exact Same.mono State.writeRecord_same (by decide)
  · exact Same.refl _ _

theorem State.leaveQueue_same {s} {h} : Same [.seqs, .um, .swapQueue, .out] s (State.leaveQueue s h) := by
  unfold State.leaveQueue
  extract_lets -merge +onlyGivenNames x0
  extract_lets -merge +onlyGivenNames x1
  have h1 : Same [.seqs, .um, .swapQueue, .out] s x1 := by
    refine Same.upd ?_ (fun p hp => by cases p <;> first | exact absurd (by decide) hp | exact rfl)
    exact Same.refl _ _
  try clear_value x1
  refine Same.ite ?_ ?_
  · exact h1
  · refine Same.andThen State.startOut_same (by decide) ?_
    exact h1

theorem State.endEntitlement_same {s} {h} : Same [.models, .seqs] s (State.endEntitlement s h) := by
  unfold State.endEntitlement
  split
  · refine Same.ite ?_ ?_
    · exact Same.refl _ _
    · refine Same.andThen State.trimGuard_same (by decide) ?_
      exact Same.mono State.modSeq_same (by decide)
  · exact Same.refl _ _

theorem State.insertNode_same {s} {h} {q} {page} {hash} {cross} {f} {toks} : Same [.models, .seqs, .treeOps] s (State.insertNode s h q page hash cross f toks).2 := by
  unfold State.insertNode
  extract_lets -merge +onlyGivenNames x0
  extract_lets -merge +onlyGivenNames x1
  refine Same.pairSnd ?_
  refine Same.andThen State.treeOp_same (by decide) ?_
  exact Same.mono State.addNode_same (by decide)

theorem State.insertPartial_same {s} {h} : Same [.models, .seqs, .treeOps] s (State.insertPartial s h) := by
  unfold State.insertPartial
  split
  · exact Same.refl _ _
  · extract_lets -merge +onlyGivenNames x0
    extract_lets -merge +onlyGivenNames x1
    split
    · refine Same.ite ?_ ?_
      · exact Same.refl _ _
      · extract_lets -merge +onlyGivenNames x2
        extract_lets -merge +onlyGivenNames x3
        extract_lets -merge +onlyGivenNames x4
        split
        · refine Same.ite ?_ ?_
          · exact Same.refl _ _
          · exact Same.mono State.collision_same (by decide)
        · extract_lets -merge +onlyGivenNames x5
          extract_lets -merge +onlyGivenNames x6
          have h6 : Same [.models, .seqs, .treeOps] s x6 := by
            refine Same.ite ?_ ?_
            · split
              · exact Same.mono State.evictNode_same (by decide)
              · exact Same.refl _ _
            · exact Same.refl _ _
          try clear_value x6
          refine Same.andThen State.insertNode_same (by decide) ?_
          exact h6
    · exact Same.refl _ _

theorem State.insertFull_same {s} {h} {j} : Same [.models, .seqs, .treeOps] s (State.insertFull s h j) := by
  unfold State.insertFull
  split
  · exact Same.refl _ _
  · extract_lets -merge +onlyGivenNames x0
    have h0 : Same [.models, .seqs, .treeOps] s x0 := by
      exact Same.mono State.modSeq_same (by decide)
    try clear_value x0
    split
    · refine Same.ite ?_ ?_
      · exact h0
      · extract_lets -merge +onlyGivenNames x1
        extract_lets -merge +onlyGivenNames x2
        split
        · refine Same.ite ?_ ?_
          · refine Same.andThen State.modSeq_same (by decide) ?_
            exact h0
          · refine Same.andThen State.collision_same (by decide) ?_
            exact h0
        · extract_lets -merge +onlyGivenNames x3
          have h3 : Same [.models, .seqs, .treeOps] s x3.2 := by
            refine Same.andThen State.insertNode_same (by decide) ?_
            exact h0
          try clear_value x3
          refine Same.andThen State.modSeq_same (by decide) ?_
          exact h3
    · exact h0

theorem State.insertPages_same {s} {h} : Same [.models, .seqs, .treeOps] s (State.insertPages s h) := by
  unfold State.insertPages
  split
  · refine Same.ite ?_ ?_
    · exact Same.refl _ _
    · refine Same.foldl (fun y0 a0 => ?_) ?_
      · exact Same.mono State.insertFull_same (by decide)
      · exact Same.refl _ _
  · exact Same.refl _ _

theorem State.endWrites_same {s} : Same [.seqs] s (State.endWrites s) := by
  unfold State.endWrites
  refine Same.upd ?_ (fun p hp => by cases p <;> first | exact absurd (by decide) hp | exact rfl)
  exact Same.refl _ _

theorem State.finishPending_same {s} {h} : Same [.fns, .seqs, .out, .held] s (State.finishPending s h) := by
  unfold State.finishPending
  split
  · extract_lets -merge +onlyGivenNames x0
    have h0 : Same [.fns, .seqs, .out, .held] s x0 := by
      refine Same.foldl (fun y1 a1 => ?_) ?_
      · exact Same.mono State.finishReq_same (by decide)
      · exact Same.refl _ _
    try clear_value x0
    extract_lets -merge +onlyGivenNames x2
    have h2 : Same [.fns, .seqs, .out, .held] s x2 := by
      refine Same.foldl (fun y3 a3 => ?_) ?_
      · exact Same.mono State.finishReq_same (by decide)
      · exact h0
    try clear_value x2
    extract_lets -merge +onlyGivenNames x4
    have h4 : Same [.fns, .seqs, .out, .held] s x4 := by
      unfold x4
      split
      · refine Same.andThen State.finishReq_same (by decide) ?_
        exact h2
      · exact h2
    try clear_value x4
    refine Same.andThen State.modSeq_same (by decide) ?_
    exact h4
  · exact Same.refl _ _

theorem State.finishChunks_same {s} {h} {status} {detail} : Same [.fns, .seqs, .out, .held] s (State.finishChunks s h status detail) := by
  unfold State.finishChunks
  split
  · extract_lets -merge +onlyGivenNames x0
    have h0 : Same [.fns, .seqs, .out, .held] s x0 := by
      refine Same.foldl (fun y1 a1 => ?_) ?_
      · exact Same.mono State.finishReq_same (by decide)
      · exact Same.refl _ _
    try clear_value x0
    refine Same.andThen State.modSeq_same (by decide) ?_
    exact h0
  · exact Same.refl _ _

theorem State.endSeq_same {s} {h} {status} {detail} : Same [.fns, .models, .seqs, .treeOps, .sync, .um, .swapQueue, .out, .held] s (State.endSeq s h status detail) := by
  unfold State.endSeq
  extract_lets -merge +onlyGivenNames x0
  have h0 : Same [.fns, .models, .seqs, .treeOps, .sync, .um, .swapQueue, .out, .held] s x0 := by
    refine Same.andThen State.modSeq_same (by decide) ?_
    refine Same.andThen State.stopImports_same (by decide) ?_
    refine Same.andThen State.settleSeq_same (by decide) ?_
    exact Same.mono State.leaveQueue_same (by decide)
  try clear_value x0
  extract_lets -merge +onlyGivenNames x1
  have h1 : Same [.fns, .models, .seqs, .treeOps, .sync, .um, .swapQueue, .out, .held] s x1 := by
    refine Same.andThen State.loseSeqOwner_same (by decide) ?_
    refine Same.andThen State.endEntitlement_same (by decide) ?_
    refine Same.andThen State.insertPartial_same (by decide) ?_
    refine Same.andThen State.insertPages_same (by decide) ?_
    exact h0
  try clear_value x1
  refine Same.andThen State.endWrites_same (by decide) ?_
  refine Same.andThen State.finishPending_same (by decide) ?_
  refine Same.andThen State.finishGen_same (by decide) ?_
  refine Same.andThen State.finishChunks_same (by decide) ?_
  exact h1

theorem State.stopSwap_same {s} {h} {status} : Same [.fns, .models, .seqs, .treeOps, .sync, .um, .swapQueue, .out, .held] s (State.stopSwap s h status) := by
  unfold State.stopSwap
  split
  · exact Same.refl _ _
  · split
    · exact Same.refl _ _
    · extract_lets -merge +onlyGivenNames x0
      extract_lets -merge +onlyGivenNames x1
      have h1 : Same [.fns, .models, .seqs, .treeOps, .sync, .um, .swapQueue, .out, .held] s x1 := by
        exact Same.mono State.giveBackAll_same (by decide)
      try clear_value x1
      extract_lets -merge +onlyGivenNames x2
      have h2 : Same [.fns, .models, .seqs, .treeOps, .sync, .um, .swapQueue, .out, .held] s x2 := by
        refine Same.andThen State.finishReq_same (by decide) ?_
        exact h1
      try clear_value x2
      extract_lets -merge +onlyGivenNames x3
      have h3 : Same [.fns, .models, .seqs, .treeOps, .sync, .um, .swapQueue, .out, .held] s x3 := by
        refine Same.andThen State.modSeq_same (by decide) ?_
        exact h2
      try clear_value x3
      extract_lets -merge +onlyGivenNames x4
      have h4 : Same [.fns, .models, .seqs, .treeOps, .sync, .um, .swapQueue, .out, .held] s x4 := by
        refine Same.andThen State.endSeq_same (by decide) ?_
        exact h3
      try clear_value x4
      split
      · refine Same.foldl (fun y5 a5 => ?_) ?_
        · exact Same.mono State.finishReq_same (by decide)
        · exact h4
      · exact h4

theorem State.enterPreempting_same {s} {h} {e} {buf} : Same [.fns, .models, .seqs, .treeOps, .sync, .um, .swapQueue, .out, .held] s (State.enterPreempting s h e buf) := by
  unfold State.enterPreempting
  extract_lets -merge +onlyGivenNames x0
  have h0 : Same [.fns, .models, .seqs, .treeOps, .sync, .um, .swapQueue, .out, .held] s x0 := by
    refine Same.upd ?_ (fun p hp => by cases p <;> first | exact absurd (by decide) hp | exact rfl)
    exact Same.refl _ _
  try clear_value x0
  extract_lets -merge +onlyGivenNames x1
  extract_lets -merge +onlyGivenNames x2
  have h2 : Same [.fns, .models, .seqs, .treeOps, .sync, .um, .swapQueue, .out, .held] s x2 := by
    refine Same.andThen State.finishGen_same (by decide) ?_
    refine Same.andThen State.settleSeq_same (by decide) ?_
    exact h0
  try clear_value x2
  extract_lets -merge +onlyGivenNames x3
  have h3 : Same [.fns, .models, .seqs, .treeOps, .sync, .um, .swapQueue, .out, .held] s x3 := by
    refine Same.andThen State.modSeq_same (by decide) ?_
    exact h2
  try clear_value x3
  extract_lets -merge +onlyGivenNames x4
  have h4 : Same [.fns, .models, .seqs, .treeOps, .sync, .um, .swapQueue, .out, .held] s x4 := by
    refine Same.andThen State.loseSeqOwner_same (by decide) ?_
    exact h3
  try clear_value x4
  split
  · exact h4
  · extract_lets -merge +onlyGivenNames x5
    have h5 : Same [.fns, .models, .seqs, .treeOps, .sync, .um, .swapQueue, .out, .held] s x5 := by
      refine Same.andThen State.trimGuard_same (by decide) ?_
      exact h4
    try clear_value x5
    refine Same.ite ?_ ?_
    · refine Same.andThen State.stopSwap_same (by decide) ?_
      exact h5
    · refine Same.ite ?_ ?_
      · exact h5
      · refine Same.andThen State.startOut_same (by decide) ?_
        exact h5

theorem State.takePreempt_same {s} {h} : Same [.fns, .models, .seqs, .treeOps, .sync, .um, .swapQueue, .out, .held] s (State.takePreempt s h) := by
  unfold State.takePreempt
  split
  · exact Same.refl _ _
  · split
    · exact Same.refl _ _
    · refine Same.ite ?_ ?_
      · exact Same.mono State.enterPreempting_same (by decide)
      · refine Same.andThen State.modSeq_same (by decide) ?_
        refine Same.andThen State.finishReq_same (by decide) ?_
        exact Same.mono State.leaveQueue_same (by decide)

theorem State.applyEnding_same {s} {h} {e} : Same [.fns, .models, .seqs, .treeOps, .sync, .um, .swapQueue, .out, .held] s (State.applyEnding s h e) := by
  unfold State.applyEnding
  refine Same.ite ?_ ?_
  · exact Same.mono State.dropSlots_same (by decide)
  · refine Same.ite ?_ ?_
    · exact Same.mono State.takePreempt_same (by decide)
    · exact Same.mono State.endSeq_same (by decide)

theorem State.applyEvict_same {s} {m} {id} {taken} : Same [.models, .treeOps] s (State.applyEvict s m id taken) := by
  unfold State.applyEvict
  split
  · refine Same.ite ?_ ?_
    · extract_lets -merge +onlyGivenNames x0
      have h0 : Same [.models, .treeOps] s x0 := by
        exact Same.mono State.dropNode_same (by decide)
      try clear_value x0
      refine Same.ite ?_ ?_
      · refine Same.andThen State.giveBack_same (by decide) ?_
        exact h0
      · exact h0
    · exact Same.mono State.evictNode_same (by decide)
  · exact Same.refl _ _

theorem State.applyFill_same {s} {w} {v} : Same [.sync] s (State.applyFill s w v).2 := by
  unfold State.applyFill
  extract_lets -merge +onlyGivenNames x0
  refine Same.iteSnd ?_ ?_
  · refine Same.pairSnd ?_
    exact Same.refl _ _
  · refine Same.iteSnd ?_ ?_
    · refine Same.pairSnd ?_
      exact Same.refl _ _
    · extract_lets -merge +onlyGivenNames x1
      extract_lets -merge +onlyGivenNames x2
      have h2 : Same [.sync] s x2 := by
        exact Same.mono State.deliver_same (by decide)
      try clear_value x2
      split
      · refine Same.pairSnd ?_
        refine Same.andThen State.deliver_same (by decide) ?_
        refine Same.andThen State.putWord_same (by decide) ?_
        exact h2
      · refine Same.pairSnd ?_
        refine Same.andThen State.putWord_same (by decide) ?_
        exact h2

theorem State.applyInsert_same {s} {m} {h} {page} {n} : Same [.models, .seqs] s (State.applyInsert s m h page n) := by
  unfold State.applyInsert
  split
  · exact Same.mono State.addNode_same (by decide)
  · exact Same.refl _ _

theorem State.settleChunks_same {s} {h} : Same [.fns, .seqs, .out, .held] s (State.settleChunks s h) := by
  unfold State.settleChunks
  split
  · exact Same.refl _ _
  · extract_lets -merge +onlyGivenNames x0
    extract_lets -merge +onlyGivenNames x1
    have h1 : Same [.fns, .seqs, .out, .held] s x1 := by
      refine Same.foldl (fun y2 a2 => ?_) ?_
      · refine Same.ite ?_ ?_
        · exact Same.refl _ _
        · exact Same.mono State.finishReq_same (by decide)
      · exact Same.refl _ _
    try clear_value x1
    refine Same.andThen State.modSeq_same (by decide) ?_
    exact h1

theorem State.linkTokens_same {s} {h} {n} : Same [.fns, .seqs, .out, .held] s (State.linkTokens s h n) := by
  unfold State.linkTokens
  refine Same.andThen State.settleChunks_same (by decide) ?_
  exact Same.mono State.modSeq_same (by decide)

theorem State.applyLink_same {s} {m} {h} {id} {step} : Same [.fns, .models, .seqs, .treeOps, .out, .held] s (State.applyLink s m h id step) := by
  unfold State.applyLink
  split
  · refine Same.andThen State.linkTokens_same (by decide) ?_
    exact Same.mono State.linkNode_same (by decide)
  · exact Same.refl _ _

theorem State.applyOp_same {s} {m} {o} : Same [.fns, .models, .seqs, .treeOps, .out, .held] s (State.applyOp s m o) := by
  unfold State.applyOp
  split
  · exact Same.mono State.applyInsert_same (by decide)
  · exact Same.mono State.applyLink_same (by decide)
  · exact Same.mono State.applyEvict_same (by decide)

theorem State.registerWatch_same {s} {observe} {w} {unitHome} {engine} : Same [.sync] s (State.registerWatch s observe w unitHome engine).2 := by
  unfold State.registerWatch
  extract_lets -merge +onlyGivenNames x0
  split
  · extract_lets -merge +onlyGivenNames x1
    refine Same.pairSnd ?_
    exact Same.mono State.modSync_same (by decide)
  · extract_lets -merge +onlyGivenNames x2
    extract_lets -merge +onlyGivenNames x3
    refine Same.pairSnd ?_
    exact Same.mono State.modSync_same (by decide)

theorem State.applyPeek_same {s} {w} {unitHome} {engine} : Same [.sync] s (State.applyPeek s w unitHome engine).2.2 := by
  unfold State.applyPeek
  extract_lets -merge +onlyGivenNames x0
  refine Same.iteThird ?_ ?_
  · refine Same.pairThird ?_
    refine Same.pairSnd ?_
    exact Same.refl _ _
  · refine Same.iteThird ?_ ?_
    · refine Same.pairThird ?_
      refine Same.pairSnd ?_
      exact Same.refl _ _
    · extract_lets -merge +onlyGivenNames x1
      have h1 : Same [.sync] s x1.2 := by
        exact Same.mono State.registerWatch_same (by decide)
      try clear_value x1
      refine Same.pairThird ?_
      refine Same.pairSnd ?_
      exact h1

theorem State.applyPolicy_same {s} {h} : Same [.fns, .seqs, .out, .held] s (State.applyPolicy s h) := by
  unfold State.applyPolicy
  split
  · exact Same.refl _ _
  · extract_lets -merge +onlyGivenNames x0
    have h0 : Same [.fns, .seqs, .out, .held] s x0 := by
      refine Same.foldl (fun y1 a1 => ?_) ?_
      · exact Same.mono State.finishReq_same (by decide)
      · exact Same.refl _ _
    try clear_value x0
    refine Same.andThen State.modSeq_same (by decide) ?_
    exact h0

theorem State.applyTake_same {s} {w} {unitHome} {engine} : Same [.sync] s (State.applyTake s w unitHome engine).2.2 := by
  unfold State.applyTake
  extract_lets -merge +onlyGivenNames x0
  refine Same.iteThird ?_ ?_
  · refine Same.pairThird ?_
    refine Same.pairSnd ?_
    exact Same.refl _ _
  · refine Same.iteThird ?_ ?_
    · refine Same.pairThird ?_
      refine Same.pairSnd ?_
      exact Same.mono State.putWord_same (by decide)
    · extract_lets -merge +onlyGivenNames x1
      have h1 : Same [.sync] s x1.2 := by
        exact Same.mono State.registerWatch_same (by decide)
      try clear_value x1
      refine Same.pairThird ?_
      refine Same.pairSnd ?_
      exact h1

theorem State.syncResult_same {s} {st} {v} : Same [.sync] s (State.syncResult s st v) := by
  unfold State.syncResult
  exact Same.mono State.modSync_same (by decide)

theorem State.holdFill_same {s} {h} : Same [.sync, .ports] s (State.holdFill s h) := by
  unfold State.holdFill
  extract_lets -merge +onlyGivenNames x0
  extract_lets -merge +onlyGivenNames x1
  have h1 : Same [.sync, .ports] s x1 := by
    exact Same.mono State.modSync_same (by decide)
  try clear_value x1
  refine Same.ite ?_ ?_
  · refine Same.andThen State.modPort_same (by decide) ?_
    exact h1
  · exact h1

theorem State.arriveFill_same {s} {h} : Same [.sync, .ports] s (State.arriveFill s h) := by
  unfold State.arriveFill
  extract_lets -merge +onlyGivenNames x0
  refine Same.ite ?_ ?_
  · refine Same.andThen State.syncResult_same (by decide) ?_
    exact Same.mono State.modSync_same (by decide)
  · refine Same.ite ?_ ?_
    · exact Same.mono State.holdFill_same (by decide)
    · extract_lets -merge +onlyGivenNames x1
      have h1 : Same [.sync, .ports] s x1.2 := by
        exact Same.mono State.applyFill_same (by decide)
      try clear_value x1
      refine Same.ite ?_ ?_
      · refine Same.andThen State.holdFill_same (by decide) ?_
        exact h1
      · refine Same.andThen State.syncResult_same (by decide) ?_
        exact h1

theorem State.summarisePage_same {s} {m} {page} {f} : Same [.models] s (State.summarisePage s m page f) := by
  unfold State.summarisePage
  split
  · exact Same.refl _ _
  · extract_lets -merge +onlyGivenNames x0
    exact Same.mono State.modPool_same (by decide)

theorem State.summariseBack_same {s} {q} {pages} : Same [.models, .seqs] s (State.summariseBack s q pages) := by
  unfold State.summariseBack
  refine Same.ite ?_ ?_
  · refine Same.foldl (fun y0 a0 => ?_) ?_
    · split
      · refine Same.andThen State.modSeq_same (by decide) ?_
        exact Same.mono State.summarisePage_same (by decide)
      · exact Same.refl _ _
    · exact Same.refl _ _
  · exact Same.refl _ _

theorem State.backDone_same {s} {h} {w} : Same [.models, .seqs, .um, .swapQueue, .out] s (State.backDone s h w) := by
  unfold State.backDone
  split
  · exact Same.refl _ _
  · extract_lets -merge +onlyGivenNames x0
    extract_lets -merge +onlyGivenNames x1
    have h1 : Same [.models, .seqs, .um, .swapQueue, .out] s x1 := by
      exact Same.mono State.summariseBack_same (by decide)
    try clear_value x1
    extract_lets -merge +onlyGivenNames x2
    have h2 : Same [.models, .seqs, .um, .swapQueue, .out] s x2 := by
      refine Same.andThen State.modSeq_same (by decide) ?_
      exact h1
    try clear_value x2
    refine Same.andThen State.leaveQueue_same (by decide) ?_
    exact h2

theorem State.modVec_same {s} {t} {g} : Same [.tiles] s (State.modVec s t g) := by
  unfold State.modVec
  exact Same.mono State.modTile_same (by decide)

theorem State.vecNext_same {s} {t} : Same [.tiles] s (State.vecNext s t) := by
  unfold State.vecNext
  exact Same.mono State.modVec_same (by decide)

theorem State.writeLanes_same {s} {t} {dst} {l} : Same [.tiles] s (State.writeLanes s t dst l) := by
  unfold State.writeLanes
  exact Same.mono State.modVec_same (by decide)

theorem State.bcastOp_same {s} {t} {f} : Same [.tiles] s (State.bcastOp s t f) := by
  unfold State.bcastOp
  extract_lets -merge +onlyGivenNames x0
  refine Same.andThen State.vecNext_same (by decide) ?_
  exact Same.mono State.writeLanes_same (by decide)

theorem State.stopSwaps_same {s} {f} : Same [.seqs, .um, .swapQueue, .out] s (State.stopSwaps s f) := by
  unfold State.stopSwaps
  extract_lets -merge +onlyGivenNames x0
  extract_lets -merge +onlyGivenNames x1
  have h1 : Same [.seqs, .um, .swapQueue, .out] s x1 := by
    refine Same.upd ?_ (fun p hp => by cases p <;> first | exact absurd (by decide) hp | exact rfl)
    exact Same.refl _ _
  try clear_value x1
  refine Same.ite ?_ ?_
  · exact h1
  · refine Same.andThen State.startOut_same (by decide) ?_
    exact h1

theorem State.modFlash_same {s} {g} : Same [.flash] s (State.modFlash s g) := by
  unfold State.modFlash
  refine Same.upd ?_ (fun p hp => by cases p <;> first | exact absurd (by decide) hp | exact rfl)
  exact Same.refl _ _

theorem State.emptySlot_same {s} {m} : Same [.models] s (State.emptySlot s m) := by
  unfold State.emptySlot
  refine Same.ite ?_ ?_
  · exact Same.mono State.modModel_same (by decide)
  · exact Same.refl _ _

theorem State.forgetModel_same {s} {m} : Same [.tiles] s (State.forgetModel s m) := by
  unfold State.forgetModel
  refine Same.upd ?_ (fun p hp => by cases p <;> first | exact absurd (by decide) hp | exact rfl)
  exact Same.refl _ _

theorem State.eraseSlot_same {s} {m} : Same [.tiles, .models, .flash] s (State.eraseSlot s m) := by
  unfold State.eraseSlot
  extract_lets -merge +onlyGivenNames x0
  extract_lets -merge +onlyGivenNames x1
  have h1 : Same [.tiles, .models, .flash] s x1 := by
    exact Same.mono State.modModel_same (by decide)
  try clear_value x1
  extract_lets -merge +onlyGivenNames x2
  have h2 : Same [.tiles, .models, .flash] s x2 := by
    refine Same.andThen State.modFlash_same (by decide) ?_
    exact h1
  try clear_value x2
  refine Same.andThen State.emptySlot_same (by decide) ?_
  refine Same.andThen State.forgetModel_same (by decide) ?_
  exact h2

theorem State.stopInstall_same {s} {m} : Same [.tiles, .models, .flash] s (State.stopInstall s m) := by
  unfold State.stopInstall
  refine Same.ite ?_ ?_
  · exact Same.mono State.eraseSlot_same (by decide)
  · exact Same.refl _ _

theorem State.freeOwnerOf_same {s} {kind} {id} : Same [.sync] s (State.freeOwnerOf s kind id) := by
  unfold State.freeOwnerOf
  split
  · exact Same.refl _ _
  · exact Same.mono State.modSync_same (by decide)

theorem State.freeLoad_same {s} {m} : Same [.tiles, .models, .cohorts, .nextCohorts, .treeOps, .cands, .sampled, .sync, .spans] s (State.freeLoad s m) := by
  unfold State.freeLoad
  split
  · extract_lets -merge +onlyGivenNames x0
    have h0 : Same [.tiles, .models, .cohorts, .nextCohorts, .treeOps, .cands, .sampled, .sync, .spans] s x0 := by
      refine Same.upd ?_ (fun p hp => by cases p <;> first | exact absurd (by decide) hp | exact rfl)
      exact Same.refl _ _
    try clear_value x0
    extract_lets -merge +onlyGivenNames x1
    extract_lets -merge +onlyGivenNames x2
    have h2 : Same [.tiles, .models, .cohorts, .nextCohorts, .treeOps, .cands, .sampled, .sync, .spans] s x2 := by
      refine Same.andThen State.modSync_same (by decide) ?_
      exact h0
    try clear_value x2
    refine Same.andThen State.modModel_same (by decide) ?_
    refine Same.andThen State.freeOwnerOf_same (by decide) ?_
    exact h2
  · exact Same.refl _ _

theorem State.stopAdmin_same {s} {f} : Same ([.tiles, .models, .cohorts, .nextCohorts, .treeOps, .cands, .sampled, .sync, .slices, .spans] ++ [.um, .flash]) s (State.stopAdmin s f) := by
  unfold State.stopAdmin
  extract_lets -merge +onlyGivenNames x0
  have h0 : Same ([.tiles, .models, .cohorts, .nextCohorts, .treeOps, .cands, .sampled, .sync, .slices, .spans] ++ [.um, .flash]) s x0 := by
    refine Same.foldl (fun y1 a1 => ?_) ?_
    · extract_lets -merge +onlyGivenNames x2
      have h2 : Same ([.tiles, .models, .cohorts, .nextCohorts, .treeOps, .cands, .sampled, .sync, .slices, .spans] ++ [.um, .flash]) y1 x2 := by
        refine Same.ite ?_ ?_
        · exact Same.mono State.stopInstall_same (by decide)
        · exact Same.refl _ _
      try clear_value x2
      refine Same.ite ?_ ?_
      · refine Same.andThen State.freeLoad_same (by decide) ?_
        exact h2
      · exact h2
    · exact Same.refl _ _
  try clear_value x0
  extract_lets -merge +onlyGivenNames x3
  have h3 : Same ([.tiles, .models, .cohorts, .nextCohorts, .treeOps, .cands, .sampled, .sync, .slices, .spans] ++ [.um, .flash]) s x3 := by
    refine Same.ite ?_ ?_
    · refine Same.andThen (State.modUm_same (fun _ => by first | rfl | simp | (split <;> rfl) | (dsimp only; split <;> rfl) | (dsimp only; (repeat' split) <;> rfl))) (by decide) ?_
      exact h0
    · exact h0
  try clear_value x3
  refine Same.upd ?_ (fun p hp => by cases p <;> first | exact absurd (by decide) hp | exact rfl)
  exact h3

theorem State.dropStreams_same {s} {m} {c} : Same [.tiles] s (State.dropStreams s m c) := by
  unfold State.dropStreams
  refine Same.upd ?_ (fun p hp => by cases p <;> first | exact absurd (by decide) hp | exact rfl)
  exact Same.refl _ _

theorem State.modLoad_same {s} {m} {g} : Same [.models] s (State.modLoad s m g) := by
  unfold State.modLoad
  exact Same.mono State.modModel_same (by decide)

theorem State.releaseWindow_same {s} {m} {layers} : Same [.models] s (State.releaseWindow s m layers) := by
  unfold State.releaseWindow
  split
  · extract_lets -merge +onlyGivenNames x0
    exact Same.mono State.modLoad_same (by decide)
  · exact Same.refl _ _

theorem State.cutPass_same {s} {m} {c} : Same [.tiles, .models, .cohorts] s (State.cutPass s m c) := by
  unfold State.cutPass
  extract_lets -merge +onlyGivenNames x0
  have h0 : Same [.tiles, .models, .cohorts] s x0 := by
    exact Same.mono State.dropStreams_same (by decide)
  try clear_value x0
  split
  · extract_lets -merge +onlyGivenNames x1
    refine Same.andThen State.releaseWindow_same (by decide) ?_
    refine Same.andThen State.modCohort_same (by decide) ?_
    exact h0
  · refine Same.andThen State.modCohort_same (by decide) ?_
    exact h0

theorem State.rollBack_same {s} {h} : Same [.models, .seqs] s (State.rollBack s h) := by
  unfold State.rollBack
  refine Same.andThen State.modSeq_same (by decide) ?_
  exact Same.mono State.dropSpec_same (by decide)

theorem State.cutQuiet_same {s} {k} : Same [.tiles, .models, .seqs, .cohorts] s (State.cutQuiet s k) := by
  unfold State.cutQuiet
  extract_lets -merge +onlyGivenNames x0
  have h0 : Same [.tiles, .models, .seqs, .cohorts] s x0 := by
    refine Same.andThen State.modCohort_same (by decide) ?_
    exact Same.mono State.cutPass_same (by decide)
  try clear_value x0
  refine Same.foldl (fun y1 a1 => ?_) ?_
  · exact Same.mono State.rollBack_same (by decide)
  · exact h0

theorem State.freeSeq_same {s} {h} : Same [.fns, .models, .seqs, .reuse, .sync, .um, .swapQueue, .out] s (State.freeSeq s h) := by
  unfold State.freeSeq
  split
  · exact Same.refl _ _
  · extract_lets -merge +onlyGivenNames x0
    have h0 : Same [.fns, .models, .seqs, .reuse, .sync, .um, .swapQueue, .out] s x0 := by
      refine Same.andThen State.settleSeq_same (by decide) ?_
      exact Same.mono State.leaveQueue_same (by decide)
    try clear_value x0
    extract_lets -merge +onlyGivenNames x1
    extract_lets -merge +onlyGivenNames x2
    extract_lets -merge +onlyGivenNames x3
    have h3 : Same [.fns, .models, .seqs, .reuse, .sync, .um, .swapQueue, .out] s x3 := by
      refine Same.upd ?_ (fun p hp => by cases p <;> first | exact absurd (by decide) hp | exact rfl)
      exact h0
    try clear_value x3
    extract_lets -merge +onlyGivenNames x4
    have h4 : Same [.fns, .models, .seqs, .reuse, .sync, .um, .swapQueue, .out] s x4 := by
      refine Same.andThen State.trimGuard_same (by decide) ?_
      refine Same.andThen State.release_same (by decide) ?_
      refine Same.andThen State.giveBackAll_same (by decide) ?_
      exact h3
    try clear_value x4
    refine Same.ite ?_ ?_
    · refine Same.andThen State.freeOwnerOf_same (by decide) ?_
      exact h4
    · exact h4

theorem State.freeSeqs_same {s} {f} : Same [.fns, .models, .seqs, .reuse, .sync, .spans, .um, .swapQueue, .out] s (State.freeSeqs s f) := by
  unfold State.freeSeqs
  refine Same.andThen State.dropSpans_same (by decide) ?_
  refine Same.foldl (fun y0 a0 => ?_) ?_
  · exact Same.mono State.freeSeq_same (by decide)
  · exact Same.refl _ _

theorem State.removeTenant_same {s} {f} : Same [.models, .treeOps, .um] s (State.removeTenant s f) := by
  unfold State.removeTenant
  extract_lets -merge +onlyGivenNames x0
  have h0 : Same [.models, .treeOps, .um] s x0 := by
    exact Same.mono (State.modUm_same (fun _ => by first | rfl | simp | (split <;> rfl) | (dsimp only; split <;> rfl) | (dsimp only; (repeat' split) <;> rfl))) (by decide)
  try clear_value x0
  refine Same.foldl (fun y1 a1 => ?_) ?_
  · exact Same.mono State.sweepTenant_same (by decide)
  · exact h0

theorem State.completeAdmin_same {s} {e} {opcode} {status} {detail} : Same [.fns, .out, .held] s (State.completeAdmin s e opcode status detail) := by
  unfold State.completeAdmin
  exact Same.mono State.completeFull_same (by decide)

theorem State.finishCommand_same {s} {f} {o} : Same [.fns, .models, .treeOps, .um, .out, .held] s (State.finishCommand s f o) := by
  unfold State.finishCommand
  extract_lets -merge +onlyGivenNames x0
  have h0 : Same [.fns, .models, .treeOps, .um, .out, .held] s x0 := by
    refine Same.ite ?_ ?_
    · exact Same.mono State.removeTenant_same (by decide)
    · exact Same.refl _ _
  try clear_value x0
  refine Same.ite ?_ ?_
  · exact h0
  · refine Same.andThen State.completeAdmin_same (by decide) ?_
    exact h0

theorem State.bindOwner_same {s} {kind} {tenant} {id} : Same [.sync] s (State.bindOwner s kind tenant id).2 := by
  unfold State.bindOwner
  split
  · refine Same.pairSnd ?_
    exact Same.mono State.modSync_same (by decide)
  · refine Same.pairSnd ?_
    exact Same.refl _ _

theorem State.rebindOwner_same {s} {kind} {tenant} {id} : Same [.sync] s (State.rebindOwner s kind tenant id) := by
  unfold State.rebindOwner
  refine Same.andThen State.bindOwner_same (by decide) ?_
  exact Same.mono State.freeOwnerOf_same (by decide)

theorem State.finishDisable_same {s} {f} : Same ([.fns, .models, .seqs, .reuse, .treeOps, .sync, .spans, .um, .swapQueue, .out] ++ [.held]) s (State.finishDisable s f) := by
  unfold State.finishDisable
  extract_lets -merge +onlyGivenNames x0
  have h0 : Same ([.fns, .models, .seqs, .reuse, .treeOps, .sync, .spans, .um, .swapQueue, .out] ++ [.held]) s x0 := by
    refine Same.andThen State.freeSeqs_same (by decide) ?_
    exact Same.mono State.abortAll_same (by decide)
  try clear_value x0
  extract_lets -merge +onlyGivenNames x1
  have h1 : Same ([.fns, .models, .seqs, .reuse, .treeOps, .sync, .spans, .um, .swapQueue, .out] ++ [.held]) s x1 := by
    refine Same.foldl (fun y2 a2 => ?_) ?_
    · exact Same.mono State.sweepTenant_same (by decide)
    · exact h0
  try clear_value x1
  extract_lets -merge +onlyGivenNames x3
  have h3 : Same ([.fns, .models, .seqs, .reuse, .treeOps, .sync, .spans, .um, .swapQueue, .out] ++ [.held]) s x3 := by
    refine Same.andThen State.loseOwner_same (by decide) ?_
    exact h1
  try clear_value x3
  extract_lets -merge +onlyGivenNames x4
  extract_lets -merge +onlyGivenNames x5
  extract_lets -merge +onlyGivenNames x6
  extract_lets -merge +onlyGivenNames x7
  have h7 : Same ([.fns, .models, .seqs, .reuse, .treeOps, .sync, .spans, .um, .swapQueue, .out] ++ [.held]) s x7 := by
    refine Same.andThen State.modFn_same (by decide) ?_
    exact h3
  try clear_value x7
  extract_lets -merge +onlyGivenNames x8
  have h8 : Same ([.fns, .models, .seqs, .reuse, .treeOps, .sync, .spans, .um, .swapQueue, .out] ++ [.held]) s x8 := by
    refine Same.foldl (fun y9 a9 => ?_) ?_
    · exact Same.mono State.finishCommand_same (by decide)
    · exact h7
  try clear_value x8
  refine Same.ite ?_ ?_
  · refine Same.andThen State.rebindOwner_same (by decide) ?_
    exact h8
  · exact h8

theorem State.tryOne_same {s} {f} : Same ([.fns, .models, .seqs, .reuse, .treeOps, .sync, .spans, .um, .swapQueue, .out] ++ [.held]) s (State.tryOne s f) := by
  unfold State.tryOne
  refine Same.ite ?_ ?_
  · exact Same.mono State.finishDisable_same (by decide)
  · exact Same.refl _ _

theorem State.tryFinish_same {s} {f} : Same ([.fns, .models, .seqs, .reuse, .treeOps, .sync, .spans, .um, .swapQueue, .out] ++ [.held]) s (State.tryFinish s f) := by
  unfold State.tryFinish
  refine Same.ite ?_ ?_
  · exact Same.mono State.tryOne_same (by decide)
  · refine Same.andThen State.tryOne_same (by decide) ?_
    exact Same.mono State.tryOne_same (by decide)

theorem State.beginDisable_same {s} {f} : Same ([.fns, .tiles, .models, .seqs, .reuse, .cohorts, .nextCohorts, .treeOps, .cands, .sampled] ++ [.sync, .slices, .spans, .um, .flash, .swapQueue, .out, .held]) s (State.beginDisable s f) := by
  unfold State.beginDisable
  refine Same.ite ?_ ?_
  · exact Same.refl _ _
  · extract_lets -merge +onlyGivenNames x0
    have h0 : Same ([.fns, .tiles, .models, .seqs, .reuse, .cohorts, .nextCohorts, .treeOps, .cands, .sampled] ++ [.sync, .slices, .spans, .um, .flash, .swapQueue, .out, .held]) s x0 := by
      exact Same.mono State.modFn_same (by decide)
    try clear_value x0
    extract_lets -merge +onlyGivenNames x1
    have h1 : Same ([.fns, .tiles, .models, .seqs, .reuse, .cohorts, .nextCohorts, .treeOps, .cands, .sampled] ++ [.sync, .slices, .spans, .um, .flash, .swapQueue, .out, .held]) s x1 := by
      refine Same.andThen State.stopSwaps_same (by decide) ?_
      refine Same.andThen State.stopAdmin_same (by decide) ?_
      exact h0
    try clear_value x1
    extract_lets -merge +onlyGivenNames x2
    have h2 : Same ([.fns, .tiles, .models, .seqs, .reuse, .cohorts, .nextCohorts, .treeOps, .cands, .sampled] ++ [.sync, .slices, .spans, .um, .flash, .swapQueue, .out, .held]) s x2 := by
      refine Same.foldl (fun y3 a3 => ?_) ?_
      · exact Same.mono State.cutQuiet_same (by decide)
      · exact h1
    try clear_value x2
    refine Same.andThen State.tryFinish_same (by decide) ?_
    exact h2

theorem State.modPower_same {s} {g} : Same [.power] s (State.modPower s g) := by
  unfold State.modPower
  refine Same.upd ?_ (fun p hp => by cases p <;> first | exact absurd (by decide) hp | exact rfl)
  exact Same.refl _ _

theorem State.beginLoad_same {s} {m} {e} {x} {key} {im} {p} {b} : Same [.tiles, .models, .sync, .power] s (State.beginLoad s m e x key im p b) := by
  unfold State.beginLoad
  extract_lets -merge +onlyGivenNames x0
  extract_lets -merge +onlyGivenNames x1
  have h1 : Same [.tiles, .models, .sync, .power] s x1 := by
    exact Same.mono State.modModel_same (by decide)
  try clear_value x1
  extract_lets -merge +onlyGivenNames x2
  have h2 : Same [.tiles, .models, .sync, .power] s x2.2 := by
    refine Same.andThen State.bindOwner_same (by decide) ?_
    exact h1
  try clear_value x2
  extract_lets -merge +onlyGivenNames x3
  have h3 : Same [.tiles, .models, .sync, .power] s x3 := by
    refine Same.andThen State.modSync_same (by decide) ?_
    exact h2
  try clear_value x3
  extract_lets -merge +onlyGivenNames x4
  have h4 : Same [.tiles, .models, .sync, .power] s x4 := by
    refine Same.upd ?_ (fun p hp => by cases p <;> first | exact absurd (by decide) hp | exact rfl)
    exact h3
  try clear_value x4
  refine Same.andThen State.modPower_same (by decide) ?_
  exact h4

theorem State.bindStream_same {s} {c} {d} {f} : Same [.tiles] s (State.bindStream s c d f) := by
  unfold State.bindStream
  extract_lets -merge +onlyGivenNames x0
  extract_lets -merge +onlyGivenNames x1
  extract_lets -merge +onlyGivenNames x2
  exact Same.mono State.modTile_same (by decide)

theorem State.deniedBack_same {s} {h} {w} : Same [.fns, .sync, .out] s (State.deniedBack s h w) := by
  unfold State.deniedBack
  refine Same.andThen State.event_same (by decide) ?_
  exact Same.mono State.syncResult_same (by decide)

theorem State.blockSignal_same {s} {h} {w} : Same [.fns, .sync, .denials, .out] s (State.blockSignal s h w) := by
  unfold State.blockSignal
  extract_lets -merge +onlyGivenNames x0
  extract_lets -merge +onlyGivenNames x1
  have h1 : Same [.fns, .sync, .denials, .out] s x1 := by
    exact Same.mono State.modSync_same (by decide)
  try clear_value x1
  extract_lets -merge +onlyGivenNames x2
  have h2 : Same [.fns, .sync, .denials, .out] s x2 := by
    refine Same.andThen State.event_same (by decide) ?_
    exact h1
  try clear_value x2
  refine Same.ite ?_ ?_
  · refine Same.andThen State.deniedBack_same (by decide) ?_
    exact h2
  · refine Same.upd ?_ (fun p hp => by cases p <;> first | exact absurd (by decide) hp | exact rfl)
    exact h2

theorem State.endListBad_same {s} {m} : Same [.fns, .models, .seqs, .treeOps, .sync, .um, .swapQueue, .out, .held] s (State.endListBad s m) := by
  unfold State.endListBad
  refine Same.foldl (fun y0 a0 => ?_) ?_
  · exact Same.mono State.endSeq_same (by decide)
  · exact Same.refl _ _

theorem State.failBack_same {s} {h} {status} : Same [.fns, .models, .seqs, .treeOps, .sync, .um, .swapQueue, .out, .held] s (State.failBack s h status) := by
  unfold State.failBack
  split
  · exact Same.refl _ _
  · split
    · exact Same.refl _ _
    · extract_lets -merge +onlyGivenNames x0
      have h0 : Same [.fns, .models, .seqs, .treeOps, .sync, .um, .swapQueue, .out, .held] s x0 := by
        exact Same.mono State.finishReq_same (by decide)
      try clear_value x0
      extract_lets -merge +onlyGivenNames x1
      have h1 : Same [.fns, .models, .seqs, .treeOps, .sync, .um, .swapQueue, .out, .held] s x1 := by
        refine Same.andThen State.modSeq_same (by decide) ?_
        exact h0
      try clear_value x1
      extract_lets -merge +onlyGivenNames x2
      have h2 : Same [.fns, .models, .seqs, .treeOps, .sync, .um, .swapQueue, .out, .held] s x2 := by
        refine Same.andThen State.leaveQueue_same (by decide) ?_
        refine Same.andThen State.endEntitlement_same (by decide) ?_
        refine Same.andThen State.giveBackAll_same (by decide) ?_
        exact h1
      try clear_value x2
      refine Same.foldl (fun y3 a3 => ?_) ?_
      · refine Same.andThen State.finishReq_same (by decide) ?_
        exact Same.mono State.endSeq_same (by decide)
      · exact h2

theorem State.swapOutDone_same {s} {h} : Same [.fns, .models, .seqs, .out, .held] s (State.swapOutDone s h) := by
  unfold State.swapOutDone
  split
  · exact Same.refl _ _
  · split
    · exact Same.refl _ _
    · extract_lets -merge +onlyGivenNames x0
      have h0 : Same [.fns, .models, .seqs, .out, .held] s x0 := by
        refine Same.andThen State.modSeq_same (by decide) ?_
        exact Same.mono State.finishReq_same (by decide)
      try clear_value x0
      refine Same.andThen State.endEntitlement_same (by decide) ?_
      exact h0

theorem State.settleSwap_same {s} {q} {w} {r} : Same [.fns, .models, .seqs, .treeOps, .sync, .um, .swapQueue, .out, .held] s (State.settleSwap s q w r) := by
  unfold State.settleSwap
  split
  · exact Same.refl _ _
  · refine Same.ite ?_ ?_
    · exact Same.mono State.stopSwap_same (by decide)
    · exact Same.mono State.failBack_same (by decide)
  · refine Same.ite ?_ ?_
    · exact Same.refl _ _
    · refine Same.ite ?_ ?_
      · exact Same.mono State.swapOutDone_same (by decide)
      · exact Same.mono State.backDone_same (by decide)

theorem State.settleSwaps_same {s} {m} {peers} : Same [.fns, .models, .seqs, .treeOps, .sync, .um, .swapQueue, .out, .held] s (State.settleSwaps s m peers) := by
  unfold State.settleSwaps
  refine Same.foldl (fun y0 a0 => ?_) ?_
  · split
    · refine Same.ite ?_ ?_
      · exact Same.mono State.settleSwap_same (by decide)
      · exact Same.refl _ _
    · exact Same.refl _ _
  · exact Same.refl _ _

theorem State.growGuard_same {s} {m} {f} : SomeSame1 [.models, .treeOps] s (State.growGuard s m f) := by
  unfold State.growGuard
  refine SomeSame1.mapSnd (fun y0 => ?_) ?_
  · refine Same.andThen State.modPool_same (by decide) ?_
    exact Same.refl _ _
  · refine SomeSame.andThen State.takeFrame_same (by decide) ?_
    exact Same.refl _ _

theorem State.hearAdmit_same {s} {h} {m} {full} {relay} {p} : Same [.fns, .models, .seqs, .treeOps, .out] s (State.hearAdmit s h m full relay p) := by
  unfold State.hearAdmit
  refine Same.ite ?_ ?_
  · exact Same.refl _ _
  · split
    · refine Same.andThen State.pageLow_same (by decide) ?_
      refine Same.upd ?_ (fun p hp => by cases p <;> first | exact absurd (by decide) hp | exact rfl)
      refine SomeSame1.of (by assumption) ?_
      refine SomeSame1.andThen State.growGuard_same (by decide) ?_
      exact Same.refl _ _
    · exact Same.refl _ _

theorem State.takeFrames_same {s} {m} {f} {slot} {y4} : SomeSame [.models, .treeOps] s (State.takeFrames s m f slot y4) := by
  induction y4 generalizing s with
  | nil => exact SomeSame.some (Same.refl _ _)
  | cons j r ih =>
    unfold State.takeFrames
    refine SomeSame.ite SomeSame.none ?_
    split
    · exact SomeSame.none
    · rename_i x t heq
      exact SomeSame.map (fun _ => Same.refl _ _) (ih.andThen (by decide) (State.takeFrame_same _ heq |>.mono (by decide)))

theorem State.takeImport_same {s} {q} {e} {positions} : SomeSame1 [.models, .seqs, .treeOps] s (State.takeImport s q e positions) := by
  unfold State.takeImport
  extract_lets -merge +onlyGivenNames x0
  extract_lets -merge +onlyGivenNames x1
  refine SomeSame1.ite ?_ ?_
  · exact SomeSame1.none
  · refine SomeSame1.mapSnd (fun y2 => ?_) ?_
    · refine Same.andThen State.modSeq_same (by decide) ?_
      exact Same.refl _ _
    · refine SomeSame.andThen State.takeFrames_same (by decide) ?_
      exact Same.refl _ _

theorem State.enterResuming_same {s} {q} {e} {opcode} {buf} {frames} : Same [.seqs, .swapQueue] s (State.enterResuming s q e opcode buf frames) := by
  unfold State.enterResuming
  extract_lets -merge +onlyGivenNames x0
  have h0 : Same [.seqs, .swapQueue] s x0 := by
    exact Same.mono State.modSeq_same (by decide)
  try clear_value x0
  refine Same.upd ?_ (fun p hp => by cases p <;> first | exact absurd (by decide) hp | exact rfl)
  exact h0

theorem State.takeBack_same {s} {q} : SomeSame [.models, .seqs, .treeOps] s (State.takeBack s q) := by
  unfold State.takeBack
  split
  · exact SomeSame.none
  · extract_lets -merge +onlyGivenNames x0
    have h0 : Same [.models, .seqs, .treeOps] s x0 := by
      refine Same.andThen State.modSeq_same (by decide) ?_
      refine SomeSame1.of (by assumption) ?_
      refine SomeSame1.andThen State.growGuard_same (by decide) ?_
      exact Same.refl _ _
    try clear_value x0
    refine SomeSame.andThen State.takeFrames_same (by decide) ?_
    exact h0

theorem State.extendSeq_same {s} {q} {e} {ts} {buf} : SomeSame1 [.models, .seqs, .treeOps, .swapQueue] s (State.extendSeq s q e ts buf) := by
  unfold State.extendSeq
  refine SomeSame1.ite ?_ ?_
  · refine SomeSame1.map (fun y0 => ?_) ?_
    · exact Same.mono State.modSeq_same (by decide)
    · refine SomeSame1.andThen State.growGuard_same (by decide) ?_
      exact Same.refl _ _
  · refine SomeSame1.mapSnd (fun y1 => ?_) ?_
    · refine Same.andThen State.modSeq_same (by decide) ?_
      refine Same.andThen State.enterResuming_same (by decide) ?_
      exact Same.refl _ _
    · refine SomeSame.andThen State.takeBack_same (by decide) ?_
      exact Same.refl _ _

theorem State.hearPreempt_same {s} {h} {buf} : Same [.fns, .models, .seqs, .treeOps, .sync, .um, .swapQueue, .out, .held] s (State.hearPreempt s h buf) := by
  unfold State.hearPreempt
  exact Same.mono State.enterPreempting_same (by decide)

theorem State.hearResume_same {s} {q} {buf} : Same [.fns, .models, .seqs, .treeOps, .swapQueue, .out] s (State.hearResume s q buf) := by
  unfold State.hearResume
  split
  · refine Same.andThen State.pageLow_same (by decide) ?_
    refine Same.andThen State.enterResuming_same (by decide) ?_
    refine SomeSame.of (by assumption) ?_
    refine SomeSame.andThen State.takeBack_same (by decide) ?_
    exact Same.refl _ _
  · exact Same.refl _ _

theorem State.hearEnd_same {s} {q} : Same [.fns, .models, .seqs, .treeOps, .sync, .um, .swapQueue, .out, .held] s (State.hearEnd s q) := by
  unfold State.hearEnd
  refine Same.ite ?_ ?_
  · exact Same.refl _ _
  · refine Same.ite ?_ ?_
    · exact Same.mono State.stopSwap_same (by decide)
    · exact Same.mono State.endSeq_same (by decide)

theorem State.hear_same {s} {h} {q} {n} : Same ([.fns, .models, .seqs, .reuse, .treeOps, .sync, .ports, .inbox, .msgId, .undelivered] ++ [.um, .swapQueue, .out, .held]) s (State.hear s h q n) := by
  unfold State.hear
  split
  · exact Same.refl _ _
  · exact Same.mono State.modSeq_same (by decide)
  · refine SomeSame1.getD ?_ ?_
    · refine SomeSame1.andThen State.takeImport_same (by decide) ?_
      exact Same.refl _ _
    · exact Same.refl _ _
  · exact Same.mono State.acceptChunk_same (by decide)
  · refine SomeSame1.getD ?_ ?_
    · refine SomeSame1.andThen State.extendSeq_same (by decide) ?_
      exact Same.refl _ _
    · exact Same.refl _ _
  · exact Same.mono State.modSeq_same (by decide)
  · exact Same.mono State.modSeq_same (by decide)
  · exact Same.mono State.hearPreempt_same (by decide)
  · exact Same.mono State.swapOutDone_same (by decide)
  · exact Same.mono State.hearResume_same (by decide)
  · split
    · exact Same.mono State.backDone_same (by decide)
    · exact Same.refl _ _
  · exact Same.mono State.failBack_same (by decide)
  · exact Same.mono State.hearEnd_same (by decide)
  · exact Same.mono State.freeSeq_same (by decide)
  · exact Same.mono State.beginSpill_same (by decide)

theorem State.notice_same {s} {x} : Same ([.fns, .models, .seqs, .reuse, .treeOps, .sync, .ports, .inbox, .msgId, .undelivered] ++ [.um, .swapQueue, .out, .held]) s (State.notice s x) := by
  unfold State.notice
  split
  · exact Same.refl _ _
  · split
    · exact Same.mono State.hearAdmit_same (by decide)
    · exact Same.refl _ _
    · exact Same.mono State.hear_same (by decide)

theorem State.notices_same {s} {m} {l} : Same ([.fns, .models, .seqs, .reuse, .treeOps, .sync, .ports, .inbox, .msgId, .undelivered] ++ [.um, .swapQueue, .out, .held]) s (State.notices s m l) := by
  unfold State.notices
  refine Same.foldl (fun y0 a0 => ?_) ?_
  · exact Same.mono State.notice_same (by decide)
  · exact Same.refl _ _

theorem State.layerBoundary_same {s} {m} {c} : Same [.tiles] s (State.layerBoundary s m c) := by
  unfold State.layerBoundary
  refine Same.upd ?_ (fun p hp => by cases p <;> first | exact absurd (by decide) hp | exact rfl)
  exact Same.refl _ _

theorem State.takeOffers_same {s} {m} {peers} : Same [.seqs] s (State.takeOffers s m peers) := by
  unfold State.takeOffers
  refine Same.foldl (fun y0 a0 => ?_) ?_
  · refine Same.ite ?_ ?_
    · exact Same.refl _ _
    · exact Same.mono State.modSeq_same (by decide)
  · exact Same.refl _ _

theorem State.finishDisabled_same {s} : Same ([.fns, .models, .seqs, .reuse, .treeOps, .sync, .spans, .um, .swapQueue, .out] ++ [.held]) s (State.finishDisabled s) := by
  unfold State.finishDisabled
  refine Same.foldl (fun y0 a0 => ?_) ?_
  · exact Same.mono State.tryFinish_same (by decide)
  · exact Same.refl _ _

theorem State.closeCohort_same {s} {m} {c} : Same [.cohorts] s (State.closeCohort s m c) := by
  unfold State.closeCohort
  refine Same.upd ?_ (fun p hp => by cases p <;> first | exact absurd (by decide) hp | exact rfl)
  exact Same.refl _ _

theorem State.control_same {s} {slice} {members} {tenant} {typ} {dest} {data} : Same [.ports, .inbox, .msgId, .undelivered] s (State.control s slice members tenant typ dest data) := by
  unfold State.control
  extract_lets -merge +onlyGivenNames x0
  extract_lets -merge +onlyGivenNames x1
  extract_lets -merge +onlyGivenNames x2
  have h2 : Same [.ports, .inbox, .msgId, .undelivered] s x2 := by
    exact Same.mono State.sendAll_same (by decide)
  try clear_value x2
  refine Same.upd ?_ (fun p hp => by cases p <;> first | exact absurd (by decide) hp | exact rfl)
  exact h2

theorem State.sendRecord_same {s} {k} : Same [.treeOps, .ports, .inbox, .msgId, .undelivered] s (State.sendRecord s k) := by
  unfold State.sendRecord
  extract_lets -merge +onlyGivenNames x0
  extract_lets -merge +onlyGivenNames x1
  have h1 : Same [.treeOps, .ports, .inbox, .msgId, .undelivered] s x1 := by
    refine Same.upd ?_ (fun p hp => by cases p <;> first | exact absurd (by decide) hp | exact rfl)
    exact Same.refl _ _
  try clear_value x1
  split
  · refine Same.foldl (fun y2 a2 => ?_) ?_
    · exact Same.mono State.control_same (by decide)
    · exact h1
  · exact h1

theorem State.enterStep_same {s} {m} {c} {step} : Same [.sync] s (State.enterStep s m c step) := by
  unfold State.enterStep
  extract_lets -merge +onlyGivenNames x0
  extract_lets -merge +onlyGivenNames x1
  exact Same.mono State.modSync_same (by decide)

theorem State.putCohort_same {s} {k} : Same [.tiles, .cohorts, .stepCount, .cands, .sampled, .sync] s (State.putCohort s k) := by
  unfold State.putCohort
  extract_lets -merge +onlyGivenNames x0
  have h0 : Same [.tiles, .cohorts, .stepCount, .cands, .sampled, .sync] s x0 := by
    exact Same.mono State.enterStep_same (by decide)
  try clear_value x0
  extract_lets -merge +onlyGivenNames x1
  refine Same.upd ?_ (fun p hp => by cases p <;> first | exact absurd (by decide) hp | exact rfl)
  exact h0

theorem Build.place_s {b : Build} {r : Row} : (b.place r).s = b.s := by
  unfold Build.place
  split <;> rfl

theorem Build.decode_same {b : Build} {m : SlotIx} {h : Key} : Same [.fns, .models, .seqs, .treeOps, .specSource] b.s (b.decode m h).s := by
  unfold Build.decode
  split
  · split
    · exact State.emitStall_same.mono (by decide)
    · extract_lets -merge +onlyGivenNames p r
      have hr : Same [.fns, .models, .seqs, .treeOps, .specSource] b.s r.2 := State.ensure_same.mono (by decide)
      clear_value r
      split
      · exact Same.refl _ _
      · exact State.modSeq_same.andThen (by decide) (State.takeSlots_same.andThen (by decide) hr)
  · exact Same.refl _ _

theorem Build.stall_same {b : Build} {h : Key} : Same [.fns, .models, .seqs, .treeOps, .specSource] b.s (b.stall h).s := by
  unfold Build.stall
  split
  · exact Same.refl _ _
  · exact State.emitStall_same.mono (by decide)

theorem Build.foldPlace_s {α : Type} {g : Build → α → Row} {l : List α} {b : Build} :
    (l.foldl (fun (b : Build) y => b.place (g b y)) b).s = b.s := by
  induction l generalizing b with
  | nil => rfl
  | cons a r ih => exact ih.trans Build.place_s

theorem Same.ofEq {l : List Piece} {s t u : State} (h : u = t) (g : Same l s t) : Same l s u := h ▸ g

theorem Build.ingest_same {b : Build} {m : SlotIx} {h : Key} {n : Nat} : Same [.fns, .models, .seqs, .treeOps, .specSource] b.s (b.ingest m h n).1.s := by
  unfold Build.ingest
  split
  · exact Same.refl _ _
  · extract_lets -merge +onlyGivenNames ts n' ends short n2
    split
    · dsimp only
      split
      · exact Build.stall_same
      · exact Same.refl _ _
    · extract_lets -merge +onlyGivenNames s p r n3
      have hr : Same [.fns, .models, .seqs, .treeOps, .specSource] b.s r.2 := State.ingestPages_same.mono (by decide)
      split
      · exact Same.refl _ _
      · refine Same.ofEq Build.foldPlace_s ?_
        refine State.modSeq_same.andThen (by decide) (Same.ite ?_ hr)
        exact State.takeSlots_same.andThen (by decide) hr

theorem Build.ingestAll_same {b : Build} {m : SlotIx} {c : CohIx} {n : Nat} : Same [.fns, .models, .seqs, .treeOps, .specSource] b.s (b.ingestAll m c n).s := by
  unfold Build.ingestAll
  extract_lets -merge +onlyGivenNames qs
  clear_value qs
  have one : ∀ (l : List Seq) (x : Build × Nat), Same [.fns, .models, .seqs, .treeOps, .specSource] b.s x.1.s →
      Same [.fns, .models, .seqs, .treeOps, .specSource] b.s (l.foldl (fun (x : Build × Nat) q => let y := x.1.ingest m q.handle x.2; (y.1, x.2 - y.2)) x).1.s := by
    intro l
    induction l with
    | nil => exact fun _ h => h
    | cons a r ih => exact fun x h => ih _ (Build.ingest_same.andThen (by decide) h)
  exact one _ _ (Same.refl _ _)

theorem Build.draft_same {b : Build} {m : SlotIx} {peers : List (Key × PeerReport)} {x : Key × Fin 32} :
    Same [.fns, .models, .seqs, .treeOps, .specSource] b.s (b.draft m peers x).s := by
  unfold Build.draft
  split
  · exact Same.refl _ _
  · split
    · exact Same.refl _ _
    · extract_lets -merge +onlyGivenNames p most n depth t1 far here need r
      have hr : Same [.fns, .models, .seqs, .treeOps, .specSource] b.s r.2 := Same.iteSnd (Same.iteSnd (State.ensure_same.mono (by decide)) (Same.refl _ _)) (Same.refl _ _)
      clear_value r
      refine Same.ofEq Build.foldPlace_s ?_
      exact State.countTrims_same.andThen (by decide) (State.modSeq_same.andThen (by decide) (State.takeSlots_same.andThen (by decide)
        (Same.ite hr (Same.refl _ _))))

theorem State.fillRows_same {s : State} {m : SlotIx} {c : CohIx} {free : List (Fin 32)} {peers : List (Key × PeerReport)} :
    Same [.fns, .models, .seqs, .treeOps, .specSource] s (s.fillRows m c free peers).s := by
  have fold {α : Type} {f : Build → α → Build} (hf : ∀ b a, Same [.fns, .models, .seqs, .treeOps, .specSource] b.s (f b a).s) (l : List α) :
      ∀ b : Build, Same [.fns, .models, .seqs, .treeOps, .specSource] s b.s → Same [.fns, .models, .seqs, .treeOps, .specSource] s (l.foldl f b).s := by
    induction l with
    | nil => exact fun _ h => h
    | cons a r ih => exact fun b h => ih _ ((hf b a).andThen (by decide) h)
  unfold State.fillRows
  extract_lets -merge +onlyGivenNames b dec b1 waiting b2 b3
  have h1 : Same [.fns, .models, .seqs, .treeOps, .specSource] s b1.s := fold (fun _ _ => Build.decode_same) _ _ (Same.refl _ _)
  clear_value b1
  have h2 : Same [.fns, .models, .seqs, .treeOps, .specSource] s b2.s := Build.ingestAll_same.andThen (by decide) h1
  clear_value b2
  have h3 : Same [.fns, .models, .seqs, .treeOps, .specSource] s b3.s := fold (fun _ _ => Build.draft_same) _ _ h2
  clear_value b3
  exact Build.ingestAll_same.andThen (by decide) h3

theorem State.formCohort_same {s} {m} {c} {blocked} {peers} : Same ([.fns, .tiles, .models, .seqs, .cohorts, .treeOps, .stepCount, .cands, .sampled, .sync] ++ [.ports, .inbox, .msgId, .undelivered, .specSource]) s (State.formCohort s m c blocked peers) := by
  unfold State.formCohort
  extract_lets -merge +onlyGivenNames b
  have h : Same ([.fns, .tiles, .models, .seqs, .cohorts, .treeOps, .stepCount, .cands, .sampled, .sync] ++ [.ports, .inbox, .msgId, .undelivered, .specSource]) s b.s := State.fillRows_same.mono (by decide)
  clear_value b
  extract_lets -merge +onlyGivenNames mask
  clear_value mask
  refine Same.ite ?_ ?_
  · exact State.closeCohort_same.andThen (by decide) h
  · exact State.sendRecord_same.andThen (by decide) (State.putCohort_same.andThen (by decide) h)

theorem State.rowPages_same {s} {k} {h} : Same [.models, .seqs, .treeOps] s (State.rowPages s k h) := by
  unfold State.rowPages
  extract_lets -merge +onlyGivenNames at' span
  have h : ∀ t ps d, Same [.models, .seqs, .treeOps] t (span t ps d) := fun t ps d => Same.ite (Same.refl _ _) (State.ensure_same.mono (by decide))
  clear_value span at'
  exact (h _ _ _).andThen (fun _ q => q) (h _ _ _)

theorem State.enterRows_same {s} {k} {h} : Same [.seqs] s (State.enterRows s k h) := by
  unfold State.enterRows
  extract_lets -merge +onlyGivenNames x0
  extract_lets -merge +onlyGivenNames x1
  exact Same.mono State.modSeq_same (by decide)

theorem State.memberRows_same {s} {k} {h} : Same [.fns, .models, .seqs, .cohorts, .treeOps, .specSource] s (State.memberRows s k h) := by
  unfold State.memberRows
  split
  · exact Same.refl _ _
  · extract_lets -merge +onlyGivenNames x0
    extract_lets -merge +onlyGivenNames x1
    extract_lets -merge +onlyGivenNames x2
    have h2 : Same [.fns, .models, .seqs, .cohorts, .treeOps, .specSource] s x2 := by
      refine Same.ite ?_ ?_
      · exact Same.refl _ _
      · exact Same.mono State.modCohort_same (by decide)
    try clear_value x2
    refine Same.ite ?_ ?_
    · refine Same.andThen State.emitStall_same (by decide) ?_
      exact h2
    · extract_lets -merge +onlyGivenNames x3
      have h3 : Same [.fns, .models, .seqs, .cohorts, .treeOps, .specSource] s x3 := by
        refine Same.andThen State.rowPages_same (by decide) ?_
        exact h2
      try clear_value x3
      extract_lets -merge +onlyGivenNames x4
      have h4 : Same [.fns, .models, .seqs, .cohorts, .treeOps, .specSource] s x4 := by
        refine Same.ite ?_ ?_
        · refine Same.andThen State.takeSlots_same (by decide) ?_
          exact h3
        · exact h3
      try clear_value x4
      extract_lets -merge +onlyGivenNames x5
      have h5 : Same [.fns, .models, .seqs, .cohorts, .treeOps, .specSource] s x5 := by
        refine Same.andThen State.countTrims_same (by decide) ?_
        exact h4
      try clear_value x5
      refine Same.andThen State.enterRows_same (by decide) ?_
      exact h5

theorem State.startRecord_same {s} {k} : Same ([.fns, .tiles, .models, .seqs, .cohorts, .treeOps, .stepCount, .cands, .sampled, .sync] ++ [.specSource, .out]) s (State.startRecord s k) := by
  unfold State.startRecord
  extract_lets -merge +onlyGivenNames x0
  extract_lets -merge +onlyGivenNames x1
  extract_lets -merge +onlyGivenNames x2
  have h2 : Same ([.fns, .tiles, .models, .seqs, .cohorts, .treeOps, .stepCount, .cands, .sampled, .sync] ++ [.specSource, .out]) s x2 := by
    exact Same.mono State.putCohort_same (by decide)
  try clear_value x2
  extract_lets -merge +onlyGivenNames x3
  have h3 : Same ([.fns, .tiles, .models, .seqs, .cohorts, .treeOps, .stepCount, .cands, .sampled, .sync] ++ [.specSource, .out]) s x3 := by
    refine Same.foldl (fun y4 a4 => ?_) ?_
    · exact Same.mono State.memberRows_same (by decide)
    · exact h2
  try clear_value x3
  refine Same.andThen State.pageLow_same (by decide) ?_
  refine Same.foldl (fun y5 a5 => ?_) ?_
  · exact Same.mono State.emitStall_same (by decide)
  · exact h3

theorem State.startWaiting_same {s} {m} {c} : Same ([.fns, .tiles, .models, .seqs, .cohorts, .nextCohorts, .treeOps, .stepCount, .cands, .sampled] ++ [.sync, .specSource, .out]) s (State.startWaiting s m c) := by
  unfold State.startWaiting
  split
  · refine Same.andThen State.startRecord_same (by decide) ?_
    refine Same.upd ?_ (fun p hp => by cases p <;> first | exact absurd (by decide) hp | exact rfl)
    exact Same.refl _ _
  · exact Same.refl _ _

theorem State.boundary_same {s} {m} {c} {blocked} {peers} {news} : Same ([.fns, .tiles, .models, .seqs, .reuse, .cohorts, .nextCohorts, .treeOps, .stepCount, .cands] ++ [.sampled, .sync, .ports, .inbox, .spans, .msgId, .undelivered, .um, .relayStat, .swapQueue] ++ [.specSource, .out, .held]) s (State.boundary s m c blocked peers news) := by
  unfold State.boundary
  extract_lets -merge +onlyGivenNames x0
  have h0 : Same ([.fns, .tiles, .models, .seqs, .reuse, .cohorts, .nextCohorts, .treeOps, .stepCount, .cands] ++ [.sampled, .sync, .ports, .inbox, .spans, .msgId, .undelivered, .um, .relayStat, .swapQueue] ++ [.specSource, .out, .held]) s x0 := by
    refine Same.andThen State.endListBad_same (by decide) ?_
    refine Same.andThen State.settleSwaps_same (by decide) ?_
    exact Same.mono State.notices_same (by decide)
  try clear_value x0
  extract_lets -merge +onlyGivenNames x1
  have h1 : Same ([.fns, .tiles, .models, .seqs, .reuse, .cohorts, .nextCohorts, .treeOps, .stepCount, .cands] ++ [.sampled, .sync, .ports, .inbox, .spans, .msgId, .undelivered, .um, .relayStat, .swapQueue] ++ [.specSource, .out, .held]) s x1 := by
    refine Same.andThen State.layerBoundary_same (by decide) ?_
    refine Same.andThen State.takeOffers_same (by decide) ?_
    refine Same.andThen State.allocate_same (by decide) ?_
    refine Same.andThen State.finishDisabled_same (by decide) ?_
    exact h0
  try clear_value x1
  refine Same.ite ?_ ?_
  · refine Same.andThen State.pageLow_same (by decide) ?_
    refine Same.ite ?_ ?_
    · exact h1
    · refine Same.andThen State.formCohort_same (by decide) ?_
      exact h1
  · refine Same.andThen State.startWaiting_same (by decide) ?_
    exact h1

theorem State.bringupFails_same {s} {code} {arg} : Same [.boot] s (State.bringupFails s code arg) := by
  unfold State.bringupFails
  exact Same.mono (State.modBoot_same (fun _ => by first | rfl | simp | (split <;> rfl) | (dsimp only; split <;> rfl) | (dsimp only; (repeat' split) <;> rfl))) (by decide)

theorem State.cancelSwap_same {s} {q} {e} : Same [.fns, .models, .seqs, .treeOps, .sync, .um, .swapQueue, .out, .held] s (State.cancelSwap s q e) := by
  unfold State.cancelSwap
  extract_lets -merge +onlyGivenNames x0
  extract_lets -merge +onlyGivenNames x1
  have h1 : Same [.fns, .models, .seqs, .treeOps, .sync, .um, .swapQueue, .out, .held] s x1 := by
    exact Same.mono State.modSeq_same (by decide)
  try clear_value x1
  refine Same.ite ?_ ?_
  · exact h1
  · refine Same.andThen State.stopSwap_same (by decide) ?_
    exact h1

theorem State.refuseEntry_same {s} {o} {status} {detail} : Same [.fns, .out, .held] s (State.refuseEntry s o status detail) := by
  unfold State.refuseEntry
  extract_lets -merge +onlyGivenNames x0
  exact Same.mono State.completeFull_same (by decide)

theorem State.logHostRead_same {s} {f} {m} : Same [.boot] s (State.logHostRead s f m) := by
  unfold State.logHostRead
  exact Same.mono State.logError_same (by decide)

theorem State.sealPassed_same {s} {fn} : Same [.um] s (State.sealPassed s fn) := by
  unfold State.sealPassed
  exact Same.mono (State.modUm_same (fun _ => by first | rfl | simp | (split <;> rfl) | (dsimp only; split <;> rfl) | (dsimp only; (repeat' split) <;> rfl))) (by decide)

theorem State.sealFailed_same {s} {fn} : Same [.fns] s (State.sealFailed s fn) := by
  unfold State.sealFailed
  exact Same.mono State.modFn_same (by decide)

theorem State.checkSeal_same {s} {e} {op} {f} : Same [.fns, .um] s (State.checkSeal s e op f).2 := by
  unfold State.checkSeal
  extract_lets -merge +onlyGivenNames x0
  extract_lets -merge +onlyGivenNames x1
  refine Same.iteSnd ?_ ?_
  · refine Same.pairSnd ?_
    exact Same.refl _ _
  · refine Same.iteSnd ?_ ?_
    · refine Same.pairSnd ?_
      exact Same.refl _ _
    · refine Same.iteSnd ?_ ?_
      · refine Same.pairSnd ?_
        exact Same.refl _ _
      · refine Same.iteSnd ?_ ?_
        · refine Same.pairSnd ?_
          exact Same.refl _ _
        · refine Same.iteSnd ?_ ?_
          · refine Same.pairSnd ?_
            exact Same.mono State.sealPassed_same (by decide)
          · refine Same.pairSnd ?_
            exact Same.mono State.sealFailed_same (by decide)

theorem State.checkEntry_same {s} {o} {f} : Same [.fns, .um, .boot, .out, .held] s (State.checkEntry s o f) := by
  unfold State.checkEntry
  extract_lets -merge +onlyGivenNames x0
  split
  · exact Same.mono State.refuseEntry_same (by decide)
  · refine Same.ite ?_ ?_
    · refine Same.andThen State.refuseEntry_same (by decide) ?_
      exact Same.mono State.logHostRead_same (by decide)
    · extract_lets -merge +onlyGivenNames x1
      have h1 : Same [.fns, .um, .boot, .out, .held] s x1.2 := by
        exact Same.mono State.checkSeal_same (by decide)
      try clear_value x1
      split
      · refine Same.andThen State.refuseEntry_same (by decide) ?_
        exact h1
      · refine Same.ite ?_ ?_
        · refine Same.andThen State.refuseEntry_same (by decide) ?_
          exact h1
        · exact h1

theorem State.checkPreempt_same {s} {h} : Same [.fns, .seqs, .um, .swapQueue, .out, .held] s (State.checkPreempt s h) := by
  unfold State.checkPreempt
  split
  · exact Same.refl _ _
  · split
    · refine Same.ite ?_ ?_
      · exact Same.refl _ _
      · refine Same.andThen State.modSeq_same (by decide) ?_
        refine Same.andThen State.finishReq_same (by decide) ?_
        exact Same.mono State.leaveQueue_same (by decide)
    · exact Same.refl _ _

theorem State.replayFrom_same {s} {p} {fs} : Same [.ports] s (State.replayFrom s p fs) := by
  unfold State.replayFrom
  exact Same.mono State.modPort_same (by decide)

theorem State.clearFields_same {s} {p} {h} : Same [.ports] s (State.clearFields s p h) := by
  unfold State.clearFields
  extract_lets -merge +onlyGivenNames x0
  extract_lets -merge +onlyGivenNames x1
  have h1 : Same [.ports] s x1 := by
    exact Same.mono State.modPort_same (by decide)
  try clear_value x1
  extract_lets -merge +onlyGivenNames x2
  have h2 : Same [.ports] s x2 := by
    refine Same.ite ?_ ?_
    · refine Same.andThen State.replayFrom_same (by decide) ?_
      exact h1
    · exact h1
  try clear_value x2
  refine Same.andThen State.pumpPort_same (by decide) ?_
  exact h2

theorem State.longsum_same {s} {t} {m} {layer} {acc} {prism} {n} {first} : Same [.fns, .tiles, .out] s (State.longsum s t m layer acc prism n first) := by
  unfold State.longsum
  refine Same.ite ?_ ?_
  · exact Same.refl _ _
  · extract_lets -merge +onlyGivenNames x0
    have h0 : Same [.fns, .tiles, .out] s x0 := by
      exact Same.mono State.modTile_same (by decide)
    try clear_value x0
    refine Same.ite ?_ ?_
    · refine Same.andThen State.event_same (by decide) ?_
      refine Same.andThen State.sticky_same (by decide) ?_
      exact h0
    · exact h0

theorem State.closeChunks_same {s} {t} : Same [.fns, .tiles, .out] s (State.closeChunks s t) := by
  unfold State.closeChunks
  extract_lets -merge +onlyGivenNames x0
  have h0 : Same [.fns, .tiles, .out] s x0.1 := by
    refine Same.foldlFst (fun y1 a1 => ?_) ?_
    · extract_lets -merge +onlyGivenNames x2
      refine Same.pairFst ?_
      refine Same.andThen State.accPut_same (by decide) ?_
      exact Same.refl _ _
    · refine Same.pairFst ?_
      exact Same.refl _ _
  try clear_value x0
  extract_lets -merge +onlyGivenNames x3
  try clear_value x3
  extract_lets -merge +onlyGivenNames x4
  have h4 : Same [.fns, .tiles, .out] s x4 := by
    refine Same.andThen State.modTile_same (by decide) ?_
    exact h0
  try clear_value x4
  split
  · refine Same.andThen State.longsum_same (by decide) ?_
    exact h4
  · exact h4

theorem State.cmprOp_same {s} {t} {f} : Same [.tiles] s (State.cmprOp s t f) := by
  unfold State.cmprOp
  extract_lets -merge +onlyGivenNames x0
  split
  · exact Same.mono State.vecNext_same (by decide)
  · refine Same.ite ?_ ?_
    · exact Same.mono State.vecNext_same (by decide)
    · extract_lets -merge +onlyGivenNames x1
      refine Same.andThen State.vecNext_same (by decide) ?_
      exact Same.mono State.writeLanes_same (by decide)

theorem State.completeReq_same {s} {e} {opcode} {status} {handle} {detail} : Same [.fns, .out, .held] s (State.completeReq s e opcode status handle detail) := by
  unfold State.completeReq
  exact Same.mono State.completeFull_same (by decide)

theorem State.consume_same {s} {t} {id} {n} : Same [.tiles] s (State.consume s t id n) := by
  unfold State.consume
  exact Same.mono State.modTile_same (by decide)

theorem State.modEcc_same {s} {x} {g} : Same [.tiles] s (State.modEcc s x g) := by
  unfold State.modEcc
  exact Same.mono State.modTile_same (by decide)

theorem State.corrected_same {s} {x} : Same [.fns, .tiles, .out] s (State.corrected s x) := by
  unfold State.corrected
  extract_lets -merge +onlyGivenNames x0
  have h0 : Same [.fns, .tiles, .out] s x0 := by
    exact Same.mono State.modEcc_same (by decide)
  try clear_value x0
  extract_lets -merge +onlyGivenNames x1
  extract_lets -merge +onlyGivenNames x2
  extract_lets -merge +onlyGivenNames x3
  extract_lets -merge +onlyGivenNames x4
  extract_lets -merge +onlyGivenNames x5
  have h5 : Same [.fns, .tiles, .out] s x5 := by
    refine Same.andThen State.modTile_same (by decide) ?_
    exact h0
  try clear_value x5
  refine Same.ite ?_ ?_
  · refine Same.andThen State.event_same (by decide) ?_
    exact h5
  · exact h5

theorem State.countNarrow_same {s} {t} {gs} : Same [.tiles] s (State.countNarrow s t gs) := by
  unfold State.countNarrow
  extract_lets -merge +onlyGivenNames x0
  extract_lets -merge +onlyGivenNames x1
  have h1 : Same [.tiles] s x1 := by
    exact Same.mono State.modTile_same (by decide)
  try clear_value x1
  refine Same.ite ?_ ?_
  · refine Same.andThen State.sticky_same (by decide) ?_
    exact h1
  · exact h1

theorem State.countPack_same {s} {k} {p} {x} {sels} {pages} : Same [.tiles, .seqs, .cohorts, .boot] s (State.countPack s k p x sels pages) := by
  unfold State.countPack
  extract_lets -merge +onlyGivenNames x0
  have h0 : Same [.tiles, .seqs, .cohorts, .boot] s x0 := by
    refine Same.foldl (fun y1 a1 => ?_) ?_
    · extract_lets -merge +onlyGivenNames x2
      extract_lets -merge +onlyGivenNames x3
      have h3 : Same [.tiles, .seqs, .cohorts, .boot] y1 x3 := by
        exact Same.mono State.modTile_same (by decide)
      try clear_value x3
      refine Same.andThen State.modCohort_same (by decide) ?_
      exact h3
    · exact Same.refl _ _
  try clear_value x0
  extract_lets -merge +onlyGivenNames x4
  have h4 : Same [.tiles, .seqs, .cohorts, .boot] s x4 := by
    refine Same.foldl (fun y5 a5 => ?_) ?_
    · extract_lets -merge +onlyGivenNames x6
      have h6 : Same [.tiles, .seqs, .cohorts, .boot] y5 x6 := by
        refine Same.foldl (fun y7 a7 => ?_) ?_
        · exact Same.mono State.modTile_same (by decide)
        · exact Same.refl _ _
      try clear_value x6
      refine Same.foldl (fun y8 a8 => ?_) ?_
      · exact Same.mono State.modTile_same (by decide)
      · exact h6
    · exact h0
  try clear_value x4
  split
  · refine Same.andThen State.logError_same (by decide) ?_
    refine Same.andThen State.addCause_same (by decide) ?_
    exact h4
  · exact h4

theorem State.scrPut_same {s} {t} {a} {b} : Same [.tiles] s (State.scrPut s t a b) := by
  unfold State.scrPut
  exact Same.mono State.modTile_same (by decide)

theorem State.writePacket_same {s} {m} {h} {d} {seen} : Same [.fns, .tiles, .out] s (State.writePacket s m h d seen).2 := by
  unfold State.writePacket
  extract_lets -merge +onlyGivenNames x0
  refine Same.iteSnd ?_ ?_
  · refine Same.pairSnd ?_
    exact Same.mono State.scrPut_same (by decide)
  · refine Same.iteSnd ?_ ?_
    · extract_lets -merge +onlyGivenNames x1
      refine Same.foldlSnd (fun y2 a2 => ?_) ?_
      · extract_lets -merge +onlyGivenNames x3
        have h3 : Same [.fns, .tiles, .out] y2.2 x3.2.2 := by
          refine Same.andThen State.decodeBlock_same (by decide) ?_
          exact Same.refl _ _
        try clear_value x3
        refine Same.pairSnd ?_
        refine Same.andThen State.scrPut_same (by decide) ?_
        exact h3
      · refine Same.pairSnd ?_
        exact Same.refl _ _
    · refine Same.pairSnd ?_
      exact Same.mono State.scrPut_same (by decide)

theorem State.modInbound_same {s} {h} {g} : Same [.inbound] s (State.modInbound s h g) := by
  unfold State.modInbound
  refine Same.ite ?_ ?_
  · refine Same.upd ?_ (fun p hp => by cases p <;> first | exact absurd (by decide) hp | exact rfl)
    exact Same.refl _ _
  · refine Same.upd ?_ (fun p hp => by cases p <;> first | exact absurd (by decide) hp | exact rfl)
    exact Same.refl _ _

theorem State.countPacket_same {s} {m} {k} : Same [.fns, .tiles, .inbound, .wideSeen, .out] s (State.countPacket s m k) := by
  unfold State.countPacket
  extract_lets -merge +onlyGivenNames x0
  extract_lets -merge +onlyGivenNames x1
  have h1 : Same [.fns, .tiles, .inbound, .wideSeen, .out] s x1.2 := by
    exact Same.mono State.writePacket_same (by decide)
  try clear_value x1
  extract_lets -merge +onlyGivenNames x2
  have h2 : Same [.fns, .tiles, .inbound, .wideSeen, .out] s x2 := by
    refine Same.andThen State.modInbound_same (by decide) ?_
    exact h1
  try clear_value x2
  extract_lets -merge +onlyGivenNames x3
  refine Same.upd ?_ (fun p hp => by cases p <;> first | exact absurd (by decide) hp | exact rfl)
  exact h2

theorem State.countStall_same {s} {m} {layer} : Same [.fns, .models, .out] s (State.countStall s m layer) := by
  unfold State.countStall
  extract_lets -merge +onlyGivenNames x0
  have h0 : Same [.fns, .models, .out] s x0 := by
    exact Same.mono State.modModel_same (by decide)
  try clear_value x0
  split
  · exact h0
  · extract_lets -merge +onlyGivenNames x1
    refine Same.ite ?_ ?_
    · extract_lets -merge +onlyGivenNames x2
      have h2 : Same [.fns, .models, .out] s x2 := by
        refine Same.andThen State.event_same (by decide) ?_
        exact h0
      try clear_value x2
      refine Same.andThen State.modLoad_same (by decide) ?_
      exact h2
    · refine Same.andThen State.modLoad_same (by decide) ?_
      exact h0

theorem State.countTransit_same {s} {id} {n} : Same [.transit] s (State.countTransit s id n) := by
  unfold State.countTransit
  extract_lets -merge +onlyGivenNames x0
  extract_lets -merge +onlyGivenNames x1
  extract_lets -merge +onlyGivenNames x2
  extract_lets -merge +onlyGivenNames x3
  refine Same.upd ?_ (fun p hp => by cases p <;> first | exact absurd (by decide) hp | exact rfl)
  exact Same.refl _ _

theorem State.cpopOp_same {s} {t} : Same [.tiles] s (State.cpopOp s t) := by
  unfold State.cpopOp
  refine Same.andThen State.vecNext_same (by decide) ?_
  exact Same.mono State.modVec_same (by decide)

theorem State.cpushOp_same {s} {t} {f} : Same [.tiles] s (State.cpushOp s t f) := by
  unfold State.cpushOp
  extract_lets -merge +onlyGivenNames x0
  refine Same.ite ?_ ?_
  · exact Same.mono State.vecNext_same (by decide)
  · extract_lets -merge +onlyGivenNames x1
    refine Same.andThen State.vecNext_same (by decide) ?_
    exact Same.mono State.modVec_same (by decide)

theorem State.dropCohort_same {s} {m} {c} {status} {detail} : Same ([.fns, .tiles, .models, .seqs, .cohorts, .treeOps, .sync, .um, .swapQueue, .out] ++ [.held]) s (State.dropCohort s m c status detail) := by
  unfold State.dropCohort
  split
  · exact Same.refl _ _
  · extract_lets -merge +onlyGivenNames x0
    extract_lets -merge +onlyGivenNames x1
    have h1 : Same ([.fns, .tiles, .models, .seqs, .cohorts, .treeOps, .sync, .um, .swapQueue, .out] ++ [.held]) s x1 := by
      refine Same.andThen State.modCohort_same (by decide) ?_
      exact Same.mono State.cutPass_same (by decide)
    try clear_value x1
    refine Same.foldl (fun y2 a2 => ?_) ?_
    · split
      · extract_lets -merge +onlyGivenNames x3
        refine Same.ite ?_ ?_
        · exact Same.refl _ _
        · refine Same.ite ?_ ?_
          · refine Same.andThen State.endSeq_same (by decide) ?_
            exact Same.mono State.rollBack_same (by decide)
          · exact Same.mono State.rollBack_same (by decide)
      · exact Same.refl _ _
    · exact h1

theorem State.cutCohorts_same {s} {ks} {status} {cls} {unit} {scope} {index} {layer} : Same ([.fns, .tiles, .models, .seqs, .cohorts, .treeOps, .sync, .um, .swapQueue, .boot] ++ [.out, .held]) s (State.cutCohorts s ks status cls unit scope index layer) := by
  unfold State.cutCohorts
  extract_lets -merge +onlyGivenNames x0
  try clear_value x0
  extract_lets -merge +onlyGivenNames x1
  have h1 : Same ([.fns, .tiles, .models, .seqs, .cohorts, .treeOps, .sync, .um, .swapQueue, .boot] ++ [.out, .held]) s x1 := by
    unfold x1
    split
    · exact Same.refl _ _
    · exact Same.mono State.logError_same (by decide)
  try clear_value x1
  refine Same.foldl (fun y2 a2 => ?_) ?_
  · exact Same.mono State.dropCohort_same (by decide)
  · exact h1

theorem State.cutCohort_same {s} {m} {c} {status} {detail} {cls} {unit} {scope} {index} {layer} : Same ([.fns, .tiles, .models, .seqs, .cohorts, .treeOps, .sync, .um, .swapQueue, .boot] ++ [.out, .held]) s (State.cutCohort s m c status detail cls unit scope index layer) := by
  unfold State.cutCohort
  exact Same.mono State.cutCohorts_same (by decide)

theorem State.cutFor_same {s} {xs} {port} : Same ([.fns, .tiles, .models, .seqs, .cohorts, .treeOps, .sync, .ports, .inbox, .msgId] ++ [.undelivered, .um, .swapQueue, .boot, .out, .held]) s (State.cutFor s xs port) := by
  unfold State.cutFor
  extract_lets -merge +onlyGivenNames x0
  have h0 : Same ([.fns, .tiles, .models, .seqs, .cohorts, .treeOps, .sync, .ports, .inbox, .msgId] ++ [.undelivered, .um, .swapQueue, .boot, .out, .held]) s x0 := by
    refine Same.foldl (fun y1 a1 => ?_) ?_
    · split
      · exact Same.mono State.control_same (by decide)
      · exact Same.refl _ _
    · exact Same.refl _ _
  try clear_value x0
  refine Same.andThen State.cutCohorts_same (by decide) ?_
  exact h0

theorem State.cutLost_same {s} : Same ([.fns, .tiles, .models, .seqs, .cohorts, .treeOps, .sync, .ports, .inbox, .msgId] ++ [.undelivered, .um, .swapQueue, .boot, .out, .held]) s (State.cutLost s) := by
  unfold State.cutLost
  refine Same.andThen State.cutFor_same (by decide) ?_
  refine Same.upd ?_ (fun p hp => by cases p <;> first | exact absurd (by decide) hp | exact rfl)
  exact Same.refl _ _

theorem State.cutSlice_same {s} {id} {fromMember} {port} : Same ([.fns, .tiles, .models, .seqs, .cohorts, .treeOps, .sync, .um, .swapQueue, .boot] ++ [.out, .held]) s (State.cutSlice s id fromMember port) := by
  unfold State.cutSlice
  exact Same.mono State.cutCohorts_same (by decide)

theorem State.dbErr_same {s} {f} : Same [.fns] s (State.dbErr s f) := by
  unfold State.dbErr
  exact Same.mono State.modFn_same (by decide)

theorem State.deliverRetry_same {s} {r} {st} {v} : Same [.sync] s (State.deliverRetry s r st v) := by
  unfold State.deliverRetry
  exact Same.mono State.modSync_same (by decide)

theorem State.derive_same {s} {p} : Same [.ports] s (State.derive s p) := by
  unfold State.derive
  exact Same.mono State.modPort_same (by decide)

theorem State.disableFor_same {s} {f} {o} : Same ([.fns, .tiles, .models, .seqs, .reuse, .cohorts, .nextCohorts, .treeOps, .cands, .sampled] ++ [.sync, .slices, .spans, .um, .flash, .swapQueue, .out, .held]) s (State.disableFor s f o) := by
  unfold State.disableFor
  refine Same.andThen State.beginDisable_same (by decide) ?_
  exact Same.mono State.modFn_same (by decide)

theorem State.linkFrame_same {s} {p} {nak} : Same [.ports] s (State.linkFrame s p nak) := by
  unfold State.linkFrame
  exact Same.mono State.modPort_same (by decide)

theorem State.setPort_same {s} {p} {state} {cause} : Same [.ports] s (State.setPort s p state cause) := by
  unfold State.setPort
  extract_lets -merge +onlyGivenNames x0
  exact Same.mono State.modPort_same (by decide)

theorem State.rerouteIdle_same {s} : Same [.slices] s (State.rerouteIdle s) := by
  unfold State.rerouteIdle
  refine Same.upd ?_ (fun p hp => by cases p <;> first | exact absurd (by decide) hp | exact rfl)
  exact Same.refl _ _

theorem State.missing_same {s} {p} {found} {cause} : Same [.fns, .ports, .out] s (State.missing s p found cause) := by
  unfold State.missing
  refine Same.ite ?_ ?_
  · exact Same.refl _ _
  · refine Same.andThen State.event_same (by decide) ?_
    exact Same.mono State.modPort_same (by decide)

theorem State.dropTraffic_same {s} {p} : Same ([.fns, .tiles, .models, .seqs, .cohorts, .treeOps, .sync, .ports, .inbox, .msgId] ++ [.undelivered, .um, .swapQueue, .boot, .out, .held]) s (State.dropTraffic s p) := by
  unfold State.dropTraffic
  extract_lets -merge +onlyGivenNames x0
  extract_lets -merge +onlyGivenNames x1
  extract_lets -merge +onlyGivenNames x2
  have h2 : Same ([.fns, .tiles, .models, .seqs, .cohorts, .treeOps, .sync, .ports, .inbox, .msgId] ++ [.undelivered, .um, .swapQueue, .boot, .out, .held]) s x2 := by
    exact Same.mono State.modPort_same (by decide)
  try clear_value x2
  refine Same.ite ?_ ?_
  · refine Same.andThen State.cutFor_same (by decide) ?_
    exact h2
  · exact h2

theorem State.portLost_same {s} {p} {cause} : Same ([.fns, .tiles, .models, .seqs, .cohorts, .treeOps, .sync, .ports, .slices, .inbox] ++ [.msgId, .undelivered, .um, .swapQueue, .boot, .out, .held]) s (State.portLost s p cause) := by
  unfold State.portLost
  extract_lets -merge +onlyGivenNames x0
  have h0 : Same ([.fns, .tiles, .models, .seqs, .cohorts, .treeOps, .sync, .ports, .slices, .inbox] ++ [.msgId, .undelivered, .um, .swapQueue, .boot, .out, .held]) s x0 := by
    refine Same.andThen State.modPort_same (by decide) ?_
    exact Same.mono State.setPort_same (by decide)
  try clear_value x0
  refine Same.andThen State.rerouteIdle_same (by decide) ?_
  refine Same.andThen State.missing_same (by decide) ?_
  refine Same.andThen State.dropTraffic_same (by decide) ?_
  exact h0

theorem State.startRetrain_same {s} {p} : Same ([.fns, .tiles, .models, .seqs, .cohorts, .treeOps, .sync, .ports, .slices, .inbox] ++ [.msgId, .undelivered, .um, .swapQueue, .boot, .out, .held]) s (State.startRetrain s p) := by
  unfold State.startRetrain
  extract_lets -merge +onlyGivenNames x0
  extract_lets -merge +onlyGivenNames x1
  refine Same.ite ?_ ?_
  · exact Same.mono State.portLost_same (by decide)
  · refine Same.andThen State.modPort_same (by decide) ?_
    exact Same.mono State.setPort_same (by decide)

theorem State.discard_same {s} {p} {failed} : Same ([.fns, .tiles, .models, .seqs, .cohorts, .treeOps, .sync, .ports, .slices, .inbox] ++ [.msgId, .undelivered, .um, .swapQueue, .boot, .out, .held]) s (State.discard s p failed) := by
  unfold State.discard
  extract_lets -merge +onlyGivenNames x0
  have h0 : Same ([.fns, .tiles, .models, .seqs, .cohorts, .treeOps, .sync, .ports, .slices, .inbox] ++ [.msgId, .undelivered, .um, .swapQueue, .boot, .out, .held]) s x0 := by
    refine Same.ite ?_ ?_
    · exact Same.refl _ _
    · refine Same.andThen State.modPort_same (by decide) ?_
      exact Same.mono State.linkFrame_same (by decide)
  try clear_value x0
  extract_lets -merge +onlyGivenNames x1
  have h1 : Same ([.fns, .tiles, .models, .seqs, .cohorts, .treeOps, .sync, .ports, .slices, .inbox] ++ [.msgId, .undelivered, .um, .swapQueue, .boot, .out, .held]) s x1 := by
    refine Same.ite ?_ ?_
    · refine Same.andThen State.modPort_same (by decide) ?_
      exact h0
    · exact h0
  try clear_value x1
  refine Same.ite ?_ ?_
  · refine Same.andThen State.startRetrain_same (by decide) ?_
    exact h1
  · exact h1

theorem State.discardMark_same {s} {m} {h} : Same [.fns, .tiles, .inbound, .heldWide, .wideSeen, .out] s (State.discardMark s m h) := by
  unfold State.discardMark
  extract_lets -merge +onlyGivenNames x0
  extract_lets -merge +onlyGivenNames x1
  have h1 : Same [.fns, .tiles, .inbound, .heldWide, .wideSeen, .out] s x1 := by
    refine Same.upd ?_ (fun p hp => by cases p <;> first | exact absurd (by decide) hp | exact rfl)
    exact Same.refl _ _
  try clear_value x1
  extract_lets -merge +onlyGivenNames x2
  have h2 : Same [.fns, .tiles, .inbound, .heldWide, .wideSeen, .out] s x2 := by
    refine Same.andThen State.modInbound_same (by decide) ?_
    exact h1
  try clear_value x2
  refine Same.foldl (fun y3 a3 => ?_) ?_
  · exact Same.mono State.countPacket_same (by decide)
  · exact h2

theorem State.discovered_same {s} {p} {d} : Same [.fns, .ports, .out] s (State.discovered s p d) := by
  unfold State.discovered
  extract_lets -merge +onlyGivenNames x0
  extract_lets -merge +onlyGivenNames x1
  have h1 : Same [.fns, .ports, .out] s x1 := by
    exact Same.mono State.modPort_same (by decide)
  try clear_value x1
  extract_lets -merge +onlyGivenNames x2
  refine Same.ite ?_ ?_
  · refine Same.andThen State.modPort_same (by decide) ?_
    refine Same.andThen State.setPort_same (by decide) ?_
    exact h1
  · extract_lets -merge +onlyGivenNames x3
    have h3 : Same [.fns, .ports, .out] s x3 := by
      refine Same.andThen State.setPort_same (by decide) ?_
      exact h1
    try clear_value x3
    extract_lets -merge +onlyGivenNames x4
    have h4 : Same [.fns, .ports, .out] s x4 := by
      refine Same.ite ?_ ?_
      · exact h3
      · refine Same.andThen State.event_same (by decide) ?_
        exact h3
    try clear_value x4
    refine Same.andThen State.missing_same (by decide) ?_
    exact h4

theorem State.doneFill_same {s} {w} {v} {unitHome} {engine} : Same [.sync] s (State.doneFill s w v unitHome engine) := by
  unfold State.doneFill
  extract_lets -merge +onlyGivenNames x0
  have h0 : Same [.sync] s x0.2 := by
    exact Same.mono State.applyFill_same (by decide)
  try clear_value x0
  refine Same.ite ?_ ?_
  · refine Same.andThen State.modSync_same (by decide) ?_
    exact h0
  · exact h0

theorem State.draw_same {s} : Same [.fresh] s (State.draw s).2 := by
  unfold State.draw
  refine Same.pairSnd ?_
  refine Same.upd ?_ (fun p hp => by cases p <;> first | exact absurd (by decide) hp | exact rfl)
  exact Same.refl _ _

theorem State.modMonitor_same {s} {m} {mon} {f} : Same [.models] s (State.modMonitor s m mon f) := by
  unfold State.modMonitor
  exact Same.mono State.modLoad_same (by decide)

theorem State.driftFail_same {s} {c} {layer} {mon} : Same [.fns, .tiles, .models, .out] s (State.driftFail s c layer mon) := by
  unfold State.driftFail
  extract_lets -merge +onlyGivenNames x0
  have h0 : Same [.fns, .tiles, .models, .out] s x0 := by
    exact Same.mono State.modTile_same (by decide)
  try clear_value x0
  split
  · exact h0
  · extract_lets -merge +onlyGivenNames x1
    extract_lets -merge +onlyGivenNames x2
    extract_lets -merge +onlyGivenNames x3
    have h3 : Same [.fns, .tiles, .models, .out] s x3 := by
      refine Same.andThen State.modMonitor_same (by decide) ?_
      exact h0
    try clear_value x3
    refine Same.ite ?_ ?_
    · refine Same.andThen State.event_same (by decide) ?_
      exact h3
    · exact h3

theorem State.dropFn_same {s} {f} {present} : Same ([.fns, .tiles, .models, .seqs, .reuse, .cohorts, .nextCohorts, .treeOps, .cands, .sampled] ++ [.sync, .slices, .spans, .um, .flash, .swapQueue, .out, .held]) s (State.dropFn s f present) := by
  unfold State.dropFn
  extract_lets -merge +onlyGivenNames x0
  have h0 : Same ([.fns, .tiles, .models, .seqs, .reuse, .cohorts, .nextCohorts, .treeOps, .cands, .sampled] ++ [.sync, .slices, .spans, .um, .flash, .swapQueue, .out, .held]) s x0 := by
    exact Same.mono State.modFn_same (by decide)
  try clear_value x0
  refine Same.ite ?_ ?_
  · refine Same.andThen State.beginDisable_same (by decide) ?_
    exact h0
  · exact h0

theorem State.dropRetry_same {s} {i} : Same [.sync] s (State.dropRetry s i) := by
  unfold State.dropRetry
  exact Same.mono State.modSync_same (by decide)

theorem State.dropSession_same {s} {id} : Same [.spdm] s (State.dropSession s id) := by
  unfold State.dropSession
  exact Same.mono State.modSpdm_same (by decide)

theorem State.putEmission_same {s} {f} {k} {rec} {reserved} : Same [.fns, .out, .held] s (State.putEmission s f k rec reserved) := by
  unfold State.putEmission
  extract_lets -merge +onlyGivenNames x0
  refine Same.ite ?_ ?_
  · extract_lets -merge +onlyGivenNames x1
    refine Same.andThen State.recordDone_same (by decide) ?_
    exact Same.mono State.post_same (by decide)
  · refine Same.upd ?_ (fun p hp => by cases p <;> first | exact absurd (by decide) hp | exact rfl)
    exact Same.refl _ _

theorem State.emitSeq_same {s} {k} {q} {p} : Same [.fns, .seqs, .out, .held] s (State.emitSeq s k q p).1 := by
  unfold State.emitSeq
  extract_lets -merge +onlyGivenNames x0
  extract_lets -merge +onlyGivenNames x1
  refine Same.foldlFst (fun y2 a2 => ?_) ?_
  · extract_lets -merge +onlyGivenNames x3
    extract_lets -merge +onlyGivenNames x4
    extract_lets -merge +onlyGivenNames x5
    have h5 : Same [.fns, .seqs, .out, .held] y2.1 x5 := by
      refine Same.andThen State.putEmission_same (by decide) ?_
      exact Same.refl _ _
    try clear_value x5
    refine Same.pairFst ?_
    refine Same.andThen State.modSeq_same (by decide) ?_
    exact h5
  · refine Same.pairFst ?_
    exact Same.refl _ _

theorem State.enableFn_same {s} {f} : Same [.fns, .sync] s (State.enableFn s f) := by
  unfold State.enableFn
  refine Same.andThen State.rebindOwner_same (by decide) ?_
  exact Same.mono State.modFn_same (by decide)

theorem State.encodeBlock_same {s} {t} {xs} : Same [.tiles] s (State.encodeBlock s t xs).2 := by
  unfold State.encodeBlock
  extract_lets -merge +onlyGivenNames x0
  extract_lets -merge +onlyGivenNames x1
  have h1 : Same [.tiles] s x1 := by
    unfold x1
    split
    · exact Same.mono State.modTile_same (by decide)
    · exact Same.refl _ _
  try clear_value x1
  refine Same.pairSnd ?_
  exact h1

theorem State.finishDesc_same {s} {c} {d} {engine} : Same [.tiles, .cohorts, .sync] s (State.finishDesc s c d engine) := by
  unfold State.finishDesc
  extract_lets -merge +onlyGivenNames x0
  extract_lets -merge +onlyGivenNames x1
  have h1 : Same [.tiles, .cohorts, .sync] s x1 := by
    exact Same.mono State.clearFront_same (by decide)
  try clear_value x1
  extract_lets -merge +onlyGivenNames x2
  have h2 : Same [.tiles, .cohorts, .sync] s x2 := by
    refine Same.andThen State.modCohort_same (by decide) ?_
    exact h1
  try clear_value x2
  refine Same.ite ?_ ?_
  · split
    · refine Same.andThen State.doneFill_same (by decide) ?_
      exact h2
    · exact h2
  · exact h2

theorem State.endDesc_same {s} {c} {d} {engine} : Same [.tiles, .models, .cohorts, .sync] s (State.endDesc s c d engine) := by
  unfold State.endDesc
  extract_lets -merge +onlyGivenNames x0
  extract_lets -merge +onlyGivenNames x1
  extract_lets -merge +onlyGivenNames x2
  have h2 : Same [.tiles, .models, .cohorts, .sync] s x2 := by
    exact Same.mono State.finishDesc_same (by decide)
  try clear_value x2
  refine Same.ite ?_ ?_
  · refine Same.andThen State.releaseWindow_same (by decide) ?_
    exact h2
  · exact h2

theorem State.gatherFlags_same {s} {t} : Same [.tiles] s (State.gatherFlags s t) := by
  unfold State.gatherFlags
  extract_lets -merge +onlyGivenNames x0
  extract_lets -merge +onlyGivenNames x1
  exact Same.mono State.modTile_same (by decide)

theorem State.endOp_same {s} {t} : Same [.tiles] s (State.endOp s t) := by
  unfold State.endOp
  extract_lets -merge +onlyGivenNames x0
  refine Same.ite ?_ ?_
  · exact Same.mono State.modVec_same (by decide)
  · refine Same.andThen State.modVec_same (by decide) ?_
    exact Same.mono State.gatherFlags_same (by decide)

theorem State.noteLanes_same {s} {p} {r} : Same [.ports] s (State.noteLanes s p r) := by
  unfold State.noteLanes
  exact Same.mono State.modPort_same (by decide)

theorem State.linkDegraded_same {s} {p} : Same [.fns, .out] s (State.linkDegraded s p) := by
  unfold State.linkDegraded
  extract_lets -merge +onlyGivenNames x0
  extract_lets -merge +onlyGivenNames x1
  refine Same.ite ?_ ?_
  · exact Same.mono State.event_same (by decide)
  · exact Same.refl _ _

theorem State.endRetrain_same {s} {p} {r} : Same ([.fns, .tiles, .models, .seqs, .cohorts, .treeOps, .sync, .ports, .slices, .inbox] ++ [.msgId, .undelivered, .um, .swapQueue, .boot, .out, .held]) s (State.endRetrain s p r) := by
  unfold State.endRetrain
  extract_lets -merge +onlyGivenNames x0
  have h0 : Same ([.fns, .tiles, .models, .seqs, .cohorts, .treeOps, .sync, .ports, .slices, .inbox] ++ [.msgId, .undelivered, .um, .swapQueue, .boot, .out, .held]) s x0 := by
    exact Same.mono State.noteLanes_same (by decide)
  try clear_value x0
  refine Same.ite ?_ ?_
  · refine Same.andThen State.portLost_same (by decide) ?_
    exact h0
  · extract_lets -merge +onlyGivenNames x1
    have h1 : Same ([.fns, .tiles, .models, .seqs, .cohorts, .treeOps, .sync, .ports, .slices, .inbox] ++ [.msgId, .undelivered, .um, .swapQueue, .boot, .out, .held]) s x1 := by
      refine Same.andThen State.derive_same (by decide) ?_
      refine Same.andThen State.modPort_same (by decide) ?_
      exact h0
    try clear_value x1
    split
    · refine Same.andThen State.portLost_same (by decide) ?_
      exact h1
    · extract_lets -merge +onlyGivenNames x2
      have h2 : Same ([.fns, .tiles, .models, .seqs, .cohorts, .treeOps, .sync, .ports, .slices, .inbox] ++ [.msgId, .undelivered, .um, .swapQueue, .boot, .out, .held]) s x2 := by
        refine Same.andThen State.linkDegraded_same (by decide) ?_
        refine Same.andThen State.discovered_same (by decide) ?_
        exact h1
      try clear_value x2
      refine Same.ite ?_ ?_
      · refine Same.andThen State.rerouteIdle_same (by decide) ?_
        refine Same.andThen State.pumpPort_same (by decide) ?_
        refine Same.andThen State.replayFrom_same (by decide) ?_
        exact h2
      · refine Same.andThen State.rerouteIdle_same (by decide) ?_
        refine Same.andThen State.dropTraffic_same (by decide) ?_
        exact h2

theorem State.endRows_same {s} {k} {mask} {status} {detail} {cls} {unit} {scope} {index} {layer} : Same [.seqs, .boot] s (State.endRows s k mask status detail cls unit scope index layer) := by
  unfold State.endRows
  extract_lets -merge +onlyGivenNames x0
  try clear_value x0
  split
  · exact Same.refl _ _
  · extract_lets -merge +onlyGivenNames x1
    have h1 : Same [.seqs, .boot] s x1 := by
      refine Same.foldl (fun y2 a2 => ?_) ?_
      · exact Same.mono State.addCause_same (by decide)
      · exact Same.refl _ _
    try clear_value x1
    refine Same.andThen State.logError_same (by decide) ?_
    exact h1

theorem State.endStalls_same {s} {m} {layer} : Same [.models, .cohorts] s (State.endStalls s m layer) := by
  unfold State.endStalls
  extract_lets -merge +onlyGivenNames x0
  extract_lets -merge +onlyGivenNames x1
  extract_lets -merge +onlyGivenNames x2
  have h2 : Same [.models, .cohorts] s x2 := by
    exact Same.mono State.modModel_same (by decide)
  try clear_value x2
  refine Same.upd ?_ (fun p hp => by cases p <;> first | exact absurd (by decide) hp | exact rfl)
  exact h2

theorem Boot.afterReset_partE (b : Boot) (self : Bool) (e : Option (BitVec 128)) : (b.afterReset self e).partE = b.partE := by
  unfold Boot.afterReset
  cases self <;> cases e <;> rfl

theorem State.enterAon_same {s} {config} {self} : Same Piece.changing s (State.enterAon s config self) := by
  unfold State.enterAon
  refine Same.upd ?_ (fun p hp => by cases p <;> first | exact absurd (by decide) hp | exact rfl | exact Boot.afterReset_partE _ _ _)
  exact Same.refl _ _

theorem State.writeRow_same {s} {c} {a} {r} : Same [.tiles] s (State.writeRow s c a r) := by
  unfold State.writeRow
  extract_lets -merge +onlyGivenNames x0
  extract_lets -merge +onlyGivenNames x1
  extract_lets -merge +onlyGivenNames x2
  have h2 : Same [.tiles] s x2 := by
    exact Same.mono State.scrPut_same (by decide)
  try clear_value x2
  refine Same.ite ?_ ?_
  · refine Same.andThen State.sticky_same (by decide) ?_
    exact h2
  · exact h2

theorem State.writeStat_same {s} {c} {a} {r} : Same [.tiles] s (State.writeStat s c a r) := by
  unfold State.writeStat
  extract_lets -merge +onlyGivenNames x0
  extract_lets -merge +onlyGivenNames x1
  extract_lets -merge +onlyGivenNames x2
  extract_lets -merge +onlyGivenNames x3
  extract_lets -merge +onlyGivenNames x4
  have h4 : Same [.tiles] s x4 := by
    exact Same.mono State.scrPut_same (by decide)
  try clear_value x4
  refine Same.ite ?_ ?_
  · refine Same.andThen State.sticky_same (by decide) ?_
    exact h4
  · exact h4

theorem State.writeTotals_same {s} {c} {a} {r} : Same [.tiles] s (State.writeTotals s c a r) := by
  unfold State.writeTotals
  extract_lets -merge +onlyGivenNames x0
  exact Same.mono State.scrPut_same (by decide)

theorem State.epilogueRow_same {s} {c} {a} {r} : Same [.tiles] s (State.epilogueRow s c a r) := by
  unfold State.epilogueRow
  split
  · exact Same.mono State.writeRow_same (by decide)
  · refine Same.andThen State.writeRow_same (by decide) ?_
    exact Same.mono State.writeStat_same (by decide)
  · refine Same.ite ?_ ?_
    · exact Same.mono State.writeRow_same (by decide)
    · exact Same.refl _ _
  · exact Same.mono State.writeTotals_same (by decide)
  · exact Same.refl _ _

theorem State.setFront_same {s} {c} {d} {engine} {step} : Same [.tiles] s (State.setFront s c d engine step) := by
  unfold State.setFront
  exact Same.mono State.modTile_same (by decide)

theorem State.wake_same {s} {t} {engine} : Same [.tiles] s (State.wake s t engine) := by
  unfold State.wake
  exact Same.mono State.modTile_same (by decide)

theorem State.waitFor_same {s} {mode} {w} {unitHome} {engine} : Same [.sync] s (State.waitFor s mode w unitHome engine).2 := by
  unfold State.waitFor
  split
  · extract_lets -merge +onlyGivenNames x0
    have h0 : Same [.sync] s x0 := by
      exact Same.mono State.modSync_same (by decide)
    try clear_value x0
    refine Same.pairSnd ?_
    exact h0
  · refine Same.iteSnd ?_ ?_
    · refine Same.pairSnd ?_
      exact Same.refl _ _
    · extract_lets -merge +onlyGivenNames x1
      have h1 : Same [.sync] s x1.2.2 := by
        refine Same.iteThird ?_ ?_
        · exact Same.mono State.applyTake_same (by decide)
        · exact Same.mono State.applyPeek_same (by decide)
      try clear_value x1
      refine Same.pairSnd ?_
      exact h1

theorem State.startDesc_same {s} {c} {d} {engine} : Same [.tiles, .cohorts, .sync] s (State.startDesc s c d engine).2 := by
  unfold State.startDesc
  split
  · refine Same.pairSnd ?_
    exact Same.refl _ _
  · refine Same.iteSnd ?_ ?_
    · refine Same.pairSnd ?_
      exact Same.refl _ _
    · extract_lets -merge +onlyGivenNames x0
      extract_lets -merge +onlyGivenNames x1
      try clear_value x1
      refine Same.iteSnd ?_ ?_
      · refine Same.pairSnd ?_
        exact Same.refl _ _
      · extract_lets -merge +onlyGivenNames x2
        have h2 : Same [.tiles, .cohorts, .sync] s x2 := by
          refine Same.andThen State.setFront_same (by decide) ?_
          exact Same.mono State.wake_same (by decide)
        try clear_value x2
        split
        · refine Same.pairSnd ?_
          exact h2
        · extract_lets -merge +onlyGivenNames x3
          have h3 : Same [.tiles, .cohorts, .sync] s x3.2 := by
            refine Same.andThen State.waitFor_same (by decide) ?_
            exact h2
          try clear_value x3
          split
          · refine Same.pairSnd ?_
            exact h3
          · refine Same.pairSnd ?_
            exact h3
          · refine Same.pairSnd ?_
            refine Same.andThen State.abandon_same (by decide) ?_
            exact h3

theorem State.expdOp_same {s} {t} {f} : Same [.tiles] s (State.expdOp s t f) := by
  unfold State.expdOp
  extract_lets -merge +onlyGivenNames x0
  split
  · exact Same.mono State.vecNext_same (by decide)
  · refine Same.ite ?_ ?_
    · exact Same.mono State.vecNext_same (by decide)
    · extract_lets -merge +onlyGivenNames x1
      refine Same.andThen State.vecNext_same (by decide) ?_
      exact Same.mono State.writeLanes_same (by decide)

theorem State.exportCand_same {s} {c} {d} {x} : Same [.tiles] s (State.exportCand s c d x) := by
  unfold State.exportCand
  exact Same.mono State.scrPut_same (by decide)

theorem State.fatalCompletions_same {s} : Same [.fns, .out, .held] s (State.fatalCompletions s) := by
  unfold State.fatalCompletions
  refine Same.foldl (fun y0 a0 => ?_) ?_
  · refine Same.ite ?_ ?_
    · exact Same.mono State.abortAll_same (by decide)
    · exact Same.refl _ _
  · exact Same.refl _ _

theorem State.finishRow_same {s} {k} {p} {d} {x} {t} {r} : Same [.tiles] s (State.finishRow s k p d x t r) := by
  unfold State.finishRow
  extract_lets -merge +onlyGivenNames x0
  extract_lets -merge +onlyGivenNames x1
  extract_lets -merge +onlyGivenNames x2
  have h2 : Same [.tiles] s x2 := by
    refine Same.andThen State.sticky_same (by decide) ?_
    exact Same.mono State.modTile_same (by decide)
  try clear_value x2
  refine Same.ite ?_ ?_
  · refine Same.andThen State.scrPut_same (by decide) ?_
    exact h2
  · extract_lets -merge +onlyGivenNames x3
    extract_lets -merge +onlyGivenNames x4
    have h4 : Same [.tiles] s x4 := by
      refine Same.ite ?_ ?_
      · refine Same.andThen State.sticky_same (by decide) ?_
        exact h2
      · exact h2
    try clear_value x4
    extract_lets -merge +onlyGivenNames x5
    have h5 : Same [.tiles] s x5 := by
      refine Same.foldl (fun y6 a6 => ?_) ?_
      · exact Same.mono State.scrPut_same (by decide)
      · exact h4
    try clear_value x5
    refine Same.ite ?_ ?_
    · refine Same.andThen State.scrPut_same (by decide) ?_
      exact h5
    · exact h5

theorem State.flashDegraded_same {s} : Same [.fns, .out] s (State.flashDegraded s) := by
  unfold State.flashDegraded
  refine Same.foldl (fun y0 a0 => ?_) ?_
  · refine Same.ite ?_ ?_
    · exact Same.refl _ _
    · exact Same.mono State.event_same (by decide)
  · exact Same.refl _ _

theorem State.sendLeaving_same {s} {p} {address} {msg} : Same [.ports] s (State.sendLeaving s p address msg) := by
  unfold State.sendLeaving
  extract_lets -merge +onlyGivenNames x0
  extract_lets -merge +onlyGivenNames x1
  exact Same.mono State.queuePacket_same (by decide)

theorem State.floodLeaving_same {s} {address} {msg} {but} : Same [.ports] s (State.floodLeaving s address msg but) := by
  unfold State.floodLeaving
  refine Same.foldl (fun y0 a0 => ?_) ?_
  · refine Same.ite ?_ ?_
    · exact Same.mono State.sendLeaving_same (by decide)
    · exact Same.refl _ _
  · exact Same.refl _ _

theorem State.flrOne_same {s} {f} : Same ([.fns, .tiles, .models, .seqs, .reuse, .cohorts, .nextCohorts, .treeOps, .cands, .sampled] ++ [.sync, .slices, .spans, .um, .flash, .swapQueue, .out, .held]) s (State.flrOne s f) := by
  unfold State.flrOne
  refine Same.ite ?_ ?_
  · refine Same.andThen State.beginDisable_same (by decide) ?_
    exact Same.mono State.modFn_same (by decide)
  · exact Same.mono State.modFn_same (by decide)

theorem State.flushOne_same {s} {f} {h} : Same [.fns, .out, .held] s (State.flushOne s f h) := by
  unfold State.flushOne
  split
  · refine Same.ite ?_ ?_
    · exact Same.mono State.putCompletion_same (by decide)
    · refine Same.upd ?_ (fun p hp => by cases p <;> first | exact absurd (by decide) hp | exact rfl)
      exact Same.refl _ _
  · refine Same.ite ?_ ?_
    · exact Same.mono State.putEmission_same (by decide)
    · refine Same.upd ?_ (fun p hp => by cases p <;> first | exact absurd (by decide) hp | exact rfl)
      exact Same.refl _ _

theorem State.flushHeld_same {s} {f} : Same [.fns, .seqs, .out, .held] s (State.flushHeld s f) := by
  unfold State.flushHeld
  refine Same.andThen State.endWrites_same (by decide) ?_
  refine Same.foldl (fun y0 a0 => ?_) ?_
  · exact Same.mono State.flushOne_same (by decide)
  · refine Same.upd ?_ (fun p hp => by cases p <;> first | exact absurd (by decide) hp | exact rfl)
    exact Same.refl _ _

theorem State.foldMerge_same {s} {c} {a} {row} {n} : Same [.tiles] s (State.foldMerge s c a row n).1 := by
  unfold State.foldMerge
  extract_lets -merge +onlyGivenNames x0
  extract_lets -merge +onlyGivenNames x1
  refine Same.pairFst ?_
  exact Same.mono State.accPut_same (by decide)

theorem State.freeBytes_same {s} {n} : Same [.fresh] s (State.freeBytes s n).2 := by
  unfold State.freeBytes
  refine Same.pairSnd ?_
  refine Same.upd ?_ (fun p hp => by cases p <;> first | exact absurd (by decide) hp | exact rfl)
  exact Same.refl _ _

theorem State.guardEvent_same {s} {k} {h} {r} : Same [.fns, .out] s (State.guardEvent s k h r) := by
  unfold State.guardEvent
  split
  · exact Same.refl _ _
  · refine Same.ite ?_ ?_
    · exact Same.refl _ _
    · extract_lets -merge +onlyGivenNames x0
      extract_lets -merge +onlyGivenNames x1
      extract_lets -merge +onlyGivenNames x2
      exact Same.mono State.event_same (by decide)

theorem State.hangEvent_same {s} {word} {kind} {unitHome} {engine} {waited} : Same [.fns, .sync, .out] s (State.hangEvent s word kind unitHome engine waited) := by
  unfold State.hangEvent
  extract_lets -merge +onlyGivenNames x0
  extract_lets -merge +onlyGivenNames x1
  extract_lets -merge +onlyGivenNames x2
  extract_lets -merge +onlyGivenNames x3
  have h3 : Same [.fns, .sync, .out] s x3 := by
    exact Same.mono State.event_same (by decide)
  try clear_value x3
  extract_lets -merge +onlyGivenNames x4
  have h4 : Same [.fns, .sync, .out] s x4 := by
    refine Same.ite ?_ ?_
    · exact h3
    · refine Same.andThen State.event_same (by decide) ?_
      exact h3
  try clear_value x4
  refine Same.andThen State.modSync_same (by decide) ?_
  exact h4

theorem State.hearAccepted_same {s} {m} {a} : Same [.seqs] s (State.hearAccepted s m a) := by
  unfold State.hearAccepted
  extract_lets -merge +onlyGivenNames x0
  refine Same.ite ?_ ?_
  · exact Same.refl _ _
  · exact Same.mono State.modSeq_same (by decide)

theorem State.peerGone_same {s} : Same [.fresh] s (State.peerGone s).2 := by
  unfold State.peerGone
  refine Same.pairSnd ?_
  exact Same.mono State.draw_same (by decide)

theorem State.loseModel_same {s} {m} : Same ([.fns, .tiles, .models, .seqs, .cohorts, .treeOps, .sync, .um, .swapQueue, .boot] ++ [.out, .held]) s (State.loseModel s m) := by
  unfold State.loseModel
  extract_lets -merge +onlyGivenNames x0
  have h0 : Same ([.fns, .tiles, .models, .seqs, .cohorts, .treeOps, .sync, .um, .swapQueue, .boot] ++ [.out, .held]) s x0 := by
    refine Same.andThen State.modLoad_same (by decide) ?_
    exact Same.mono State.loseOwner_same (by decide)
  try clear_value x0
  extract_lets -merge +onlyGivenNames x1
  try clear_value x1
  extract_lets -merge +onlyGivenNames x2
  have h2 : Same ([.fns, .tiles, .models, .seqs, .cohorts, .treeOps, .sync, .um, .swapQueue, .boot] ++ [.out, .held]) s x2 := by
    unfold x2
    split
    · refine Same.andThen State.logError_same (by decide) ?_
      exact h0
    · exact h0
  try clear_value x2
  extract_lets -merge +onlyGivenNames x3
  have h3 : Same ([.fns, .tiles, .models, .seqs, .cohorts, .treeOps, .sync, .um, .swapQueue, .boot] ++ [.out, .held]) s x3 := by
    refine Same.foldl (fun y4 a4 => ?_) ?_
    · refine Same.andThen State.modCohort_same (by decide) ?_
      exact Same.mono State.cutPass_same (by decide)
    · exact h2
  try clear_value x3
  refine Same.foldl (fun y5 a5 => ?_) ?_
  · split
    · extract_lets -merge +onlyGivenNames x6
      refine Same.andThen State.endSeq_same (by decide) ?_
      exact Same.mono State.rollBack_same (by decide)
    · exact Same.refl _ _
  · exact h3

theorem State.memberLeft_same {s} {a} : Same ([.fns, .tiles, .models, .seqs, .cohorts, .treeOps, .sync, .slices, .um, .swapQueue] ++ [.boot, .out, .held]) s (State.memberLeft s a) := by
  unfold State.memberLeft
  extract_lets -merge +onlyGivenNames x0
  extract_lets -merge +onlyGivenNames x1
  have h1 : Same ([.fns, .tiles, .models, .seqs, .cohorts, .treeOps, .sync, .slices, .um, .swapQueue] ++ [.boot, .out, .held]) s x1 := by
    refine Same.upd ?_ (fun p hp => by cases p <;> first | exact absurd (by decide) hp | exact rfl)
    exact Same.refl _ _
  try clear_value x1
  refine Same.foldl (fun y2 a2 => ?_) ?_
  · exact Same.mono State.loseModel_same (by decide)
  · exact h1

theorem State.hearLoss_same {s} {peer} : Same ([.fns, .tiles, .models, .seqs, .cohorts, .treeOps, .sync, .slices, .um, .swapQueue] ++ [.boot, .out, .held, .fresh]) s (State.hearLoss s peer) := by
  unfold State.hearLoss
  refine Same.ite ?_ ?_
  · refine Same.ite ?_ ?_
    · refine Same.andThen State.memberLeft_same (by decide) ?_
      exact Same.mono State.peerGone_same (by decide)
    · exact Same.mono State.peerGone_same (by decide)
  · exact Same.refl _ _

theorem State.imageDetail_same {s} {sec} {off} : Same [.fresh] s (State.imageDetail s sec off).2 := by
  unfold State.imageDetail
  split
  · refine Same.pairSnd ?_
    exact Same.refl _ _
  · extract_lets -merge +onlyGivenNames x0
    have h0 : Same [.fresh] s x0.2 := by
      exact Same.mono State.draw_same (by decide)
    try clear_value x0
    refine Same.pairSnd ?_
    exact h0

theorem State.jtag_same {s} {ir} {dr} {underTest} : Same [.pins, .side] s (State.jtag s ir dr underTest) := by
  unfold State.jtag
  refine Same.ite ?_ ?_
  · refine Same.upd ?_ (fun p hp => by cases p <;> first | exact absurd (by decide) hp | exact rfl)
    exact Same.refl _ _
  · exact Same.refl _ _

theorem State.jtagLoad_same {s} {update} : Same [.side] s (State.jtagLoad s update) := by
  unfold State.jtagLoad
  refine Same.ite ?_ ?_
  · refine Same.upd ?_ (fun p hp => by cases p <;> first | exact absurd (by decide) hp | exact rfl)
    exact Same.refl _ _
  · exact Same.refl _ _

theorem State.judge_same {s} {c} {k} {layer} {mon} {gs} : Same [.fns, .tiles, .models, .out] s (State.judge s c k layer mon gs).2 := by
  unfold State.judge
  extract_lets -merge +onlyGivenNames x0
  split
  · refine Same.pairSnd ?_
    exact Same.refl _ _
  · extract_lets -merge +onlyGivenNames x1
    extract_lets -merge +onlyGivenNames x2
    extract_lets -merge +onlyGivenNames x3
    extract_lets -merge +onlyGivenNames x4
    extract_lets -merge +onlyGivenNames x5
    have h5 : Same [.fns, .tiles, .models, .out] s x5 := by
      exact Same.mono State.modMonitor_same (by decide)
    try clear_value x5
    refine Same.iteSnd ?_ ?_
    · refine Same.pairSnd ?_
      refine Same.andThen State.modTile_same (by decide) ?_
      exact h5
    · refine Same.pairSnd ?_
      refine Same.andThen State.driftFail_same (by decide) ?_
      exact h5

theorem State.laneOp_same {s} {t} {f} {g} : Same [.tiles] s (State.laneOp s t f g) := by
  unfold State.laneOp
  extract_lets -merge +onlyGivenNames x0
  refine Same.andThen State.vecNext_same (by decide) ?_
  exact Same.mono State.writeLanes_same (by decide)

theorem State.lateMark_same {s} {h} : Same [.inbound, .wideSeen] s (State.lateMark s h) := by
  unfold State.lateMark
  refine Same.upd ?_ (fun p hp => by cases p <;> first | exact absurd (by decide) hp | exact rfl)
  exact Same.refl _ _

theorem State.leaveNotice_same {s} : Same [.ports, .msgId] s (State.leaveNotice s) := by
  unfold State.leaveNotice
  refine Same.ite ?_ ?_
  · extract_lets -merge +onlyGivenNames x0
    have h0 : Same [.ports, .msgId] s x0 := by
      exact Same.mono State.floodLeaving_same (by decide)
    try clear_value x0
    refine Same.upd ?_ (fun p hp => by cases p <;> first | exact absurd (by decide) hp | exact rfl)
    exact h0
  · exact Same.refl _ _

theorem State.linkImport_same {s} {q} {i} {data} : Same [.models, .seqs] s (State.linkImport s q i data) := by
  unfold State.linkImport
  extract_lets -merge +onlyGivenNames x0
  extract_lets -merge +onlyGivenNames x1
  have h1 : Same [.models, .seqs] s x1 := by
    refine Same.foldl (fun y2 a2 => ?_) ?_
    · exact Same.mono State.putFrame_same (by decide)
    · exact Same.refl _ _
  try clear_value x1
  refine Same.andThen State.modSeq_same (by decide) ?_
  exact h1

theorem State.linkLost_same {s} : Same ([.fns, .tiles, .models, .seqs, .reuse, .cohorts, .nextCohorts, .treeOps, .cands, .sampled] ++ [.sync, .slices, .spans, .um, .flash, .swapQueue, .boot, .pins, .out, .held]) s (State.linkLost s) := by
  unfold State.linkLost
  refine Same.ite ?_ ?_
  · exact Same.refl _ _
  · extract_lets -merge +onlyGivenNames z0_0 x0
    have h0 : Same ([.fns, .tiles, .models, .seqs, .reuse, .cohorts, .nextCohorts, .treeOps, .cands, .sampled] ++ [.sync, .slices, .spans, .um, .flash, .swapQueue, .boot, .pins, .out, .held]) s x0 := by
      refine Same.upd ?_ (fun p hp => by cases p <;> first | exact absurd (by decide) hp | exact rfl)
      exact Same.refl _ _
    try clear_value x0
    extract_lets -merge +onlyGivenNames x1
    extract_lets -merge +onlyGivenNames x2
    have h2 : Same ([.fns, .tiles, .models, .seqs, .reuse, .cohorts, .nextCohorts, .treeOps, .cands, .sampled] ++ [.sync, .slices, .spans, .um, .flash, .swapQueue, .boot, .pins, .out, .held]) s x2 := by
      refine Same.ite ?_ ?_
      · refine Same.andThen State.logError_same (by decide) ?_
        exact h0
      · exact h0
    try clear_value x2
    refine Same.andThen State.dropFn_same (by decide) ?_
    refine Same.foldl (fun y3 a3 => ?_) ?_
    · exact Same.mono State.dropFn_same (by decide)
    · exact h2

theorem State.loadBlocks_same {s} {t} {cache} {y3} {y4} : Same [.fns, .tiles, .out] s (State.loadBlocks s t cache y3 y4).2 := by
  induction y3 generalizing s y4 with
  | zero => exact Same.refl _ _
  | succ n ih =>
    exact ih.andThen (by decide) (State.modVec_same.andThen (by decide) (State.decodeBlock_same.mono (by decide)))

theorem State.loadOp_same {s} {t} {f} : Same [.fns, .tiles, .out] s (State.loadOp s t f) := by
  unfold State.loadOp
  extract_lets -merge +onlyGivenNames x0
  extract_lets -merge +onlyGivenNames x1
  extract_lets -merge +onlyGivenNames x2
  extract_lets -merge +onlyGivenNames x3
  extract_lets -merge +onlyGivenNames x4
  extract_lets -merge +onlyGivenNames x5
  extract_lets -merge +onlyGivenNames x6
  extract_lets -merge +onlyGivenNames x7
  extract_lets -merge +onlyGivenNames x8
  extract_lets -merge +onlyGivenNames x9
  extract_lets -merge +onlyGivenNames x10
  refine Same.ite ?_ ?_
  · refine Same.andThen State.vecNext_same (by decide) ?_
    exact Same.mono State.writeLanes_same (by decide)
  · refine Same.ite ?_ ?_
    · refine Same.ite ?_ ?_
      · extract_lets -merge +onlyGivenNames x11
        have h11 : Same [.fns, .tiles, .out] s x11.2 := by
          exact Same.mono State.loadBlocks_same (by decide)
        try clear_value x11
        refine Same.andThen State.vecNext_same (by decide) ?_
        refine Same.andThen State.writeLanes_same (by decide) ?_
        exact h11
      · refine Same.andThen State.vecNext_same (by decide) ?_
        exact Same.mono State.writeLanes_same (by decide)
    · refine Same.ite ?_ ?_
      · refine Same.andThen State.vecNext_same (by decide) ?_
        exact Same.mono State.writeLanes_same (by decide)
      · refine Same.andThen State.vecNext_same (by decide) ?_
        exact Same.mono State.writeLanes_same (by decide)

theorem State.loadScalars_same {s} {t} {a} : Same [.tiles] s (State.loadScalars s t a) := by
  unfold State.loadScalars
  extract_lets -merge +onlyGivenNames x0
  extract_lets -merge +onlyGivenNames x1
  extract_lets -merge +onlyGivenNames x2
  exact Same.mono State.modVec_same (by decide)

theorem State.loopLeave_same {s} {t} {f} : Same [.tiles, .fresh] s (State.loopLeave s t f) := by
  unfold State.loopLeave
  extract_lets -merge +onlyGivenNames x0
  have h0 : Same [.tiles, .fresh] s x0.2 := by
    exact Same.mono State.draw_same (by decide)
  try clear_value x0
  extract_lets -merge +onlyGivenNames x1
  have h1 : Same [.tiles, .fresh] s x1.2 := by
    refine Same.andThen State.draw_same (by decide) ?_
    exact h0
  try clear_value x1
  extract_lets -merge +onlyGivenNames x2
  extract_lets -merge +onlyGivenNames x3
  have h3 : Same [.tiles, .fresh] s x3 := by
    refine Same.andThen State.modVec_same (by decide) ?_
    exact h1
  try clear_value x3
  extract_lets -merge +onlyGivenNames x4
  have h4 : Same [.tiles, .fresh] s x4 := by
    refine Same.andThen State.modVec_same (by decide) ?_
    refine Same.andThen State.gatherFlags_same (by decide) ?_
    exact h3
  try clear_value x4
  refine Same.upd ?_ (fun p hp => by cases p <;> first | exact absurd (by decide) hp | exact rfl)
  exact h4

theorem State.vecBegin_same {s} {t} {x} : Same [.tiles] s (State.vecBegin s t x) := by
  unfold State.vecBegin
  exact Same.mono State.modVec_same (by decide)

theorem State.loseSupply_same {s} {aon} : Same Piece.changing s (State.loseSupply s aon) := by
  unfold State.loseSupply
  extract_lets -merge +onlyGivenNames x0
  have h0 : Same Piece.changing s x0 := by
    exact Same.mono State.enterAon_same (fun _ q => q)
  try clear_value x0
  refine Same.upd ?_ (fun p hp => by cases p <;> first | exact absurd (by decide) hp | exact rfl | (cases aon <;> exact rfl))
  exact h0

theorem State.loseUnit_same {s} {m} {sec} {unit} : Same [.fns, .models, .out] s (State.loseUnit s m sec unit) := by
  unfold State.loseUnit
  extract_lets -merge +onlyGivenNames x0
  extract_lets -merge +onlyGivenNames x1
  have h1 : Same [.fns, .models, .out] s x1 := by
    exact Same.mono State.modModel_same (by decide)
  try clear_value x1
  refine Same.ite ?_ ?_
  · refine Same.andThen State.event_same (by decide) ?_
    exact h1
  · exact h1

theorem State.loupeOk_same {s} {e} : Same [.fns, .um, .out, .held] s (State.loupeOk s e) := by
  unfold State.loupeOk
  refine Same.andThen State.completeAdmin_same (by decide) ?_
  exact Same.mono (State.modUm_same (fun _ => by first | rfl | simp | (split <;> rfl) | (dsimp only; split <;> rfl) | (dsimp only; (repeat' split) <;> rfl))) (by decide)

theorem State.runCell_same {s} {c} {a} {chain} {keep} {wsOf} {beats0} {row} {blocks} {cell} : Same [.tiles] s (State.runCell s c a chain keep wsOf beats0 row blocks cell).1 := by
  unfold State.runCell
  extract_lets -merge +onlyGivenNames x0
  extract_lets -merge +onlyGivenNames x1
  extract_lets -merge +onlyGivenNames x2
  extract_lets -merge +onlyGivenNames x3
  extract_lets -merge +onlyGivenNames x4
  extract_lets -merge +onlyGivenNames x5
  extract_lets -merge +onlyGivenNames x6
  extract_lets -merge +onlyGivenNames x7
  extract_lets -merge +onlyGivenNames x8
  extract_lets -merge +onlyGivenNames z9_0 x9
  extract_lets -merge +onlyGivenNames x10
  have h10 : Same [.tiles] s x10 := by
    exact Same.mono State.accPut_same (by decide)
  try clear_value x10
  refine Same.pairFst ?_
  refine Same.andThen State.modTile_same (by decide) ?_
  exact h10

theorem State.runRows_same {s} {c} {a} {chain} {keep} {wsOf} {beats0} {rows} {cell} : Same [.tiles] s (State.runRows s c a chain keep wsOf beats0 rows cell).1 := by
  unfold State.runRows
  refine Same.foldlFst (fun y0 a0 => ?_) ?_
  · extract_lets -merge +onlyGivenNames x1
    have h1 : Same [.tiles] y0.1 x1.1 := by
      refine Same.andThen State.runCell_same (by decide) ?_
      exact Same.refl _ _
    try clear_value x1
    refine Same.pairFst ?_
    exact h1
  · refine Same.pairFst ?_
    exact Same.refl _ _

theorem State.nanTotals_same {s} {c} {a} {rows} : Same [.tiles] s (State.nanTotals s c a rows) := by
  unfold State.nanTotals
  refine Same.foldl (fun y0 a0 => ?_) ?_
  · refine Same.foldl (fun y1 a1 => ?_) ?_
    · extract_lets -merge +onlyGivenNames x2
      exact Same.mono State.accPut_same (by decide)
    · exact Same.refl _ _
  · exact Same.refl _ _

theorem State.writeRescale_same {s} {t} {st} : Same [.tiles] s (State.writeRescale s t st) := by
  unfold State.writeRescale
  split
  · extract_lets -merge +onlyGivenNames x0
    extract_lets -merge +onlyGivenNames x1
    exact Same.mono State.modTile_same (by decide)
  · exact Same.refl _ _

theorem State.matmul_same {s} {c} {d} {a} {st} {k} : Same [.fns, .tiles, .out, .fresh] s (State.matmul s c d a st k) := by
  unfold State.matmul
  extract_lets -merge +onlyGivenNames x0
  extract_lets -merge +onlyGivenNames x1
  extract_lets -merge +onlyGivenNames x2
  extract_lets -merge +onlyGivenNames x3
  extract_lets -merge +onlyGivenNames x4
  have h4 : Same [.fns, .tiles, .out, .fresh] s x4 := by
    refine Same.ite ?_ ?_
    · exact Same.refl _ _
    · exact Same.mono State.closeChunks_same (by decide)
  try clear_value x4
  extract_lets -merge +onlyGivenNames x5
  extract_lets -merge +onlyGivenNames x6
  have h6 : Same [.fns, .tiles, .out, .fresh] s x6.2 := by
    refine Same.andThen State.activations_same (by decide) ?_
    exact h4
  try clear_value x6
  extract_lets -merge +onlyGivenNames x7
  have h7 : Same [.fns, .tiles, .out, .fresh] s x7 := by
    exact h4
  try clear_value x7
  extract_lets -merge +onlyGivenNames x8
  extract_lets -merge +onlyGivenNames x9
  have h9 : Same [.fns, .tiles, .out, .fresh] s x9.1 := by
    refine Same.foldlFst (fun y10 a10 => ?_) ?_
    · extract_lets -merge +onlyGivenNames x11
      have h11 : Same [.fns, .tiles, .out, .fresh] y10.1 x11.1 := by
        refine Same.andThen State.runRows_same (by decide) ?_
        exact Same.refl _ _
      try clear_value x11
      refine Same.pairFst ?_
      exact h11
    · refine Same.pairFst ?_
      exact h6
  try clear_value x9
  extract_lets -merge +onlyGivenNames x12
  have h12 : Same [.fns, .tiles, .out, .fresh] s x12 := by
    refine Same.andThen State.modTile_same (by decide) ?_
    exact h9
  try clear_value x12
  extract_lets -merge +onlyGivenNames x13
  have h13 : Same [.fns, .tiles, .out, .fresh] s x13 := by
    refine Same.ite ?_ ?_
    · refine Same.andThen State.nanTotals_same (by decide) ?_
      exact h12
    · exact h12
  try clear_value x13
  extract_lets -merge +onlyGivenNames x14
  have h14 : Same [.fns, .tiles, .out, .fresh] s x14.1 := by
    refine Same.iteFst ?_ ?_
    · refine Same.foldlFst (fun y15 a15 => ?_) ?_
      · refine Same.foldlFst (fun y16 a16 => ?_) ?_
        · extract_lets -merge +onlyGivenNames x17
          have h17 : Same [.fns, .tiles, .out, .fresh] y16.1 x17.1 := by
            refine Same.andThen State.foldMerge_same (by decide) ?_
            exact Same.refl _ _
          try clear_value x17
          refine Same.pairFst ?_
          exact h17
        · exact Same.refl _ _
      · refine Same.pairFst ?_
        exact h13
    · refine Same.pairFst ?_
      exact h13
  try clear_value x14
  extract_lets -merge +onlyGivenNames x18
  have h18 : Same [.fns, .tiles, .out, .fresh] s x18 := by
    refine Same.andThen State.longsum_same (by decide) ?_
    exact h14
  try clear_value x18
  extract_lets -merge +onlyGivenNames x19
  have h19 : Same [.fns, .tiles, .out, .fresh] s x19 := by
    refine Same.ite ?_ ?_
    · refine Same.andThen State.writeRescale_same (by decide) ?_
      exact h18
    · exact h18
  try clear_value x19
  extract_lets -merge +onlyGivenNames x20
  have h20 : Same [.fns, .tiles, .out, .fresh] s x20 := by
    refine Same.foldl (fun y21 a21 => ?_) ?_
    · exact Same.mono State.epilogueRow_same (by decide)
    · exact h19
  try clear_value x20
  extract_lets -merge +onlyGivenNames x22
  have h22 : Same [.fns, .tiles, .out, .fresh] s x22.2 := by
    refine Same.andThen State.draw_same (by decide) ?_
    exact h20
  try clear_value x22
  refine Same.ite ?_ ?_
  · exact h20
  · refine Same.andThen State.modTile_same (by decide) ?_
    exact h22

theorem State.measurement_same {s} {index} : SomeSame [.fresh] s (State.measurement s index) := by
  unfold State.measurement
  extract_lets -merge +onlyGivenNames x0
  try clear_value x0
  extract_lets -merge +onlyGivenNames x1
  refine SomeSame.ite ?_ ?_
  · refine SomeSame.some ?_
    refine Same.pairSnd ?_
    exact Same.refl _ _
  · refine SomeSame.ite ?_ ?_
    · refine SomeSame.some ?_
      refine Same.pairSnd ?_
      exact Same.refl _ _
    · refine SomeSame.ite ?_ ?_
      · refine SomeSame.some ?_
        refine Same.pairSnd ?_
        exact Same.refl _ _
      · refine SomeSame.ite ?_ ?_
        · refine SomeSame.some ?_
          exact Same.mono State.freeBytes_same (by decide)
        · refine SomeSame.ite ?_ ?_
          · refine SomeSame.some ?_
            refine Same.pairSnd ?_
            exact Same.refl _ _
          · split
            · refine SomeSame.ite ?_ ?_
              · refine SomeSame.some ?_
                refine Same.pairSnd ?_
                exact Same.refl _ _
              · refine SomeSame.some ?_
                exact Same.mono State.freeBytes_same (by decide)
            · exact SomeSame.none

theorem State.modSession_same {s} {id} {g} : Same [.spdm] s (State.modSession s id g) := by
  unfold State.modSession
  exact Same.mono State.modSpdm_same (by decide)

theorem State.movcOp_same {s} {t} {f} : Same [.tiles] s (State.movcOp s t f) := by
  unfold State.movcOp
  extract_lets -merge +onlyGivenNames x0
  refine Same.ite ?_ ?_
  · exact Same.mono State.vecNext_same (by decide)
  · extract_lets -merge +onlyGivenNames x1
    extract_lets -merge +onlyGivenNames x2
    have h2 : Same [.tiles] s x2 := by
      exact Same.mono State.modVec_same (by decide)
    try clear_value x2
    refine Same.andThen State.vecNext_same (by decide) ?_
    refine Same.andThen State.modVec_same (by decide) ?_
    exact h2

theorem State.negotiate_same {s} {t} {need} {next} {r} : Same [.spdm] s (State.negotiate s t need next r) := by
  unfold State.negotiate
  refine Same.ite ?_ ?_
  · exact Same.refl _ _
  · refine Same.ite ?_ ?_
    · exact Same.mono State.answer_same (by decide)
    · refine Same.andThen State.answer_same (by decide) ?_
      exact Same.mono State.modSpdm_same (by decide)

theorem State.notUp_same {s} {p} {state} {cause} {ev} : Same [.fns, .ports, .out] s (State.notUp s p state cause ev) := by
  unfold State.notUp
  extract_lets -merge +onlyGivenNames x0
  have h0 : Same [.fns, .ports, .out] s x0 := by
    exact Same.mono State.setPort_same (by decide)
  try clear_value x0
  extract_lets -merge +onlyGivenNames x1
  have h1 : Same [.fns, .ports, .out] s x1 := by
    refine Same.andThen State.modPort_same (by decide) ?_
    exact h0
  try clear_value x1
  refine Same.andThen State.missing_same (by decide) ?_
  exact h1

theorem State.readRow_same {s} {b} {at0} {form} {off} {n} {seen} : Same [.fns, .tiles, .out] s (State.readRow s b at0 form off n seen).2.2 := by
  unfold State.readRow
  split
  · refine Same.foldlThird (fun y0 a0 => ?_) ?_
    · extract_lets -merge +onlyGivenNames x1
      extract_lets -merge +onlyGivenNames x2
      have h2 : Same [.fns, .tiles, .out] y0.2.2 x2.2.2 := by
        refine Same.andThen State.decodeBlock_same (by decide) ?_
        exact Same.refl _ _
      try clear_value x2
      refine Same.pairThird ?_
      exact h2
    · refine Same.pairThird ?_
      refine Same.pairSnd ?_
      exact Same.refl _ _
  · refine Same.pairThird ?_
    refine Same.pairSnd ?_
    exact Same.refl _ _
  · refine Same.pairThird ?_
    refine Same.pairSnd ?_
    exact Same.refl _ _

theorem State.packQueries_same {s} {k} {p} {d} {x} {seen} : Same [.fns, .tiles, .out] s (State.packQueries s k p d x seen).2.2 := by
  unfold State.packQueries
  refine Same.foldlThird (fun y0 a0 => ?_) ?_
  · refine Same.foldlThird (fun y1 a1 => ?_) ?_
    · extract_lets -merge +onlyGivenNames x2
      extract_lets -merge +onlyGivenNames x3
      have h3 : Same [.fns, .tiles, .out] y1.2.2 x3.2.2 := by
        refine Same.andThen State.readRow_same (by decide) ?_
        exact Same.refl _ _
      try clear_value x3
      extract_lets -merge +onlyGivenNames x4
      refine Same.pairThird ?_
      exact h3
    · exact Same.refl _ _
  · refine Same.pairThird ?_
    refine Same.pairSnd ?_
    exact Same.refl _ _

theorem State.selfReset_same {s} {cls} : Same Piece.changing s (State.selfReset s cls) := by
  unfold State.selfReset
  extract_lets -merge +onlyGivenNames x0
  have h0 : Same Piece.changing s x0 := by
    exact Same.mono State.post_same (by decide)
  try clear_value x0
  extract_lets -merge +onlyGivenNames x1
  have h1 : Same Piece.changing s x1 := by
    refine Same.andThen State.floodLeaving_same (by decide) ?_
    exact h0
  try clear_value x1
  extract_lets -merge +onlyGivenNames x2
  have h2 : Same Piece.changing s x2 := by
    refine Same.andThen (State.modUm_same (fun _ => by first | rfl | simp | (split <;> rfl) | (dsimp only; split <;> rfl) | (dsimp only; (repeat' split) <;> rfl))) (by decide) ?_
    exact h1
  try clear_value x2
  extract_lets -merge +onlyGivenNames x3
  have h3 : Same Piece.changing s x3 := by
    refine Same.andThen (State.modBoot_same (fun _ => by first | rfl | simp | (split <;> rfl) | (dsimp only; split <;> rfl) | (dsimp only; (repeat' split) <;> rfl))) (by decide) ?_
    exact h2
  try clear_value x3
  refine Same.andThen State.enterAon_same (fun _ q => q) ?_
  exact h3

theorem State.packageFatal_same {s} {cls} : Same Piece.changing s (State.packageFatal s cls) := by
  unfold State.packageFatal
  refine Same.andThen State.selfReset_same (fun _ q => q) ?_
  exact Same.mono State.fatalCompletions_same (by decide)

theorem State.padOp_same {s} {t} {f} : Same [.tiles] s (State.padOp s t f) := by
  unfold State.padOp
  extract_lets -merge +onlyGivenNames x0
  refine Same.andThen State.vecNext_same (by decide) ?_
  exact Same.mono State.writeLanes_same (by decide)

theorem State.park_same {s} {h} {r} : Same [.seqs] s (State.park s h r) := by
  unfold State.park
  split
  · exact Same.refl _ _
  · refine Same.ite ?_ ?_
    · exact Same.refl _ _
    · exact Same.mono State.modSeq_same (by decide)

theorem State.parkWait_same {s} {c} {d} {engine} : Same [.sync] s (State.parkWait s c d engine) := by
  unfold State.parkWait
  refine Same.ite ?_ ?_
  · exact Same.refl _ _
  · split
    · exact Same.refl _ _
    · extract_lets -merge +onlyGivenNames x0
      exact Same.mono State.modSync_same (by decide)

theorem State.partOver_same {s} {h} {failed} : Same [.seqs, .um, .swapQueue, .out] s (State.partOver s h failed) := by
  unfold State.partOver
  refine Same.andThen State.leaveQueue_same (by decide) ?_
  exact Same.mono State.modSeq_same (by decide)

theorem State.pcntOp_same {s} {t} {f} : Same [.tiles] s (State.pcntOp s t f) := by
  unfold State.pcntOp
  extract_lets -merge +onlyGivenNames x0
  extract_lets -merge +onlyGivenNames x1
  refine Same.andThen State.vecNext_same (by decide) ?_
  exact Same.mono State.writeLanes_same (by decide)

theorem State.placeResident_same {s} {m} : Same [.tiles] s (State.placeResident s m) := by
  unfold State.placeResident
  split
  · extract_lets -merge +onlyGivenNames x0
    extract_lets -merge +onlyGivenNames x1
    refine Same.upd ?_ (fun p hp => by cases p <;> first | exact absurd (by decide) hp | exact rfl)
    exact Same.refl _ _
  · exact Same.refl _ _

theorem State.predOp_same {s} {t} {f} {g} : Same [.tiles] s (State.predOp s t f g) := by
  unfold State.predOp
  extract_lets -merge +onlyGivenNames x0
  extract_lets -merge +onlyGivenNames x1
  refine Same.andThen State.vecNext_same (by decide) ?_
  exact Same.mono State.modVec_same (by decide)

theorem State.prismPack_same {s} {src} {k} {p} {g} {y} : Same [.tiles, .seqs, .cohorts, .boot] s (State.prismPack s src k p g y).1 := by
  unfold State.prismPack
  extract_lets -merge +onlyGivenNames x0
  extract_lets -merge +onlyGivenNames x1
  extract_lets -merge +onlyGivenNames x2
  have h2 : Same [.tiles, .seqs, .cohorts, .boot] s x2 := by
    exact Same.mono State.countPack_same (by decide)
  try clear_value x2
  extract_lets -merge +onlyGivenNames x3
  have h3 : Same [.tiles, .seqs, .cohorts, .boot] s x3 := by
    refine Same.foldl (fun y4 a4 => ?_) ?_
    · refine Same.ite ?_ ?_
      · exact Same.mono State.sticky_same (by decide)
      · exact Same.refl _ _
    · exact h2
  try clear_value x3
  extract_lets -merge +onlyGivenNames x5
  refine Same.pairFst ?_
  refine Same.foldl (fun y6 a6 => ?_) ?_
  · exact Same.mono State.finishRow_same (by decide)
  · exact h3

theorem State.prismSet_same {s} {k} {d} : Same [.fns, .tiles, .seqs, .cohorts, .relayStat, .boot, .out, .fresh] s (State.prismSet s k d) := by
  unfold State.prismSet
  extract_lets -merge +onlyGivenNames x0
  split
  · exact Same.refl _ _
  · extract_lets -merge +onlyGivenNames x1
    have h1 : Same [.fns, .tiles, .seqs, .cohorts, .relayStat, .boot, .out, .fresh] s x1.2.2 := by
      refine Same.foldlThird (fun y2 a2 => ?_) ?_
      · extract_lets -merge +onlyGivenNames x3
        have h3 : Same [.fns, .tiles, .seqs, .cohorts, .relayStat, .boot, .out, .fresh] y2.2.2 x3.2.2 := by
          refine Same.andThen State.packQueries_same (by decide) ?_
          exact Same.refl _ _
        try clear_value x3
        refine Same.pairThird ?_
        exact h3
      · refine Same.pairThird ?_
        refine Same.pairSnd ?_
        exact Same.refl _ _
    try clear_value x1
    extract_lets -merge +onlyGivenNames x4
    have h4 : Same [.fns, .tiles, .seqs, .cohorts, .relayStat, .boot, .out, .fresh] s x4 := by
      exact h1
    try clear_value x4
    extract_lets -merge +onlyGivenNames x5
    extract_lets -merge +onlyGivenNames x6
    extract_lets -merge +onlyGivenNames x7
    have h7 : Same [.fns, .tiles, .seqs, .cohorts, .relayStat, .boot, .out, .fresh] s x7.1 := by
      refine Same.foldlFst (fun y8 a8 => ?_) ?_
      · extract_lets -merge +onlyGivenNames x9
        have h9 : Same [.fns, .tiles, .seqs, .cohorts, .relayStat, .boot, .out, .fresh] y8.1 x9.1 := by
          refine Same.andThen State.prismPack_same (by decide) ?_
          exact Same.refl _ _
        try clear_value x9
        refine Same.pairFst ?_
        exact h9
      · refine Same.pairFst ?_
        exact h4
    try clear_value x7
    extract_lets -merge +onlyGivenNames x10
    have h10 : Same [.fns, .tiles, .seqs, .cohorts, .relayStat, .boot, .out, .fresh] s x10 := by
      refine Same.foldl (fun y11 a11 => ?_) ?_
      · exact Same.mono State.longsum_same (by decide)
      · exact h7
    try clear_value x10
    extract_lets -merge +onlyGivenNames x12
    extract_lets -merge +onlyGivenNames x13
    extract_lets -merge +onlyGivenNames x14
    extract_lets -merge +onlyGivenNames x15
    have h15 : Same [.fns, .tiles, .seqs, .cohorts, .relayStat, .boot, .out, .fresh] s x15 := by
      refine Same.upd ?_ (fun p hp => by cases p <;> first | exact absurd (by decide) hp | exact rfl)
      exact h10
    try clear_value x15
    refine Same.foldl (fun y16 a16 => ?_) ?_
    · extract_lets -merge +onlyGivenNames x17
      have h17 : Same [.fns, .tiles, .seqs, .cohorts, .relayStat, .boot, .out, .fresh] y16 x17.2 := by
        exact Same.mono State.draw_same (by decide)
      try clear_value x17
      extract_lets -merge +onlyGivenNames x18
      have h18 : Same [.fns, .tiles, .seqs, .cohorts, .relayStat, .boot, .out, .fresh] y16 x18.2 := by
        refine Same.andThen State.draw_same (by decide) ?_
        exact h17
      try clear_value x18
      extract_lets -merge +onlyGivenNames x19
      have h19 : Same [.fns, .tiles, .seqs, .cohorts, .relayStat, .boot, .out, .fresh] y16 x19.2 := by
        refine Same.andThen State.draw_same (by decide) ?_
        exact h18
      try clear_value x19
      refine Same.andThen State.modTile_same (by decide) ?_
      exact h19
    · exact h15

theorem State.tryPrism_same {s} {m} {c} : Same [.fns, .tiles, .models, .seqs, .cohorts, .sync, .relayStat, .boot, .out, .fresh] s (State.tryPrism s m c) := by
  unfold State.tryPrism
  split
  · exact Same.refl _ _
  · split
    · refine Same.ite ?_ ?_
      · extract_lets -merge +onlyGivenNames x0
        have h0 : Same [.fns, .tiles, .models, .seqs, .cohorts, .sync, .relayStat, .boot, .out, .fresh] s x0 := by
          exact Same.mono State.prismSet_same (by decide)
        try clear_value x0
        extract_lets -merge +onlyGivenNames x1
        have h1 : Same [.fns, .tiles, .models, .seqs, .cohorts, .sync, .relayStat, .boot, .out, .fresh] s x1 := by
          refine Same.andThen State.modCohort_same (by decide) ?_
          exact h0
        try clear_value x1
        refine Same.foldl (fun y2 a2 => ?_) ?_
        · exact Same.mono State.endDesc_same (by decide)
        · exact h1
      · exact Same.refl _ _
    · exact Same.refl _ _

theorem State.prismJoin_same {s} {c} {d} : Same [.fns, .tiles, .models, .seqs, .cohorts, .sync, .relayStat, .boot, .out, .fresh] s (State.prismJoin s c d) := by
  unfold State.prismJoin
  split
  · refine Same.ite ?_ ?_
    · exact Same.refl _ _
    · extract_lets -merge +onlyGivenNames x0
      have h0 : Same [.fns, .tiles, .models, .seqs, .cohorts, .sync, .relayStat, .boot, .out, .fresh] s x0.2 := by
        exact Same.mono State.startDesc_same (by decide)
      try clear_value x0
      split
      · exact h0
      · refine Same.andThen State.tryPrism_same (by decide) ?_
        refine Same.andThen State.modCohort_same (by decide) ?_
        exact h0
  · exact Same.refl _ _

theorem State.qcodeOp_same {s} {t} {f} : Same [.tiles] s (State.qcodeOp s t f) := by
  unfold State.qcodeOp
  extract_lets -merge +onlyGivenNames x0
  extract_lets -merge +onlyGivenNames x1
  extract_lets -merge +onlyGivenNames x2
  extract_lets -merge +onlyGivenNames x3
  extract_lets -merge +onlyGivenNames x4
  have h4 : Same [.tiles] s x4 := by
    exact Same.mono State.modTile_same (by decide)
  try clear_value x4
  refine Same.andThen State.vecNext_same (by decide) ?_
  refine Same.andThen State.writeLanes_same (by decide) ?_
  exact h4

theorem State.quarantineUnit_same {s} {m} {sec} {unit} : Same [.fns, .models, .out] s (State.quarantineUnit s m sec unit) := by
  unfold State.quarantineUnit
  refine Same.ite ?_ ?_
  · exact Same.refl _ _
  · refine Same.andThen State.event_same (by decide) ?_
    exact Same.mono State.modModel_same (by decide)

/-- A register's clearing changes at most the parts of l. -/
def RegView.Keeps (l : List Piece) (s : State) (r : RegView) : Prop := ∀ w, Same l s (r.store w)

theorem RegView.Keeps.mono {l m : List Piece} {s : State} {r : RegView} (h : r.Keeps l s) (hl : ∀ p ∈ l, p ∈ m := by decide) :
    r.Keeps m s := fun w => (h w).mono hl

theorem State.ro_keeps {l : List Piece} {s : State} {v : BitVec 64} : (s.ro v).Keeps l s := fun _ => Same.refl _ _

set_option maxRecDepth 4000 in
theorem State.packageReg_keeps {s : State} {o : Nat} :
    (s.packageReg o).Keeps [.sync, .flash, .swapStat, .relayStat, .specStat, .specSource, .boot, .power] s := by
  unfold State.packageReg
  split <;> first
    | exact State.ro_keeps
    | exact fun w => State.modPower_same.mono (by decide)
    | exact fun w => State.modFlash_same.mono (by decide)
    | exact fun w => State.modSync_same.mono (by decide)
    | exact fun w => (State.modBoot_same (by intro b; rfl)).mono (by decide)
    | exact fun w => Same.upd (Same.refl _ _) (fun p hp => by cases p <;> first | exact absurd (by decide) hp | exact rfl)

theorem State.packageIndexed_keeps {s : State} {o : Nat} :
    (s.packageIndexed o).Keeps
      [.tiles, .sync, .ports, .transit, .flash, .swapStat, .relayStat, .specStat, .specSource, .boot, .power] s := by
  unfold State.packageIndexed
  split
  · intro w
    dsimp only
    exact Same.mono (l := [.power]) State.modPower_same (by decide)
  · split
    · intro w
      exact Same.mono (l := [.tiles]) State.modTile_same (by decide)
    · split
      · exact State.ro_keeps
      · split
        · intro w
          exact Same.mono (l := [.ports]) State.modPort_same (by decide)
        · split
          · intro w
            exact Same.upd (Same.refl _ _) (fun p hp => by cases p <;> first | exact absurd (by decide) hp | exact rfl)
          · split
            · dsimp only
              split
              · exact State.ro_keeps
              · exact State.ro_keeps
            · exact State.packageReg_keeps.mono

theorem State.modelReg_keeps {s : State} {m : SlotIx} {o : Nat} : (s.modelReg m o).Keeps [.models] s := by
  unfold State.modelReg
  extract_lets
  split <;> first
    | exact State.ro_keeps
    | exact fun w => State.modModel_same
    | exact fun w => State.modPool_same

set_option maxRecDepth 4000 in
theorem State.tileReg_keeps {s : State} {t : TileIx} {o : Nat} : (s.tileReg t o).Keeps [.tiles] s := by
  unfold State.tileReg
  extract_lets
  split <;> first
    | exact State.ro_keeps
    | exact fun w => State.modTile_same

theorem State.fnReg_keeps {s : State} {f : Fn} {o : Nat} : (s.fnReg f o).Keeps [.fns] s := by
  unfold State.fnReg
  extract_lets
  split
  · exact State.ro_keeps
  · exact fun w => State.modFn_same
  · exact State.ro_keeps
  · exact fun w => State.modFn_same
  · split <;> exact State.ro_keeps

theorem State.regAt_keeps {s : State} {f : Fn} {p : Place} :
    (s.regAt f p).Keeps
      ([.fns, .tiles, .models, .sync, .ports, .transit, .flash] ++ [.swapStat, .relayStat, .specStat, .specSource, .boot, .power]) s := by
  unfold State.regAt
  split <;> first
    | exact State.ro_keeps
    | (intro w; dsimp only; exact Same.mono (l := [.boot]) (State.modBoot_same (by intro b; rfl)) (by decide))
    | exact State.packageIndexed_keeps.mono
    | exact RegView.Keeps.mono (l := [.models]) State.modelReg_keeps (by decide)
    | exact RegView.Keeps.mono (l := [.tiles]) State.tileReg_keeps (by decide)
    | exact RegView.Keeps.mono (l := [.fns]) State.fnReg_keeps (by decide)

theorem State.readReg_same {s} {viewer} {off} {bytes} : Same ([.fns, .tiles, .models, .sync, .ports, .transit, .flash, .swapStat, .relayStat, .specStat] ++ [.specSource, .boot, .power]) s (State.readReg s viewer off bytes) := by
  unfold State.readReg
  extract_lets -merge +onlyGivenNames ret
  have hret : ∀ a v, Same ([.fns, .tiles, .models, .sync, .ports, .transit, .flash, .swapStat, .relayStat, .specStat] ++ [.specSource, .boot, .power]) a (ret a v) := fun a v => Same.mono (State.modBoot_same (by intro b; rfl)) (by decide)
  clear_value ret
  extract_lets -merge +onlyGivenNames p
  clear_value p
  refine Same.ite (hret _ _) ?_
  extract_lets -merge +onlyGivenNames lo w r
  have hr : ∀ v, Same ([.fns, .tiles, .models, .sync, .ports, .transit, .flash, .swapStat, .relayStat, .specStat] ++ [.specSource, .boot, .power]) s (r.store v) := State.regAt_keeps.mono
  clear_value r w lo
  extract_lets -merge +onlyGivenNames v
  clear_value v
  refine Same.ite (Same.ite ?_ (hret _ _)) ?_
  · exact (hret _ _).andThen (fun _ q => q) ((State.modBoot_same (by intro b; rfl)).mono (by decide))
  · extract_lets -merge +onlyGivenNames s1
    have h1 : Same ([.fns, .tiles, .models, .sync, .ports, .transit, .flash, .swapStat, .relayStat, .specStat] ++ [.specSource, .boot, .power]) s s1 := Same.ite (hr _) (Same.refl _ _)
    clear_value s1
    extract_lets -merge +onlyGivenNames s2
    have h2 : Same ([.fns, .tiles, .models, .sync, .ports, .transit, .flash, .swapStat, .relayStat, .specStat] ++ [.specSource, .boot, .power]) s s2 := by
      unfold s2
      split
      · refine Same.ite (Same.ite ?_ (Same.ite ?_ h1)) h1
        · exact (State.modBoot_same (by intro b; rfl)).andThen (by decide) h1
        · exact (State.modBoot_same (by intro b; rfl)).andThen (by decide) h1
      · exact h1
    clear_value s2
    exact (hret _ _).andThen (fun _ q => q) h2

theorem State.rediscover_same {s} : Same [.fns, .ports, .slices, .out] s (State.rediscover s) := by
  unfold State.rediscover
  refine Same.andThen State.rerouteIdle_same (by decide) ?_
  refine Same.foldl (fun y0 a0 => ?_) ?_
  · extract_lets -merge +onlyGivenNames x1
    extract_lets -merge +onlyGivenNames x2
    extract_lets -merge +onlyGivenNames x3
    have h3 : Same [.fns, .ports, .slices, .out] y0 x3 := by
      exact Same.mono State.modPort_same (by decide)
    try clear_value x3
    refine Same.ite ?_ ?_
    · refine Same.andThen State.discovered_same (by decide) ?_
      exact h3
    · refine Same.ite ?_ ?_
      · refine Same.andThen State.setPort_same (by decide) ?_
        exact h3
      · exact h3
  · exact Same.refl _ _

theorem State.refuse_same {s} {e} {opcode} {status} {h} {detail} : Same [.fns, .out, .held] s (State.refuse s e opcode status h detail) := by
  unfold State.refuse
  exact Same.mono State.completeFull_same (by decide)

theorem State.releaseCredits_same {s} : Same [.ports] s (State.releaseCredits s) := by
  unfold State.releaseCredits
  refine Same.ite ?_ ?_
  · refine Same.upd ?_ (fun p hp => by cases p <;> first | exact absurd (by decide) hp | exact rfl)
    exact Same.refl _ _
  · exact Same.refl _ _

theorem State.reported_same {s} {errs} : Same [.fresh] s (State.reported s errs).2 := by
  unfold State.reported
  refine Same.iteSnd ?_ ?_
  · refine Same.pairSnd ?_
    exact Same.refl _ _
  · extract_lets -merge +onlyGivenNames x0
    have h0 : Same [.fresh] s x0.2 := by
      exact Same.mono State.draw_same (by decide)
    try clear_value x0
    refine Same.pairSnd ?_
    exact h0

theorem State.reroute_same {s} {m} {peers} : Same [.slices] s (State.reroute s m peers) := by
  unfold State.reroute
  split
  · exact Same.refl _ _
  · extract_lets -merge +onlyGivenNames x0
    refine Same.upd ?_ (fun p hp => by cases p <;> first | exact absurd (by decide) hp | exact rfl)
    exact Same.refl _ _

theorem State.respond_same {s} {t} {r} : Same [.spdm] s (State.respond s t r) := by
  unfold State.respond
  exact Same.mono State.negotiate_same (by decide)

theorem State.vEnd_same {s} {t} {_f} : Same [.tiles] s (State.vEnd s t _f) := by
  unfold State.vEnd
  exact Same.mono State.endOp_same (by decide)

theorem State.vLd_same {s} {t} {f} : Same [.fns, .tiles, .out] s (State.vLd s t f) := by
  unfold State.vLd
  exact Same.mono State.loadOp_same (by decide)

theorem State.vecPut_same {s} {t} {cache} {a} {b} : Same [.tiles] s (State.vecPut s t cache a b) := by
  unfold State.vecPut
  refine Same.ite ?_ ?_
  · exact Same.mono State.modVec_same (by decide)
  · exact Same.mono State.scrPut_same (by decide)

theorem State.storeBlocks_same {s} {t} {cache} {val} {y4} {y5} {y6} : Same [.tiles] s (State.storeBlocks s t cache val y4 y5 y6) := by
  induction y4 generalizing s y5 y6 with
  | zero => exact Same.refl _ _
  | succ n ih =>
    exact ih.andThen (by decide) (State.vecPut_same.andThen (by decide) (State.encodeBlock_same.mono (by decide)))

theorem State.storeNibble_same {s} {t} {cache} {a} {high} {x} : Same [.tiles] s (State.storeNibble s t cache a high x) := by
  unfold State.storeNibble
  extract_lets -merge +onlyGivenNames x0
  extract_lets -merge +onlyGivenNames x1
  exact Same.mono State.vecPut_same (by decide)

theorem State.storeOp_same {s} {t} {f} : Same [.tiles] s (State.storeOp s t f) := by
  unfold State.storeOp
  extract_lets -merge +onlyGivenNames x0
  extract_lets -merge +onlyGivenNames x1
  extract_lets -merge +onlyGivenNames x2
  extract_lets -merge +onlyGivenNames x3
  extract_lets -merge +onlyGivenNames x4
  extract_lets -merge +onlyGivenNames x5
  extract_lets -merge +onlyGivenNames x6
  extract_lets -merge +onlyGivenNames x7
  extract_lets -merge +onlyGivenNames x8
  refine Same.ite ?_ ?_
  · exact Same.mono State.vecNext_same (by decide)
  · refine Same.ite ?_ ?_
    · extract_lets -merge +onlyGivenNames x9
      refine Same.ite ?_ ?_
      · extract_lets -merge +onlyGivenNames x10
        extract_lets -merge +onlyGivenNames x11
        have h11 : Same [.tiles] s x11 := by
          exact Same.mono State.storeBlocks_same (by decide)
        try clear_value x11
        refine Same.andThen State.vecNext_same (by decide) ?_
        refine Same.andThen State.modVec_same (by decide) ?_
        exact h11
      · refine Same.andThen State.vecNext_same (by decide) ?_
        exact Same.mono State.modVec_same (by decide)
    · refine Same.ite ?_ ?_
      · extract_lets -merge +onlyGivenNames x12
        have h12 : Same [.tiles] s x12 := by
          refine Same.foldl (fun y13 a13 => ?_) ?_
          · extract_lets -merge +onlyGivenNames x14
            refine Same.ite ?_ ?_
            · exact Same.mono State.storeNibble_same (by decide)
            · exact Same.mono State.vecPut_same (by decide)
          · exact Same.refl _ _
        try clear_value x12
        refine Same.andThen State.vecNext_same (by decide) ?_
        refine Same.andThen State.modVec_same (by decide) ?_
        exact h12
      · refine Same.andThen State.vecNext_same (by decide) ?_
        exact Same.mono State.modVec_same (by decide)

theorem State.vSt_same {s} {t} {f} : Same [.tiles] s (State.vSt s t f) := by
  unfold State.vSt
  exact Same.mono State.storeOp_same (by decide)

theorem State.vAdd_same {s} {t} {f} : Same [.tiles] s (State.vAdd s t f) := by
  unfold State.vAdd
  exact Same.mono State.laneOp_same (by decide)

theorem State.vSub_same {s} {t} {f} : Same [.tiles] s (State.vSub s t f) := by
  unfold State.vSub
  exact Same.mono State.laneOp_same (by decide)

theorem State.vMul_same {s} {t} {f} : Same [.tiles] s (State.vMul s t f) := by
  unfold State.vMul
  exact Same.mono State.laneOp_same (by decide)

theorem State.vFma_same {s} {t} {f} : Same [.tiles] s (State.vFma s t f) := by
  unfold State.vFma
  exact Same.mono State.laneOp_same (by decide)

theorem State.vMin_same {s} {t} {f} : Same [.tiles] s (State.vMin s t f) := by
  unfold State.vMin
  exact Same.mono State.laneOp_same (by decide)

theorem State.vMax_same {s} {t} {f} : Same [.tiles] s (State.vMax s t f) := by
  unfold State.vMax
  exact Same.mono State.laneOp_same (by decide)

theorem State.vAbs_same {s} {t} {f} : Same [.tiles] s (State.vAbs s t f) := by
  unfold State.vAbs
  exact Same.mono State.laneOp_same (by decide)

theorem State.vNeg_same {s} {t} {f} : Same [.tiles] s (State.vNeg s t f) := by
  unfold State.vNeg
  exact Same.mono State.laneOp_same (by decide)

theorem State.vDiv_same {s} {t} {f} : Same [.tiles] s (State.vDiv s t f) := by
  unfold State.vDiv
  exact Same.mono State.laneOp_same (by decide)

theorem State.vSqrt_same {s} {t} {f} : Same [.tiles] s (State.vSqrt s t f) := by
  unfold State.vSqrt
  exact Same.mono State.laneOp_same (by decide)

theorem State.vRsq_same {s} {t} {f} : Same [.tiles] s (State.vRsq s t f) := by
  unfold State.vRsq
  exact Same.mono State.laneOp_same (by decide)

theorem State.vExp_same {s} {t} {f} : Same [.tiles] s (State.vExp s t f) := by
  unfold State.vExp
  exact Same.mono State.laneOp_same (by decide)

theorem State.vLog_same {s} {t} {f} : Same [.tiles] s (State.vLog s t f) := by
  unfold State.vLog
  exact Same.mono State.laneOp_same (by decide)

theorem State.vSig_same {s} {t} {f} : Same [.tiles] s (State.vSig s t f) := by
  unfold State.vSig
  exact Same.mono State.laneOp_same (by decide)

theorem State.vCmplt_same {s} {t} {f} : Same [.tiles] s (State.vCmplt s t f) := by
  unfold State.vCmplt
  exact Same.mono State.predOp_same (by decide)

theorem State.vCmple_same {s} {t} {f} : Same [.tiles] s (State.vCmple s t f) := by
  unfold State.vCmple
  exact Same.mono State.predOp_same (by decide)

theorem State.vCmpeq_same {s} {t} {f} : Same [.tiles] s (State.vCmpeq s t f) := by
  unfold State.vCmpeq
  exact Same.mono State.predOp_same (by decide)

theorem State.vSel_same {s} {t} {f} : Same [.tiles] s (State.vSel s t f) := by
  unfold State.vSel
  exact Same.mono State.laneOp_same (by decide)

theorem State.vAnd_same {s} {t} {f} : Same [.tiles] s (State.vAnd s t f) := by
  unfold State.vAnd
  exact Same.mono State.laneOp_same (by decide)

theorem State.vOr_same {s} {t} {f} : Same [.tiles] s (State.vOr s t f) := by
  unfold State.vOr
  exact Same.mono State.laneOp_same (by decide)

theorem State.vXor_same {s} {t} {f} : Same [.tiles] s (State.vXor s t f) := by
  unfold State.vXor
  exact Same.mono State.laneOp_same (by decide)

theorem State.vShl_same {s} {t} {f} : Same [.tiles] s (State.vShl s t f) := by
  unfold State.vShl
  exact Same.mono State.laneOp_same (by decide)

theorem State.vShr_same {s} {t} {f} : Same [.tiles] s (State.vShr s t f) := by
  unfold State.vShr
  exact Same.mono State.laneOp_same (by decide)

theorem State.vShra_same {s} {t} {f} : Same [.tiles] s (State.vShra s t f) := by
  unfold State.vShra
  exact Same.mono State.laneOp_same (by decide)

theorem State.vCvti_same {s} {t} {f} : Same [.tiles] s (State.vCvti s t f) := by
  unfold State.vCvti
  exact Same.mono State.laneOp_same (by decide)

theorem State.vCvtf_same {s} {t} {f} : Same [.tiles] s (State.vCvtf s t f) := by
  unfold State.vCvtf
  exact Same.mono State.laneOp_same (by decide)

theorem State.vRbf_same {s} {t} {f} : Same [.tiles] s (State.vRbf s t f) := by
  unfold State.vRbf
  exact Same.mono State.laneOp_same (by decide)

theorem State.vQparam_same {s} {t} {f} : Same [.tiles] s (State.vQparam s t f) := by
  unfold State.vQparam
  exact Same.mono State.laneOp_same (by decide)

theorem State.vQcode_same {s} {t} {f} : Same [.tiles] s (State.vQcode s t f) := by
  unfold State.vQcode
  exact Same.mono State.qcodeOp_same (by decide)

theorem State.vQdeq_same {s} {t} {f} : Same [.tiles] s (State.vQdeq s t f) := by
  unfold State.vQdeq
  exact Same.mono State.laneOp_same (by decide)

theorem State.vLaneid_same {s} {t} {f} : Same [.tiles] s (State.vLaneid s t f) := by
  unfold State.vLaneid
  exact Same.mono State.laneOp_same (by decide)

theorem State.vShfx_same {s} {t} {f} : Same [.tiles] s (State.vShfx s t f) := by
  unfold State.vShfx
  exact Same.mono State.laneOp_same (by decide)

theorem State.vShup_same {s} {t} {f} : Same [.tiles] s (State.vShup s t f) := by
  unfold State.vShup
  exact Same.mono State.laneOp_same (by decide)

theorem State.vPerm_same {s} {t} {f} : Same [.tiles] s (State.vPerm s t f) := by
  unfold State.vPerm
  exact Same.mono State.laneOp_same (by decide)

theorem State.vBcast_same {s} {t} {f} : Same [.tiles] s (State.vBcast s t f) := by
  unfold State.vBcast
  exact Same.mono State.bcastOp_same (by decide)

theorem State.vPad_same {s} {t} {f} : Same [.tiles] s (State.vPad s t f) := by
  unfold State.vPad
  exact Same.mono State.padOp_same (by decide)

theorem State.vMovc_same {s} {t} {f} : Same [.tiles] s (State.vMovc s t f) := by
  unfold State.vMovc
  exact Same.mono State.movcOp_same (by decide)

theorem State.vCpush_same {s} {t} {f} : Same [.tiles] s (State.vCpush s t f) := by
  unfold State.vCpush
  exact Same.mono State.cpushOp_same (by decide)

theorem State.vCmpr_same {s} {t} {f} : Same [.tiles] s (State.vCmpr s t f) := by
  unfold State.vCmpr
  exact Same.mono State.cmprOp_same (by decide)

theorem State.vExpd_same {s} {t} {f} : Same [.tiles] s (State.vExpd s t f) := by
  unfold State.vExpd
  exact Same.mono State.expdOp_same (by decide)

theorem State.vCpop_same {s} {t} {_f} : Same [.tiles] s (State.vCpop s t _f) := by
  unfold State.vCpop
  exact Same.mono State.cpopOp_same (by decide)

theorem State.setvlOp_same {s} {t} {f} : Same [.tiles] s (State.setvlOp s t f) := by
  unfold State.setvlOp
  extract_lets -merge +onlyGivenNames x0
  refine Same.andThen State.vecNext_same (by decide) ?_
  exact Same.mono State.modVec_same (by decide)

theorem State.vSetvl_same {s} {t} {f} : Same [.tiles] s (State.vSetvl s t f) := by
  unfold State.vSetvl
  exact Same.mono State.setvlOp_same (by decide)

theorem State.vPcnt_same {s} {t} {f} : Same [.tiles] s (State.vPcnt s t f) := by
  unfold State.vPcnt
  exact Same.mono State.pcntOp_same (by decide)

theorem State.vPand_same {s} {t} {f} : Same [.tiles] s (State.vPand s t f) := by
  unfold State.vPand
  exact Same.mono State.predOp_same (by decide)

theorem State.vPor_same {s} {t} {f} : Same [.tiles] s (State.vPor s t f) := by
  unfold State.vPor
  exact Same.mono State.predOp_same (by decide)

theorem State.vPandn_same {s} {t} {f} : Same [.tiles] s (State.vPandn s t f) := by
  unfold State.vPandn
  exact Same.mono State.predOp_same (by decide)

theorem State.vPflag_same {s} {t} {f} : Same [.tiles] s (State.vPflag s t f) := by
  unfold State.vPflag
  exact Same.mono State.predOp_same (by decide)

theorem State.vecOp_same {s} {t} {op} {f} : Same [.fns, .tiles, .out] s (State.vecOp s t op f) := by
  unfold State.vecOp
  split
  · exact Same.mono State.vEnd_same (by decide)
  · exact Same.mono State.vLd_same (by decide)
  · exact Same.mono State.vSt_same (by decide)
  · exact Same.mono State.vAdd_same (by decide)
  · exact Same.mono State.vSub_same (by decide)
  · exact Same.mono State.vMul_same (by decide)
  · exact Same.mono State.vFma_same (by decide)
  · exact Same.mono State.vMin_same (by decide)
  · exact Same.mono State.vMax_same (by decide)
  · exact Same.mono State.vAbs_same (by decide)
  · exact Same.mono State.vNeg_same (by decide)
  · exact Same.mono State.vDiv_same (by decide)
  · exact Same.mono State.vSqrt_same (by decide)
  · exact Same.mono State.vRsq_same (by decide)
  · exact Same.mono State.vExp_same (by decide)
  · exact Same.mono State.vLog_same (by decide)
  · exact Same.mono State.vSig_same (by decide)
  · exact Same.mono State.vCmplt_same (by decide)
  · exact Same.mono State.vCmple_same (by decide)
  · exact Same.mono State.vCmpeq_same (by decide)
  · exact Same.mono State.vSel_same (by decide)
  · exact Same.mono State.vAnd_same (by decide)
  · exact Same.mono State.vOr_same (by decide)
  · exact Same.mono State.vXor_same (by decide)
  · exact Same.mono State.vShl_same (by decide)
  · exact Same.mono State.vShr_same (by decide)
  · exact Same.mono State.vShra_same (by decide)
  · exact Same.mono State.vCvti_same (by decide)
  · exact Same.mono State.vCvtf_same (by decide)
  · exact Same.mono State.vRbf_same (by decide)
  · exact Same.mono State.vQparam_same (by decide)
  · exact Same.mono State.vQcode_same (by decide)
  · exact Same.mono State.vQdeq_same (by decide)
  · exact Same.mono State.vLaneid_same (by decide)
  · exact Same.mono State.vShfx_same (by decide)
  · exact Same.mono State.vShup_same (by decide)
  · exact Same.mono State.vPerm_same (by decide)
  · exact Same.mono State.vBcast_same (by decide)
  · exact Same.mono State.vPad_same (by decide)
  · exact Same.mono State.vMovc_same (by decide)
  · exact Same.mono State.vCpush_same (by decide)
  · exact Same.mono State.vCmpr_same (by decide)
  · exact Same.mono State.vExpd_same (by decide)
  · exact Same.mono State.vCpop_same (by decide)
  · exact Same.mono State.vSetvl_same (by decide)
  · exact Same.mono State.vPcnt_same (by decide)
  · exact Same.mono State.vPand_same (by decide)
  · exact Same.mono State.vPor_same (by decide)
  · exact Same.mono State.vPandn_same (by decide)
  · exact Same.mono State.vPflag_same (by decide)
  · exact Same.refl _ _

theorem State.runProgram_same {s} {t} {y2} : Same [.fns, .tiles, .out] s (State.runProgram s t y2) := by
  induction y2 generalizing s with
  | nil => exact State.endOp_same.mono (by decide)
  | cons w r ih =>
    unfold State.runProgram
    exact Same.ite (State.endOp_same.mono (by decide)) (ih.andThen (by decide) (State.vecOp_same.mono (by decide)))

theorem State.runIterations_same {s} {t} {p} {y3} : Same [.fns, .tiles, .out] s (State.runIterations s t p y3) := by
  induction y3 generalizing s with
  | zero => exact Same.refl _ _
  | succ n ih => exact ih.andThen (by decide) (State.runProgram_same.mono (by decide))

theorem State.sameWait_same {s} {r} : Same [.sync] s (State.sameWait s r) := by
  unfold State.sameWait
  exact Same.mono State.modSync_same (by decide)

theorem State.scrPutLE_same {s} {t} {a} {n} {x} : Same [.tiles] s (State.scrPutLE s t a n x) := by
  unfold State.scrPutLE
  exact Same.mono State.scrPut_same (by decide)

theorem State.scrubbed_same {s} {x} {d} : Same [.models, .seqs, .boot] s (State.scrubbed s x d) := by
  unfold State.scrubbed
  extract_lets -merge +onlyGivenNames x0
  split
  · exact Same.mono State.logError_same (by decide)
  · exact Same.mono State.logError_same (by decide)
  · exact Same.mono State.logError_same (by decide)
  · exact Same.mono State.modPool_same (by decide)
  · split
    · refine Same.andThen State.logError_same (by decide) ?_
      exact Same.mono State.modSeq_same (by decide)
    · exact Same.refl _ _
  · extract_lets -merge +onlyGivenNames x1
    have h1 : Same [.models, .seqs, .boot] s x1 := by
      exact Same.mono State.modPool_same (by decide)
    try clear_value x1
    refine Same.upd ?_ (fun p hp => by cases p <;> first | exact absurd (by decide) hp | exact rfl)
    exact h1
  · exact Same.mono State.logError_same (by decide)

theorem State.selectLayer_same {s} {t} {lo} {w} {v} : Same [.tiles] s (State.selectLayer s t lo w v) := by
  unfold State.selectLayer
  exact Same.mono State.modTile_same (by decide)

theorem State.sendMessage_same {s} {x} {dest} {c} {typ} {tile} {msg} {runs} {carried} {discard} : Same [.ports, .inbox, .undelivered] s (State.sendMessage s x dest c typ tile msg runs carried discard) := by
  unfold State.sendMessage
  extract_lets -merge +onlyGivenNames x0
  extract_lets -merge +onlyGivenNames x1
  extract_lets -merge +onlyGivenNames x2
  extract_lets -merge +onlyGivenNames x3
  exact Same.mono State.sendAll_same (by decide)

theorem State.wideRuns_same {s} {c} {e} {rows} : Same [.tiles] s (State.wideRuns s c e rows).2 := by
  unfold State.wideRuns
  refine Same.foldlSnd (fun y0 a0 => ?_) ?_
  · extract_lets -merge +onlyGivenNames x1
    extract_lets -merge +onlyGivenNames x2
    extract_lets -merge +onlyGivenNames x3
    have h3 : Same [.tiles] y0.2 x3.2 := by
      refine Same.foldlSnd (fun y4 a4 => ?_) ?_
      · extract_lets -merge +onlyGivenNames x5
        have h5 : Same [.tiles] y4.2 x5.2 := by
          refine Same.andThen State.encodeBlock_same (by decide) ?_
          exact Same.refl _ _
        try clear_value x5
        refine Same.pairSnd ?_
        exact h5
      · refine Same.pairSnd ?_
        refine Same.ite ?_ ?_
        · refine Same.andThen State.sticky_same (by decide) ?_
          exact Same.refl _ _
        · exact Same.refl _ _
    try clear_value x3
    refine Same.pairSnd ?_
    exact h3
  · refine Same.pairSnd ?_
    exact Same.refl _ _

theorem State.sendWide_same {s} {c} {d} {k} {e} {x} {dest} {rows} : Same [.tiles, .ports, .inbox, .undelivered] s (State.sendWide s c d k e x dest rows) := by
  unfold State.sendWide
  extract_lets -merge +onlyGivenNames x0
  have h0 : Same [.tiles, .ports, .inbox, .undelivered] s x0.2 := by
    exact Same.mono State.wideRuns_same (by decide)
  try clear_value x0
  refine Same.andThen State.sendMessage_same (by decide) ?_
  exact h0

theorem State.sendNarrow_same {s} {c} {d} {k} {e} {x} {dest} {rows} : Same [.fns, .tiles, .models, .ports, .inbox, .undelivered, .out] s (State.sendNarrow s c d k e x dest rows) := by
  unfold State.sendNarrow
  extract_lets -merge +onlyGivenNames x0
  split
  · refine Same.andThen State.sendMessage_same (by decide) ?_
    exact Same.mono State.countNarrow_same (by decide)
  · exact Same.mono State.sendWide_same (by decide)
  · extract_lets -merge +onlyGivenNames x1
    have h1 : Same [.fns, .tiles, .models, .ports, .inbox, .undelivered, .out] s x1.2 := by
      refine Same.andThen State.judge_same (by decide) ?_
      exact Same.mono State.countNarrow_same (by decide)
    try clear_value x1
    refine Same.ite ?_ ?_
    · refine Same.andThen State.sendMessage_same (by decide) ?_
      exact h1
    · extract_lets -merge +onlyGivenNames x2
      have h2 : Same [.fns, .tiles, .models, .ports, .inbox, .undelivered, .out] s x2 := by
        refine Same.ite ?_ ?_
        · refine Same.andThen State.sendMessage_same (by decide) ?_
          exact h1
        · exact h1
      try clear_value x2
      refine Same.andThen State.sendWide_same (by decide) ?_
      exact h2

theorem State.sendRelay_same {s} {m} {g} {x} {layer} {page} {frame} : Same [.ports, .inbox, .msgId, .undelivered, .relayStat] s (State.sendRelay s m g x layer page frame) := by
  unfold State.sendRelay
  extract_lets -merge +onlyGivenNames x0
  extract_lets -merge +onlyGivenNames x1
  have h1 : Same [.ports, .inbox, .msgId, .undelivered, .relayStat] s x1 := by
    exact Same.mono State.relayMessage_same (by decide)
  try clear_value x1
  refine Same.upd ?_ (fun p hp => by cases p <;> first | exact absurd (by decide) hp | exact rfl)
  exact h1

theorem State.setCap_same {s} {watts} : Same [.power] s (State.setCap s watts) := by
  unfold State.setCap
  refine Same.ite ?_ ?_
  · exact Same.mono State.modPower_same (by decide)
  · exact Same.refl _ _

theorem State.settleOne_same {s} {k} {peers} {h} : Same [.fns, .models, .seqs, .treeOps, .sync, .um, .swapQueue, .out, .held] s (State.settleOne s k peers h) := by
  unfold State.settleOne
  extract_lets -merge +onlyGivenNames x0
  have h0 : Same [.fns, .models, .seqs, .treeOps, .sync, .um, .swapQueue, .out, .held] s x0 := by
    unfold x0
    split
    · exact Same.mono State.addCause_same (by decide)
    · exact Same.refl _ _
  try clear_value x0
  split
  · exact h0
  · refine Same.ite ?_ ?_
    · exact h0
    · extract_lets -merge +onlyGivenNames x1
      have h1 : Same [.fns, .models, .seqs, .treeOps, .sync, .um, .swapQueue, .out, .held] s x1 := by
        refine Same.andThen State.guardEvent_same (by decide) ?_
        exact h0
      try clear_value x1
      extract_lets -merge +onlyGivenNames x2
      have h2 : Same [.fns, .models, .seqs, .treeOps, .sync, .um, .swapQueue, .out, .held] s x2 := by
        refine Same.ite ?_ ?_
        · refine Same.andThen State.rollBack_same (by decide) ?_
          exact h1
        · refine Same.andThen State.insertPages_same (by decide) ?_
          refine Same.andThen State.settleChunks_same (by decide) ?_
          refine Same.andThen State.advance_same (by decide) ?_
          exact h1
      try clear_value x2
      extract_lets -merge +onlyGivenNames x3
      have h3 : Same [.fns, .models, .seqs, .treeOps, .sync, .um, .swapQueue, .out, .held] s x3 := by
        refine Same.andThen State.dropSlots_same (by decide) ?_
        refine Same.andThen State.checkPreempt_same (by decide) ?_
        refine Same.andThen State.applyPolicy_same (by decide) ?_
        exact h2
      try clear_value x3
      split
      · exact h3
      · extract_lets -merge +onlyGivenNames x4
        have h4 : Same [.fns, .models, .seqs, .treeOps, .sync, .um, .swapQueue, .out, .held] s x4 := by
          unfold x4
          split
          · refine Same.andThen State.applyEnding_same (by decide) ?_
            exact h3
          · refine Same.andThen State.park_same (by decide) ?_
            exact h3
        try clear_value x4
        refine Same.andThen State.modSeq_same (by decide) ?_
        exact h4

theorem State.settleCohort_same {s} {k} {peers} : Same [.fns, .models, .seqs, .treeOps, .sync, .um, .swapQueue, .out, .held] s (State.settleCohort s k peers) := by
  unfold State.settleCohort
  refine Same.foldl (fun y0 a0 => ?_) ?_
  · exact Same.mono State.settleOne_same (by decide)
  · exact Same.refl _ _

theorem State.settleSlice_same {s} {id} : Same [.fns, .slices, .out, .held] s (State.settleSlice s id) := by
  unfold State.settleSlice
  split
  · exact Same.refl _ _
  · refine Same.ite ?_ ?_
    · extract_lets -merge +onlyGivenNames x0
      extract_lets -merge +onlyGivenNames x1
      have h1 : Same [.fns, .slices, .out, .held] s x1 := by
        refine Same.upd ?_ (fun p hp => by cases p <;> first | exact absurd (by decide) hp | exact rfl)
        exact Same.refl _ _
      try clear_value x1
      split
      · refine Same.andThen State.completeAdmin_same (by decide) ?_
        exact h1
      · exact h1
    · exact Same.refl _ _

theorem State.sramData_same {s} {r} {rowMask} : Same [.seqs, .boot] s (State.sramData s r rowMask) := by
  unfold State.sramData
  split
  · exact Same.mono State.endRows_same (by decide)
  · exact Same.refl _ _

theorem State.sramHub_same {s} : Same Piece.changing s (State.sramHub s) := by
  unfold State.sramHub
  refine Same.ite ?_ ?_
  · refine Same.andThen State.packageFatal_same (fun _ q => q) ?_
    exact Same.mono (State.modBoot_same (fun _ => by first | rfl | simp | (split <;> rfl) | (dsimp only; split <;> rfl) | (dsimp only; (repeat' split) <;> rfl))) (by decide)
  · exact Same.refl _ _

theorem State.sramSync_same {s} {t} {w} : Same ([.fns, .tiles, .models, .seqs, .cohorts, .treeOps, .sync, .ports, .um, .swapQueue] ++ [.boot, .out, .held]) s (State.sramSync s t w) := by
  unfold State.sramSync
  extract_lets -merge +onlyGivenNames x0
  try clear_value x0
  extract_lets -merge +onlyGivenNames x1
  have h1 : Same ([.fns, .tiles, .models, .seqs, .cohorts, .treeOps, .sync, .ports, .um, .swapQueue] ++ [.boot, .out, .held]) s x1 := by
    unfold x1
    split
    · exact Same.mono State.cutCohort_same (by decide)
    · exact Same.refl _ _
  try clear_value x1
  extract_lets -merge +onlyGivenNames x2
  have h2 : Same ([.fns, .tiles, .models, .seqs, .cohorts, .treeOps, .sync, .ports, .um, .swapQueue] ++ [.boot, .out, .held]) s x2 := by
    refine Same.andThen State.modSync_same (by decide) ?_
    exact h1
  try clear_value x2
  refine Same.andThen State.releaseCredits_same (by decide) ?_
  refine Same.andThen State.putWord_same (by decide) ?_
  exact h2

theorem State.stallOn_same {s} {m} {c} {layer} : Same [.fns, .models, .cohorts, .out] s (State.stallOn s m c layer) := by
  unfold State.stallOn
  split
  · exact Same.refl _ _
  · refine Same.ite ?_ ?_
    · exact Same.refl _ _
    · refine Same.andThen State.modCohort_same (by decide) ?_
      exact Same.mono State.countStall_same (by decide)

theorem State.swapInPage_same {s} {q} {page} {f} {rec' : _} : Same [.models, .seqs, .swapStat] s (State.swapInPage s q page f rec') := by
  unfold State.swapInPage
  extract_lets -merge +onlyGivenNames x0
  extract_lets -merge +onlyGivenNames x1
  extract_lets -merge +onlyGivenNames x2
  extract_lets -merge +onlyGivenNames x3
  have h3 : Same [.models, .seqs, .swapStat] s x3 := by
    refine Same.andThen State.modSeq_same (by decide) ?_
    exact Same.mono State.putFrame_same (by decide)
  try clear_value x3
  refine Same.upd ?_ (fun p hp => by cases p <;> first | exact absurd (by decide) hp | exact rfl)
  exact h3

theorem State.swapOutPage_same {s} {h} {page} : Same [.models, .seqs, .swapStat] s (State.swapOutPage s h page) := by
  unfold State.swapOutPage
  split
  · exact Same.refl _ _
  · split
    · exact Same.refl _ _
    · extract_lets -merge +onlyGivenNames x0
      have h0 : Same [.models, .seqs, .swapStat] s x0 := by
        exact Same.mono State.modSeq_same (by decide)
      try clear_value x0
      extract_lets -merge +onlyGivenNames x1
      have h1 : Same [.models, .seqs, .swapStat] s x1 := by
        refine Same.andThen State.release_same (by decide) ?_
        exact h0
      try clear_value x1
      refine Same.upd ?_ (fun p hp => by cases p <;> first | exact absurd (by decide) hp | exact rfl)
      exact h1

theorem State.takePacket_same {s} {k} : Same [.inbox] s (State.takePacket s k) := by
  unfold State.takePacket
  refine Same.upd ?_ (fun p hp => by cases p <;> first | exact absurd (by decide) hp | exact rfl)
  exact Same.refl _ _

theorem State.takeSpan_same {s} {m} {handle} {home} {span} {frames} : Same [.models, .treeOps, .ports, .inbox, .spans, .msgId, .undelivered] s (State.takeSpan s m handle home span frames) := by
  unfold State.takeSpan
  extract_lets -merge +onlyGivenNames x0
  split
  · extract_lets -merge +onlyGivenNames x1
    have h1 : Same [.models, .treeOps, .ports, .inbox, .spans, .msgId, .undelivered] s x1 := by
      refine Same.foldl (fun y2 a2 => ?_) ?_
      · exact Same.mono State.putFrame_same (by decide)
      · refine SomeSame.ofSnd (by assumption) ?_
        refine SomeSame.andThen State.takeFrames_same (by decide) ?_
        exact Same.refl _ _
    try clear_value x1
    extract_lets -merge +onlyGivenNames x3
    have h3 : Same [.models, .treeOps, .ports, .inbox, .spans, .msgId, .undelivered] s x3 := by
      refine Same.upd ?_ (fun p hp => by cases p <;> first | exact absurd (by decide) hp | exact rfl)
      exact h1
    try clear_value x3
    refine Same.andThen State.relayMessage_same (by decide) ?_
    exact h3
  · exact Same.refl _ _

theorem State.takeType_same {s} {typ} : Same [.inbox] s (State.takeType s typ) := by
  unfold State.takeType
  split
  · refine Same.upd ?_ (fun p hp => by cases p <;> first | exact absurd (by decide) hp | exact rfl)
    exact Same.refl _ _
  · exact Same.refl _ _

theorem State.tellSlice_same {s} {x} {member} : Same [.ports, .inbox, .msgId, .undelivered] s (State.tellSlice s x member) := by
  unfold State.tellSlice
  exact Same.mono State.control_same (by decide)

theorem State.throttleEvent_same {s} : Same [.fns, .power, .out] s (State.throttleEvent s) := by
  unfold State.throttleEvent
  extract_lets -merge +onlyGivenNames x0
  refine Same.andThen State.modPower_same (by decide) ?_
  exact Same.mono State.event_same (by decide)

theorem State.train_same {s} {p} {r} : Same [.fns, .ports, .out] s (State.train s p r) := by
  unfold State.train
  extract_lets -merge +onlyGivenNames x0
  have h0 : Same [.fns, .ports, .out] s x0 := by
    exact Same.mono State.modPort_same (by decide)
  try clear_value x0
  refine Same.ite ?_ ?_
  · refine Same.andThen State.notUp_same (by decide) ?_
    exact h0
  · refine Same.ite ?_ ?_
    · refine Same.andThen State.notUp_same (by decide) ?_
      exact h0
    · extract_lets -merge +onlyGivenNames x1
      have h1 : Same [.fns, .ports, .out] s x1 := by
        refine Same.andThen State.noteLanes_same (by decide) ?_
        exact h0
      try clear_value x1
      refine Same.ite ?_ ?_
      · refine Same.andThen State.notUp_same (by decide) ?_
        exact h1
      · refine Same.ite ?_ ?_
        · refine Same.andThen State.notUp_same (by decide) ?_
          exact h1
        · split
          · refine Same.andThen State.notUp_same (by decide) ?_
            exact h1
          · extract_lets -merge +onlyGivenNames x2
            extract_lets -merge +onlyGivenNames x3
            have h3 : Same [.fns, .ports, .out] s x3 := by
              refine Same.andThen State.modPort_same (by decide) ?_
              exact h1
            try clear_value x3
            refine Same.andThen State.linkDegraded_same (by decide) ?_
            refine Same.andThen State.discovered_same (by decide) ?_
            refine Same.andThen State.derive_same (by decide) ?_
            exact h3

theorem State.trainAll_same {s} {which} {reports} : Same [.fns, .ports, .slices, .out] s (State.trainAll s which reports) := by
  unfold State.trainAll
  refine Same.andThen State.rerouteIdle_same (by decide) ?_
  refine Same.foldl (fun y0 a0 => ?_) ?_
  · refine Same.ite ?_ ?_
    · exact Same.mono State.train_same (by decide)
    · exact Same.refl _ _
  · exact Same.refl _ _

theorem State.trip_same {s} : Same Piece.changing s (State.trip s) := by
  unfold State.trip
  refine Same.ite ?_ ?_
  · exact Same.refl _ _
  · extract_lets -merge +onlyGivenNames x0
    have h0 : Same Piece.changing s x0 := by
      refine Same.andThen State.enterAon_same (fun _ q => q) ?_
      exact Same.mono State.modPower_same (by decide)
    try clear_value x0
    refine Same.upd ?_ (fun p hp => by cases p <;> first | exact absurd (by decide) hp | exact rfl)
    exact h0

theorem State.tryHeld_same {s} {i} : Same [.sync, .ports] s (State.tryHeld s i) := by
  unfold State.tryHeld
  split
  · exact Same.refl _ _
  · rename_i h heq
    extract_lets -merge +onlyGivenNames drop
    have hd : ∀ a, Same [.sync, .ports] a (drop a) := fun a =>
      State.releaseCredits_same.andThen (by decide) (State.modSync_same.mono (by decide))
    clear_value drop
    extract_lets -merge +onlyGivenNames step
    clear_value step
    refine Same.ite (Same.refl _ _) (Same.ite ?_ ?_)
    · exact State.syncResult_same.andThen (by decide) ((hd _).andThen (fun _ q => q) (State.modSync_same.mono (by decide)))
    · extract_lets -merge +onlyGivenNames r
      have hr : Same [.sync, .ports] s r.2 := State.applyFill_same.mono (by decide)
      clear_value r
      exact Same.ite (Same.refl _ _) (State.syncResult_same.andThen (by decide) ((hd _).andThen (fun _ q => q) hr))

theorem State.uncorrectable_same {s} {x} : Same [.tiles] s (State.uncorrectable s x) := by
  unfold State.uncorrectable
  exact Same.mono State.modEcc_same (by decide)

theorem State.updateCosts_same {s} {k} : Same [.models, .fresh] s (State.updateCosts s k) := by
  unfold State.updateCosts
  split
  · exact Same.refl _ _
  · refine Same.foldl (fun y0 a0 => ?_) ?_
    · extract_lets -merge +onlyGivenNames x1
      extract_lets -merge +onlyGivenNames x2
      have h2 : Same [.models, .fresh] y0 x2.2 := by
        exact Same.mono State.draw_same (by decide)
      try clear_value x2
      extract_lets -merge +onlyGivenNames x3
      have h3 : Same [.models, .fresh] y0 x3.2 := by
        refine Same.andThen State.draw_same (by decide) ?_
        exact h2
      try clear_value x3
      extract_lets -merge +onlyGivenNames x4
      refine Same.andThen State.modLoad_same (by decide) ?_
      exact h3
    · exact Same.refl _ _

theorem State.writeImage_same {s} {m} {im} {part} : Same [.flash] s (State.writeImage s m im part) := by
  unfold State.writeImage
  exact Same.mono State.modFlash_same (by decide)

set_option maxRecDepth 4000 in
theorem State.writePackage_same {s} {o} {lo} {w} {v} : Same [.sync, .scrubHours, .rateLimit, .boot, .power] s (State.writePackage s o lo w v) := by
  unfold State.writePackage
  extract_lets -merge +onlyGivenNames x0
  split
  · exact Same.mono State.modPower_same (by decide)
  · refine Same.ite ?_ ?_
    · exact Same.mono State.setCap_same (by decide)
    · exact Same.refl _ _
  · exact Same.mono State.modPower_same (by decide)
  · refine Same.upd ?_ (fun p hp => by cases p <;> first | exact absurd (by decide) hp | exact rfl)
    exact Same.refl _ _
  · exact Same.mono State.modSync_same (by decide)
  · exact Same.mono State.modSync_same (by decide)
  · refine Same.ite ?_ ?_
    · extract_lets -merge +onlyGivenNames x1
      refine Same.ite ?_ ?_
      · exact Same.mono (State.modBoot_same (fun _ => by first | rfl | simp | (split <;> rfl) | (dsimp only; split <;> rfl) | (dsimp only; (repeat' split) <;> rfl))) (by decide)
      · exact Same.refl _ _
    · exact Same.refl _ _

theorem State.writeRingCtl_same {s} {f} {k} {n} {lo} {w} {v} : Same [.fns, .seqs, .out, .held] s (State.writeRingCtl s f k n lo w v) := by
  unfold State.writeRingCtl
  extract_lets -merge +onlyGivenNames x0
  extract_lets -merge +onlyGivenNames x1
  extract_lets -merge +onlyGivenNames x2
  extract_lets -merge +onlyGivenNames z3_0 x3
  refine Same.ite ?_ ?_
  · exact Same.mono State.modRing_same (by decide)
  · refine Same.ite ?_ ?_
    · refine Same.ite ?_ ?_
      · exact Same.mono State.modRing_same (by decide)
      · refine Same.ite ?_ ?_
        · refine Same.andThen State.flushHeld_same (by decide) ?_
          exact Same.mono State.modRing_same (by decide)
        · exact Same.mono State.modRing_same (by decide)
    · refine Same.ite ?_ ?_
      · refine Same.andThen State.dbErr_same (by decide) ?_
        exact Same.mono State.modRing_same (by decide)
      · exact Same.mono State.modRing_same (by decide)

theorem State.writeRingBase_same {s} {f} {k} {n} {lo} {w} {v} : Same [.fns] s (State.writeRingBase s f k n lo w v) := by
  unfold State.writeRingBase
  exact Same.mono State.modRing_same (by decide)

theorem State.writeReg_same {s} {viewer} {off} {bytes} {value} : Same ([.fns, .tiles, .models, .seqs, .sync, .scrubHours, .rateLimit, .boot, .power, .out] ++ [.held]) s (State.writeReg s viewer off bytes value) := by
  unfold State.writeReg
  extract_lets -merge +onlyGivenNames x0
  try clear_value x0
  refine Same.ite ?_ ?_
  · exact Same.refl _ _
  · refine Same.ite ?_ ?_
    · exact Same.mono (State.modBoot_same (fun _ => by first | rfl | simp | (split <;> rfl) | (dsimp only; split <;> rfl) | (dsimp only; (repeat' split) <;> rfl))) (by decide)
    · refine Same.ite ?_ ?_
      · exact Same.refl _ _
      · extract_lets -merge +onlyGivenNames x1
        extract_lets -merge +onlyGivenNames x2
        extract_lets -merge +onlyGivenNames x3
        split
        · exact Same.mono (State.modBoot_same (fun _ => by first | rfl | simp | (split <;> rfl) | (dsimp only; split <;> rfl) | (dsimp only; (repeat' split) <;> rfl))) (by decide)
        · exact Same.mono State.writePackage_same (by decide)
        · exact Same.mono State.modModel_same (by decide)
        · exact Same.mono State.modTile_same (by decide)
        · exact Same.mono State.modTile_same (by decide)
        · exact Same.mono State.selectLayer_same (by decide)
        · exact Same.mono State.modTile_same (by decide)
        · split
          · exact Same.mono State.writeRingCtl_same (by decide)
          · exact Same.mono State.writeRingBase_same (by decide)
          · exact Same.refl _ _
        · exact Same.refl _ _

theorem idle_same {s} : Same [.boot] s (idle s) := by
  unfold idle
  refine Same.ite ?_ ?_
  · refine Same.upd ?_ (fun p hp => by cases p <;> first | exact absurd (by decide) hp | exact rfl)
    exact Same.refl _ _
  · exact Same.refl _ _

end Sys2Proof.Machine
end

