-- ==== Sys2Proof/Laws/FrameExec.lean ====
section
/-!
SUPPORT. Sys2Proof/Laws/FrameExec.lean: for each command, the parts of State it may change.
-/
namespace Sys2Proof.Machine

theorem execAdmit_same {e} {model} {traffic} {emitSet} {policy} {bias} {abias} {peersOk} {s} : Leaves [.fns, .models, .seqs, .treeOps, .sync, .out, .held] s (execAdmit e model traffic emitSet policy bias abias peersOk s) := by
  unfold execAdmit
  split
  · refine Leaves.done ?_
    exact Same.mono State.completeReq_same (by decide)
  · refine Leaves.ite ?_ ?_
    · refine Leaves.done ?_
      exact Same.mono State.completeReq_same (by decide)
    · split
      · refine Leaves.done ?_
        exact Same.mono State.completeReq_same (by decide)
      · extract_lets -merge +onlyGivenNames x0
        split
        · refine Leaves.done ?_
          exact Same.mono State.completeReq_same (by decide)
        · refine Leaves.ite ?_ ?_
          · refine Leaves.done ?_
            exact Same.mono State.completeReq_same (by decide)
          · extract_lets -merge +onlyGivenNames x1
            refine Leaves.ite ?_ ?_
            · refine Leaves.done ?_
              exact Same.mono State.completeReq_same (by decide)
            · split
              · extract_lets -merge +onlyGivenNames x2
                extract_lets -merge +onlyGivenNames x3
                extract_lets -merge +onlyGivenNames x4
                extract_lets -merge +onlyGivenNames x5
                have h5 : Same [.fns, .models, .seqs, .treeOps, .sync, .out, .held] s x5 := by
                  refine Same.upd ?_ (fun p hp => by cases p <;> first | exact absurd (by decide) hp | exact rfl)
                  refine SomeSame1.of (by assumption) ?_
                  refine SomeSame1.andThen State.growGuard_same (by decide) ?_
                  exact Same.refl _ _
                try clear_value x5
                extract_lets -merge +onlyGivenNames x6
                have h6 : Same [.fns, .models, .seqs, .treeOps, .sync, .out, .held] s x6 := by
                  refine Same.andThen State.pageLow_same (by decide) ?_
                  refine Same.andThen State.bindOwner_same (by decide) ?_
                  exact h5
                try clear_value x6
                refine Leaves.done ?_
                refine Same.andThen State.completeReq_same (by decide) ?_
                exact h6
              · refine Leaves.done ?_
                exact Same.mono State.completeReq_same (by decide)

theorem execIngest_same {e} {handle} {fin} {tokens} {s} : Leaves [.fns, .models, .seqs, .treeOps, .out, .held] s (execIngest e handle fin tokens s) := by
  unfold execIngest
  refine Leaves.ite ?_ ?_
  · refine Leaves.done ?_
    exact Same.mono State.refuse_same (by decide)
  · split
    · refine Leaves.done ?_
      exact Same.mono State.refuse_same (by decide)
    · refine Leaves.ite ?_ ?_
      · refine Leaves.done ?_
        exact Same.mono State.finishReq_same (by decide)
      · refine Leaves.ite ?_ ?_
        · refine Leaves.done ?_
          exact Same.mono State.finishReq_same (by decide)
        · refine Leaves.done ?_
          exact Same.mono State.acceptChunk_same (by decide)

theorem execImportKv_same {e} {handle} {positions} {bufs} {peersOk} {s} : Leaves [.fns, .models, .seqs, .treeOps, .out, .held] s (execImportKv e handle positions bufs peersOk s) := by
  unfold execImportKv
  refine Leaves.ite ?_ ?_
  · refine Leaves.done ?_
    exact Same.mono State.refuse_same (by decide)
  · split
    · refine Leaves.done ?_
      exact Same.mono State.refuse_same (by decide)
    · refine Leaves.ite ?_ ?_
      · refine Leaves.done ?_
        exact Same.mono State.finishReq_same (by decide)
      · refine Leaves.ite ?_ ?_
        · refine Leaves.done ?_
          exact Same.mono State.finishReq_same (by decide)
        · split
          · refine Leaves.done ?_
            exact Same.mono State.finishReq_same (by decide)
          · refine Leaves.done ?_
            refine Same.andThen State.pageLow_same (by decide) ?_
            refine SomeSame1.of (by assumption) ?_
            refine SomeSame1.andThen State.takeImport_same (by decide) ?_
            exact Same.refl _ _

theorem execImportComplete_same {handle} {readOk} {data} {s} : Leaves [.fns, .models, .seqs, .boot, .out, .held] s (execImportComplete handle readOk data s) := by
  unfold execImportComplete
  split
  · refine Leaves.done ?_
    exact Same.refl _ _
  · split
    · refine Leaves.done ?_
      exact Same.refl _ _
    · refine Leaves.ite ?_ ?_
      · extract_lets -merge +onlyGivenNames x0
        have h0 : Same [.fns, .models, .seqs, .boot, .out, .held] s x0 := by
          exact Same.mono State.linkImport_same (by decide)
        try clear_value x0
        split
        · refine Leaves.done ?_
          refine Same.andThen State.finishReq_same (by decide) ?_
          refine Same.andThen State.summariseBack_same (by decide) ?_
          exact h0
        · refine Leaves.done ?_
          exact h0
      · extract_lets -merge +onlyGivenNames x1
        have h1 : Same [.fns, .models, .seqs, .boot, .out, .held] s x1 := by
          refine Same.andThen State.modSeq_same (by decide) ?_
          exact Same.mono State.giveBackAll_same (by decide)
        try clear_value x1
        refine Leaves.done ?_
        refine Same.andThen State.finishReq_same (by decide) ?_
        refine Same.andThen State.logHostRead_same (by decide) ?_
        exact h1

theorem execExtend_same {e} {handle} {tokens} {swap} {peersOk} {s} : Leaves [.fns, .models, .seqs, .treeOps, .swapQueue, .out, .held] s (execExtend e handle tokens swap peersOk s) := by
  unfold execExtend
  refine Leaves.ite ?_ ?_
  · refine Leaves.done ?_
    exact Same.mono State.refuse_same (by decide)
  · split
    · refine Leaves.done ?_
      exact Same.mono State.refuse_same (by decide)
    · extract_lets -merge +onlyGivenNames x0
      refine Leaves.ite ?_ ?_
      · refine Leaves.done ?_
        exact Same.mono State.finishReq_same (by decide)
      · refine Leaves.ite ?_ ?_
        · refine Leaves.done ?_
          exact Same.mono State.finishReq_same (by decide)
        · refine Leaves.ite ?_ ?_
          · refine Leaves.done ?_
            exact Same.mono State.finishReq_same (by decide)
          · split
            · refine Leaves.done ?_
              exact Same.mono State.finishReq_same (by decide)
            · refine Leaves.done ?_
              refine Same.andThen State.pageLow_same (by decide) ?_
              refine SomeSame1.of (by assumption) ?_
              refine SomeSame1.andThen State.extendSeq_same (by decide) ?_
              exact Same.refl _ _

theorem execSetPolicy_same {e} {handle} {keep} {policy} {bias} {abias} {s} : Leaves [.fns, .seqs, .out, .held] s (execSetPolicy e handle keep policy bias abias s) := by
  unfold execSetPolicy
  refine Leaves.ite ?_ ?_
  · refine Leaves.done ?_
    exact Same.mono State.refuse_same (by decide)
  · split
    · refine Leaves.done ?_
      exact Same.mono State.refuse_same (by decide)
    · refine Leaves.ite ?_ ?_
      · refine Leaves.done ?_
        exact Same.mono State.finishReq_same (by decide)
      · extract_lets -merge +onlyGivenNames x0
        extract_lets -merge +onlyGivenNames x1
        extract_lets -merge +onlyGivenNames x2
        have h2 : Same [.fns, .seqs, .out, .held] s x2 := by
          exact Same.mono State.modSeq_same (by decide)
        try clear_value x2
        refine Leaves.done ?_
        refine Same.ite ?_ ?_
        · exact h2
        · refine Same.andThen State.applyPolicy_same (by decide) ?_
          exact h2

theorem execPreempt_same {e} {handle} {swap} {s} : Leaves [.fns, .models, .seqs, .treeOps, .sync, .um, .swapQueue, .out, .held] s (execPreempt e handle swap s) := by
  unfold execPreempt
  split
  · refine Leaves.done ?_
    exact Same.mono State.refuse_same (by decide)
  · refine Leaves.ite ?_ ?_
    · refine Leaves.done ?_
      exact Same.mono State.finishReq_same (by decide)
    · refine Leaves.ite ?_ ?_
      · refine Leaves.done ?_
        exact Same.mono State.finishReq_same (by decide)
      · refine Leaves.ite ?_ ?_
        · refine Leaves.done ?_
          exact Same.mono State.finishReq_same (by decide)
        · extract_lets -merge +onlyGivenNames z0_0 x0
          have h0 : Same [.fns, .models, .seqs, .treeOps, .sync, .um, .swapQueue, .out, .held] s x0 := by
            refine Same.upd ?_ (fun p hp => by cases p <;> first | exact absurd (by decide) hp | exact rfl)
            exact Same.mono State.modSeq_same (by decide)
          try clear_value x0
          refine Leaves.done ?_
          refine Same.ite ?_ ?_
          · exact h0
          · refine Same.andThen State.takePreempt_same (by decide) ?_
            exact h0

theorem execResume_same {e} {handle} {swap} {peersOk} {s} : Leaves [.fns, .models, .seqs, .treeOps, .sync, .swapQueue, .out, .held] s (execResume e handle swap peersOk s) := by
  unfold execResume
  split
  · refine Leaves.done ?_
    exact Same.mono State.refuse_same (by decide)
  · refine Leaves.ite ?_ ?_
    · refine Leaves.done ?_
      exact Same.mono State.finishReq_same (by decide)
    · refine Leaves.ite ?_ ?_
      · refine Leaves.done ?_
        exact Same.mono State.finishReq_same (by decide)
      · split
        · refine Leaves.done ?_
          exact Same.mono State.finishReq_same (by decide)
        · extract_lets -merge +onlyGivenNames x0
          have h0 : Same [.fns, .models, .seqs, .treeOps, .sync, .swapQueue, .out, .held] s x0 := by
            refine Same.andThen State.enterResuming_same (by decide) ?_
            refine SomeSame.ofSnd (by assumption) ?_
            refine SomeSame.andThen State.takeBack_same (by decide) ?_
            exact Same.refl _ _
          try clear_value x0
          refine Leaves.done ?_
          refine Same.andThen State.pageLow_same (by decide) ?_
          refine Same.andThen State.rebindOwner_same (by decide) ?_
          exact h0

theorem execCancel_same {e} {handle} {s} : Leaves [.fns, .models, .seqs, .treeOps, .sync, .um, .swapQueue, .out, .held] s (execCancel e handle s) := by
  unfold execCancel
  split
  · refine Leaves.done ?_
    exact Same.mono State.refuse_same (by decide)
  · refine Leaves.ite ?_ ?_
    · refine Leaves.done ?_
      exact Same.mono State.finishReq_same (by decide)
    · refine Leaves.ite ?_ ?_
      · refine Leaves.done ?_
        exact Same.mono State.cancelSwap_same (by decide)
      · extract_lets -merge +onlyGivenNames x0
        have h0 : Same [.fns, .models, .seqs, .treeOps, .sync, .um, .swapQueue, .out, .held] s x0 := by
          exact Same.mono State.modSeq_same (by decide)
        try clear_value x0
        refine Leaves.done ?_
        refine Same.ite ?_ ?_
        · exact h0
        · refine Same.andThen State.endSeq_same (by decide) ?_
          exact h0

theorem execRelease_same {e} {handle} {s} : Leaves [.fns, .models, .seqs, .reuse, .sync, .um, .swapQueue, .out, .held] s (execRelease e handle s) := by
  unfold execRelease
  split
  · refine Leaves.done ?_
    exact Same.mono State.refuse_same (by decide)
  · refine Leaves.done ?_
    refine Same.andThen State.freeSeq_same (by decide) ?_
    exact Same.mono State.finishReq_same (by decide)

theorem execModelInstall_same {e} {model} {imageLen} {readOk} {img} {key} {s} : Leaves [.fns, .tiles, .models, .flash, .boot, .out, .held, .fresh] s (execModelInstall e model imageLen readOk img key s) := by
  unfold execModelInstall
  refine Leaves.done ?_
  unfold State.onSlot
  split
  · exact Same.mono State.completeAdmin_same (by decide)
  · refine Same.ite ?_ ?_
    · exact Same.mono State.completeAdmin_same (by decide)
    · refine Same.ite ?_ ?_
      · exact Same.mono State.completeAdmin_same (by decide)
      · refine Same.ite ?_ ?_
        · refine Same.andThen State.completeAdmin_same (by decide) ?_
          exact Same.mono State.logHostRead_same (by decide)
        · extract_lets -merge +onlyGivenNames x0
          split
          · extract_lets -merge +onlyGivenNames x1
            have h1 : Same [.fns, .tiles, .models, .flash, .boot, .out, .held, .fresh] s x1.2 := by
              exact Same.mono State.imageDetail_same (by decide)
            try clear_value x1
            refine Same.andThen State.completeAdmin_same (by decide) ?_
            exact h1
          · refine Same.ite ?_ ?_
            · exact Same.mono State.completeAdmin_same (by decide)
            · extract_lets -merge +onlyGivenNames x2
              have h2 : Same [.fns, .tiles, .models, .flash, .boot, .out, .held, .fresh] s x2 := by
                refine Same.andThen State.writeImage_same (by decide) ?_
                exact Same.mono State.modModel_same (by decide)
              try clear_value x2
              split
              · extract_lets -merge +onlyGivenNames x3
                have h3 : Same [.fns, .tiles, .models, .flash, .boot, .out, .held, .fresh] s x3.2 := by
                  refine Same.andThen State.imageDetail_same (by decide) ?_
                  exact h2
                try clear_value x3
                refine Same.andThen State.completeAdmin_same (by decide) ?_
                refine Same.andThen State.eraseSlot_same (by decide) ?_
                exact h3
              · exact h2

theorem execInstallCommit_same {model} {s} : Leaves [.fns, .models, .flash, .out, .held] s (execInstallCommit model s) := by
  unfold execInstallCommit
  split
  · refine Leaves.ite ?_ ?_
    · refine Leaves.done ?_
      exact Same.refl _ _
    · extract_lets -merge +onlyGivenNames x0
      have h0 : Same [.fns, .models, .flash, .out, .held] s x0 := by
        exact Same.mono State.modModel_same (by decide)
      try clear_value x0
      refine Leaves.done ?_
      refine Same.andThen State.completeAdmin_same (by decide) ?_
      refine Same.andThen State.modFlash_same (by decide) ?_
      exact h0
  · refine Leaves.done ?_
    exact Same.refl _ _

theorem execModelLoad_same {e} {model} {sliceId} {key} {s} : Leaves [.fns, .tiles, .models, .sync, .power, .out, .held] s (execModelLoad e model sliceId key s) := by
  unfold execModelLoad
  refine Leaves.done ?_
  unfold State.onSlot
  split
  · exact Same.mono State.completeAdmin_same (by decide)
  · refine Same.ite ?_ ?_
    · exact Same.mono State.completeAdmin_same (by decide)
    · refine Same.ite ?_ ?_
      · exact Same.mono State.completeAdmin_same (by decide)
      · refine Same.ite ?_ ?_
        · exact Same.mono State.completeAdmin_same (by decide)
        · refine Same.ite ?_ ?_
          · exact Same.mono State.completeAdmin_same (by decide)
          · split
            · refine Same.ite ?_ ?_
              · exact Same.mono State.completeAdmin_same (by decide)
              · split
                · exact Same.mono State.completeAdmin_same (by decide)
                · exact Same.mono State.beginLoad_same (by decide)
            · exact Same.mono State.completeAdmin_same (by decide)

theorem execLoadComplete_same {model} {lost} {s} : Leaves ([.fns, .tiles, .models, .cohorts, .nextCohorts, .treeOps, .cands, .sampled, .sync, .spans] ++ [.boot, .power, .out, .held]) s (execLoadComplete model lost s) := by
  unfold execLoadComplete
  split
  · refine Leaves.done ?_
    exact Same.refl _ _
  · refine Leaves.ite ?_ ?_
    · refine Leaves.done ?_
      exact Same.refl _ _
    · split
      · extract_lets -merge +onlyGivenNames x0
        extract_lets -merge +onlyGivenNames x1
        have h1 : Same ([.fns, .tiles, .models, .cohorts, .nextCohorts, .treeOps, .cands, .sampled, .sync, .spans] ++ [.boot, .power, .out, .held]) s x1 := by
          refine Same.andThen State.modModel_same (by decide) ?_
          exact Same.mono State.freeLoad_same (by decide)
        try clear_value x1
        extract_lets -merge +onlyGivenNames x2
        have h2 : Same ([.fns, .tiles, .models, .cohorts, .nextCohorts, .treeOps, .cands, .sampled, .sync, .spans] ++ [.boot, .power, .out, .held]) s x2 := by
          refine Same.andThen State.logError_same (by decide) ?_
          exact h1
        try clear_value x2
        extract_lets -merge +onlyGivenNames x3
        extract_lets -merge +onlyGivenNames x4
        have h4 : Same ([.fns, .tiles, .models, .cohorts, .nextCohorts, .treeOps, .cands, .sampled, .sync, .spans] ++ [.boot, .power, .out, .held]) s x4 := by
          refine Same.ite ?_ ?_
          · exact h2
          · refine Same.andThen State.event_same (by decide) ?_
            exact h2
        try clear_value x4
        refine Leaves.done ?_
        refine Same.andThen State.completeAdmin_same (by decide) ?_
        exact h4
      · extract_lets -merge +onlyGivenNames x5
        extract_lets -merge +onlyGivenNames x6
        have h6 : Same ([.fns, .tiles, .models, .cohorts, .nextCohorts, .treeOps, .cands, .sampled, .sync, .spans] ++ [.boot, .power, .out, .held]) s x6 := by
          refine Same.andThen State.modModel_same (by decide) ?_
          exact Same.mono State.placeResident_same (by decide)
        try clear_value x6
        extract_lets -merge +onlyGivenNames x7
        have h7 : Same ([.fns, .tiles, .models, .cohorts, .nextCohorts, .treeOps, .cands, .sampled, .sync, .spans] ++ [.boot, .power, .out, .held]) s x7 := by
          refine Same.andThen State.modLoad_same (by decide) ?_
          exact h6
        try clear_value x7
        extract_lets -merge +onlyGivenNames x8
        have h8 : Same ([.fns, .tiles, .models, .cohorts, .nextCohorts, .treeOps, .cands, .sampled, .sync, .spans] ++ [.boot, .power, .out, .held]) s x8 := by
          refine Same.andThen State.modPower_same (by decide) ?_
          exact h7
        try clear_value x8
        refine Leaves.done ?_
        refine Same.andThen State.completeAdmin_same (by decide) ?_
        exact h8

theorem execModelUnload_same {e} {model} {s} : Leaves ([.fns, .tiles, .models, .cohorts, .nextCohorts, .treeOps, .cands, .sampled, .sync, .slices] ++ [.spans, .out, .held]) s (execModelUnload e model s) := by
  unfold execModelUnload
  refine Leaves.done ?_
  unfold State.onSlot
  split
  · exact Same.mono State.completeAdmin_same (by decide)
  · refine Same.ite ?_ ?_
    · exact Same.mono State.completeAdmin_same (by decide)
    · refine Same.ite ?_ ?_
      · exact Same.mono State.completeAdmin_same (by decide)
      · refine Same.andThen State.completeAdmin_same (by decide) ?_
        refine Same.andThen State.rerouteIdle_same (by decide) ?_
        exact Same.mono State.freeLoad_same (by decide)

theorem execModelErase_same {e} {model} {s} : Leaves [.fns, .tiles, .models, .flash, .out, .held] s (execModelErase e model s) := by
  unfold execModelErase
  refine Leaves.done ?_
  unfold State.onSlot
  split
  · exact Same.mono State.completeAdmin_same (by decide)
  · refine Same.ite ?_ ?_
    · exact Same.mono State.completeAdmin_same (by decide)
    · refine Same.ite ?_ ?_
      · refine Same.andThen State.completeAdmin_same (by decide) ?_
        exact Same.mono State.eraseSlot_same (by decide)
      · exact Same.mono State.completeAdmin_same (by decide)

theorem execTenantCreate_same {e} {fn} {pfx} {classMap} {relayEn} {loupeAllow} {swapKey} {prefixKey} {s} : Leaves [.fns, .um, .out, .held] s (execTenantCreate e fn pfx classMap relayEn loupeAllow swapKey prefixKey s) := by
  unfold execTenantCreate
  refine Leaves.done ?_
  refine Same.ite ?_ ?_
  · exact Same.mono State.completeAdmin_same (by decide)
  · unfold State.fromPf
    refine Same.ite ?_ ?_
    · refine Same.ite ?_ ?_
      · exact Same.mono State.completeAdmin_same (by decide)
      · refine Same.ite ?_ ?_
        · exact Same.mono State.completeAdmin_same (by decide)
        · extract_lets -merge +onlyGivenNames x0
          refine Same.andThen State.completeAdmin_same (by decide) ?_
          exact Same.mono (State.modUm_same (fun _ => by first | rfl | simp | (split <;> rfl) | (dsimp only; split <;> rfl) | (dsimp only; (repeat' split) <;> rfl))) (by decide)
    · exact Same.mono State.completeAdmin_same (by decide)

theorem execTenantDestroy_same {e} {fn} {s} : Leaves ([.fns, .tiles, .models, .seqs, .reuse, .cohorts, .nextCohorts, .treeOps, .cands, .sampled] ++ [.sync, .slices, .spans, .um, .flash, .swapQueue, .out, .held]) s (execTenantDestroy e fn s) := by
  unfold execTenantDestroy
  refine Leaves.done ?_
  unfold State.fromPf
  refine Same.ite ?_ ?_
  · refine Same.ite ?_ ?_
    · exact Same.mono State.completeAdmin_same (by decide)
    · refine Same.ite ?_ ?_
      · exact Same.mono State.completeAdmin_same (by decide)
      · exact Same.mono State.disableFor_same (by decide)
  · exact Same.mono State.completeAdmin_same (by decide)

theorem execKeyInstall_same {e} {fn} {kind} {wrapped} {s} : Leaves [.fns, .um, .out, .held] s (execKeyInstall e fn kind wrapped s) := by
  unfold execKeyInstall
  refine Leaves.done ?_
  split
  · exact Same.mono State.completeAdmin_same (by decide)
  · refine Same.ite ?_ ?_
    · exact Same.mono State.completeAdmin_same (by decide)
    · refine Same.ite ?_ ?_
      · refine Same.ite ?_ ?_
        · exact Same.mono State.completeAdmin_same (by decide)
        · refine Same.andThen State.completeAdmin_same (by decide) ?_
          exact Same.mono (State.modUm_same (fun _ => by first | rfl | simp | (split <;> rfl) | (dsimp only; split <;> rfl) | (dsimp only; (repeat' split) <;> rfl))) (by decide)
      · refine Same.andThen State.completeAdmin_same (by decide) ?_
        exact Same.mono (State.modUm_same (fun _ => by first | rfl | simp | (split <;> rfl) | (dsimp only; split <;> rfl) | (dsimp only; (repeat' split) <;> rfl))) (by decide)

theorem execPagePoolSet_same {e} {model} {fn} {setPool} {frames} {lowWater} {limit} {maxSeq} {s} : Leaves [.fns, .models, .out, .held] s (execPagePoolSet e model fn setPool frames lowWater limit maxSeq s) := by
  unfold execPagePoolSet
  refine Leaves.ite ?_ ?_
  · refine Leaves.done ?_
    exact Same.mono State.completeAdmin_same (by decide)
  · refine Leaves.ite ?_ ?_
    · refine Leaves.done ?_
      exact Same.mono State.completeAdmin_same (by decide)
    · refine Leaves.done ?_
      unfold State.onSlot
      split
      · exact Same.mono State.completeAdmin_same (by decide)
      · refine Same.ite ?_ ?_
        · exact Same.mono State.completeAdmin_same (by decide)
        · refine Same.ite ?_ ?_
          · exact Same.mono State.completeAdmin_same (by decide)
          · refine Same.ite ?_ ?_
            · exact Same.mono State.completeAdmin_same (by decide)
            · extract_lets -merge +onlyGivenNames x0
              have h0 : Same [.fns, .models, .out, .held] s x0 := by
                exact Same.mono State.modPool_same (by decide)
              try clear_value x0
              refine Same.andThen State.completeAdmin_same (by decide) ?_
              refine Same.andThen State.pageLow_same (by decide) ?_
              exact h0

theorem execConfigStage_same {e} {loupeMode} {s} : Leaves [.fns, .um, .out, .held, .fresh] s (execConfigStage e loupeMode s) := by
  unfold execConfigStage
  refine Leaves.done ?_
  refine Same.ite ?_ ?_
  · exact Same.mono State.completeAdmin_same (by decide)
  · unfold State.fromPf
    refine Same.ite ?_ ?_
    · extract_lets -merge +onlyGivenNames x0
      extract_lets -merge +onlyGivenNames x1
      have h1 : Same [.fns, .um, .out, .held, .fresh] s x1 := by
        exact Same.mono (State.modUm_same (fun _ => by first | rfl | simp | (split <;> rfl) | (dsimp only; split <;> rfl) | (dsimp only; (repeat' split) <;> rfl))) (by decide)
      try clear_value x1
      extract_lets -merge +onlyGivenNames x2
      have h2 : Same [.fns, .um, .out, .held, .fresh] s x2 := by
        refine Same.upd ?_ (fun p hp => by cases p <;> first | exact absurd (by decide) hp | exact rfl)
        exact h1
      try clear_value x2
      extract_lets -merge +onlyGivenNames x3
      refine Same.andThen State.completeAdmin_same (by decide) ?_
      refine Same.andThen (State.modUm_same (fun _ => by first | rfl | simp | (split <;> rfl) | (dsimp only; split <;> rfl) | (dsimp only; (repeat' split) <;> rfl))) (by decide) ?_
      exact h2
    · exact Same.mono State.completeAdmin_same (by decide)

theorem execConfigCommit_same {e} {digest} {s} : Leaves [.fns, .um, .out, .held] s (execConfigCommit e digest s) := by
  unfold execConfigCommit
  refine Leaves.done ?_
  unfold State.fromPf
  refine Same.ite ?_ ?_
  · split
    · exact Same.mono State.completeAdmin_same (by decide)
    · refine Same.ite ?_ ?_
      · exact Same.mono State.completeAdmin_same (by decide)
      · extract_lets -merge +onlyGivenNames x0
        refine Same.andThen State.completeAdmin_same (by decide) ?_
        exact Same.mono (State.modUm_same (fun _ => by first | rfl | simp | (split <;> rfl) | (dsimp only; split <;> rfl) | (dsimp only; (repeat' split) <;> rfl))) (by decide)
  · exact Same.mono State.completeAdmin_same (by decide)

theorem execConfigConfirm_same {e} {s} : Leaves [.fns, .um, .out, .held] s (execConfigConfirm e s) := by
  unfold execConfigConfirm
  refine Leaves.done ?_
  unfold State.fromPf
  refine Same.ite ?_ ?_
  · split
    · refine Same.ite ?_ ?_
      · exact Same.mono State.completeAdmin_same (by decide)
      · refine Same.andThen State.completeAdmin_same (by decide) ?_
        exact Same.mono (State.modUm_same (fun _ => by first | rfl | simp | (split <;> rfl) | (dsimp only; split <;> rfl) | (dsimp only; (repeat' split) <;> rfl))) (by decide)
    · exact Same.mono State.completeAdmin_same (by decide)
  · exact Same.mono State.completeAdmin_same (by decide)

theorem execConfigRevert_same {e} {s} : Leaves [.fns, .um, .out, .held] s (execConfigRevert e s) := by
  unfold execConfigRevert
  refine Leaves.done ?_
  unfold State.fromPf
  refine Same.ite ?_ ?_
  · refine Same.ite ?_ ?_
    · exact Same.mono State.completeAdmin_same (by decide)
    · split
      · refine Same.andThen State.completeAdmin_same (by decide) ?_
        exact Same.mono (State.modUm_same (fun _ => by first | rfl | simp | (split <;> rfl) | (dsimp only; split <;> rfl) | (dsimp only; (repeat' split) <;> rfl))) (by decide)
      · exact Same.mono State.completeAdmin_same (by decide)
  · exact Same.mono State.completeAdmin_same (by decide)

theorem execFwStage_same {e} {readOk} {img} {s} : Leaves [.fns, .um, .boot, .out, .held] s (execFwStage e readOk img s) := by
  unfold execFwStage
  refine Leaves.done ?_
  unfold State.fromPf
  refine Same.ite ?_ ?_
  · extract_lets -merge +onlyGivenNames x0
    refine Same.ite ?_ ?_
    · exact Same.mono State.completeAdmin_same (by decide)
    · refine Same.ite ?_ ?_
      · refine Same.andThen State.completeAdmin_same (by decide) ?_
        refine Same.andThen State.logHostRead_same (by decide) ?_
        exact Same.mono (State.modUm_same (fun _ => by first | rfl | simp | (split <;> rfl) | (dsimp only; split <;> rfl) | (dsimp only; (repeat' split) <;> rfl))) (by decide)
      · refine Same.ite ?_ ?_
        · refine Same.andThen State.completeAdmin_same (by decide) ?_
          exact Same.mono (State.modUm_same (fun _ => by first | rfl | simp | (split <;> rfl) | (dsimp only; split <;> rfl) | (dsimp only; (repeat' split) <;> rfl))) (by decide)
        · refine Same.andThen State.completeAdmin_same (by decide) ?_
          exact Same.mono (State.modUm_same (fun _ => by first | rfl | simp | (split <;> rfl) | (dsimp only; split <;> rfl) | (dsimp only; (repeat' split) <;> rfl))) (by decide)
  · exact Same.mono State.completeAdmin_same (by decide)

theorem execFwActivate_same {e} {accepted} {s} : Leaves [.fns, .um, .out, .held] s (execFwActivate e accepted s) := by
  unfold execFwActivate
  refine Leaves.done ?_
  unfold State.fromPf
  refine Same.ite ?_ ?_
  · extract_lets -merge +onlyGivenNames x0
    split
    · exact Same.mono State.completeAdmin_same (by decide)
    · refine Same.ite ?_ ?_
      · exact Same.mono State.completeAdmin_same (by decide)
      · refine Same.ite ?_ ?_
        · exact Same.mono State.completeAdmin_same (by decide)
        · refine Same.ite ?_ ?_
          · exact Same.mono State.completeAdmin_same (by decide)
          · refine Same.andThen State.completeAdmin_same (by decide) ?_
            exact Same.mono (State.modUm_same (fun _ => by first | rfl | simp | (split <;> rfl) | (dsimp only; split <;> rfl) | (dsimp only; (repeat' split) <;> rfl))) (by decide)
  · exact Same.mono State.completeAdmin_same (by decide)

theorem execSliceDefine_same {e} {sliceId} {fn} {members} {ringLen} {relaySpan} {listAddr} {list} {s} : Leaves [.fns, .ports, .slices, .inbox, .msgId, .undelivered, .out, .held] s (execSliceDefine e sliceId fn members ringLen relaySpan listAddr list s) := by
  unfold execSliceDefine
  refine Leaves.done ?_
  refine Same.ite ?_ ?_
  · exact Same.mono State.completeAdmin_same (by decide)
  · unfold State.fromPf
    refine Same.ite ?_ ?_
    · extract_lets -merge +onlyGivenNames x0
      extract_lets -merge +onlyGivenNames x1
      refine Same.ite ?_ ?_
      · exact Same.mono State.completeAdmin_same (by decide)
      · extract_lets -merge +onlyGivenNames x2
        extract_lets -merge +onlyGivenNames x3
        have h3 : Same [.fns, .ports, .slices, .inbox, .msgId, .undelivered, .out, .held] s x3 := by
          refine Same.upd ?_ (fun p hp => by cases p <;> first | exact absurd (by decide) hp | exact rfl)
          exact Same.refl _ _
        refine Same.andThen State.settleSlice_same (by decide) ?_
        refine Same.foldl (fun y4 a4 => ?_) ?_
        · exact Same.mono State.tellSlice_same (by decide)
        · exact h3
    · exact Same.mono State.completeAdmin_same (by decide)

theorem execSliceRemove_same {e} {sliceId} {fn} {s} : Leaves [.fns, .slices, .out, .held] s (execSliceRemove e sliceId fn s) := by
  unfold execSliceRemove
  refine Leaves.done ?_
  refine Same.ite ?_ ?_
  · exact Same.mono State.completeAdmin_same (by decide)
  · unfold State.fromPf
    refine Same.ite ?_ ?_
    · extract_lets -merge +onlyGivenNames x0
      refine Same.ite ?_ ?_
      · exact Same.mono State.completeAdmin_same (by decide)
      · refine Same.andThen State.completeAdmin_same (by decide) ?_
        refine Same.upd ?_ (fun p hp => by cases p <;> first | exact absurd (by decide) hp | exact rfl)
        exact Same.refl _ _
    · exact Same.mono State.completeAdmin_same (by decide)

theorem execSliceAgreementTimeout_same {sliceId} {s} : Leaves [.fns, .slices, .out, .held] s (execSliceAgreementTimeout sliceId s) := by
  unfold execSliceAgreementTimeout
  split
  · refine Leaves.done ?_
    exact Same.refl _ _
  · extract_lets -merge +onlyGivenNames x0
    have h0 : Same [.fns, .slices, .out, .held] s x0 := by
      refine Same.upd ?_ (fun p hp => by cases p <;> first | exact absurd (by decide) hp | exact rfl)
      exact Same.refl _ _
    try clear_value x0
    refine Leaves.done ?_
    split
    · refine Same.andThen State.completeAdmin_same (by decide) ?_
      exact h0
    · exact h0

theorem execRouteLoad_same {e} {rackId} {slotMask} {boardMask} {uplink} {reserved} {table} {s} : Leaves [.fns, .ports, .slices, .um, .out, .held] s (execRouteLoad e rackId slotMask boardMask uplink reserved table s) := by
  unfold execRouteLoad
  refine Leaves.done ?_
  refine Same.ite ?_ ?_
  · exact Same.mono State.completeAdmin_same (by decide)
  · unfold State.fromPf
    refine Same.ite ?_ ?_
    · refine Same.ite ?_ ?_
      · exact Same.mono State.completeAdmin_same (by decide)
      · extract_lets -merge +onlyGivenNames x0
        refine Same.andThen State.completeAdmin_same (by decide) ?_
        refine Same.andThen State.rediscover_same (by decide) ?_
        exact Same.mono (State.modUm_same (fun _ => by first | rfl | simp | (split <;> rfl) | (dsimp only; split <;> rfl) | (dsimp only; (repeat' split) <;> rfl))) (by decide)
    · exact Same.mono State.completeAdmin_same (by decide)

theorem execFuncReset_same {e} {fn} {s} : Leaves ([.fns, .tiles, .models, .seqs, .reuse, .cohorts, .nextCohorts, .treeOps, .cands, .sampled] ++ [.sync, .slices, .spans, .um, .flash, .swapQueue, .out, .held]) s (execFuncReset e fn s) := by
  unfold execFuncReset
  refine Leaves.done ?_
  refine Same.ite ?_ ?_
  · exact Same.mono State.completeAdmin_same (by decide)
  · exact Same.mono State.disableFor_same (by decide)

set_option maxRecDepth 4000 in
theorem State.loupeBytes_same {s : State} {b : BitVec 384} {x : Bytes} {u : State} (h : s.loupeBytes b = .ok (x, u)) :
    Same [.fresh] s u := by
  unfold State.loupeBytes at h
  split at h
  · split at h
    · cases h
    · split at h
      · split at h
        · cases h; exact Same.refl _ _
        · cases h
      · cases h
  · dsimp only at h
    split at h
    · cases h
    · split at h
      · cases h
      · split at h
        · cases h
        · have := congrArg Prod.snd (Except.ok.inj h)
          subst this
          exact State.freeBytes_same
  · unfold State.loupeSync at h
    dsimp only at h
    repeat' split at h
    all_goals first
      | (cases h; exact Same.refl _ _)
      | cases h
  · dsimp only at h
    repeat' split at h
    all_goals first
      | (cases h; exact Same.refl _ _)
      | cases h
  · cases h

theorem execLoupeRead_same {e} {body} {s} : Leaves [.fns, .out, .held, .fresh] s (execLoupeRead e body s) := by
  unfold execLoupeRead
  refine Leaves.done (Same.ite (State.completeAdmin_same.mono (by decide)) (Same.ite (State.completeAdmin_same.mono (by decide)) ?_))
  unfold State.fromPf
  refine Same.ite (Same.ite (State.completeAdmin_same.mono (by decide)) ?_) (State.completeAdmin_same.mono (by decide))
  split
  · exact State.completeAdmin_same.mono (by decide)
  · rename_i bs u hu
    exact State.completeAdmin_same.andThen (by decide) (State.post_same.andThen (by decide) ((State.loupeBytes_same hu).mono (by decide)))

theorem execLoupeSetFill_same {e} {word} {value} {s} : Leaves [.fns, .sync, .um, .out, .held] s (execLoupeSetFill e word value s) := by
  unfold execLoupeSetFill
  refine Leaves.done ?_
  unfold State.loupeSet
  unfold State.fromPf
  refine Same.ite ?_ ?_
  · refine Same.ite ?_ ?_
    · exact Same.mono State.completeAdmin_same (by decide)
    · unfold State.loupeSync2
      refine Same.ite ?_ ?_
      · refine Same.andThen State.loupeOk_same (by decide) ?_
        exact Same.mono State.applyFill_same (by decide)
      · exact Same.mono State.completeAdmin_same (by decide)
  · exact Same.mono State.completeAdmin_same (by decide)

theorem execLoupeSetClear_same {e} {word} {s} : Leaves [.fns, .sync, .um, .out, .held] s (execLoupeSetClear e word s) := by
  unfold execLoupeSetClear
  refine Leaves.done ?_
  unfold State.loupeSet
  unfold State.fromPf
  refine Same.ite ?_ ?_
  · refine Same.ite ?_ ?_
    · exact Same.mono State.completeAdmin_same (by decide)
    · unfold State.loupeSync2
      refine Same.ite ?_ ?_
      · refine Same.andThen State.loupeOk_same (by decide) ?_
        exact Same.mono State.applyClear_same (by decide)
      · exact Same.mono State.completeAdmin_same (by decide)
  · exact Same.mono State.completeAdmin_same (by decide)

theorem execLoupeSetPoison_same {e} {word} {s} : Leaves [.fns, .sync, .um, .out, .held] s (execLoupeSetPoison e word s) := by
  unfold execLoupeSetPoison
  refine Leaves.done ?_
  unfold State.loupeSet
  unfold State.fromPf
  refine Same.ite ?_ ?_
  · refine Same.ite ?_ ?_
    · exact Same.mono State.completeAdmin_same (by decide)
    · unfold State.loupeSync2
      refine Same.ite ?_ ?_
      · refine Same.andThen State.loupeOk_same (by decide) ?_
        exact Same.mono State.applyPoison_same (by decide)
      · exact Same.mono State.completeAdmin_same (by decide)
  · exact Same.mono State.completeAdmin_same (by decide)

theorem execLoupeSetScratch_same {e} {tile} {offset} {data} {s} : Leaves [.fns, .tiles, .um, .out, .held] s (execLoupeSetScratch e tile offset data s) := by
  unfold execLoupeSetScratch
  refine Leaves.done ?_
  refine Same.ite ?_ ?_
  · exact Same.mono State.completeAdmin_same (by decide)
  · refine Same.ite ?_ ?_
    · exact Same.mono State.completeAdmin_same (by decide)
    · unfold State.loupeSet
      unfold State.fromPf
      refine Same.ite ?_ ?_
      · refine Same.ite ?_ ?_
        · exact Same.mono State.completeAdmin_same (by decide)
        · refine Same.andThen State.loupeOk_same (by decide) ?_
          exact Same.mono State.scrPut_same (by decide)
      · exact Same.mono State.completeAdmin_same (by decide)

theorem execDoorbellWrite_same {fn} {offset} {bytes} {value} {s} : Leaves [.fns, .seqs, .boot, .out, .held] s (execDoorbellWrite fn offset bytes value s) := by
  unfold execDoorbellWrite
  extract_lets -merge +onlyGivenNames x0
  extract_lets -merge +onlyGivenNames x1
  extract_lets -merge +onlyGivenNames x2
  refine Leaves.ite ?_ ?_
  · refine Leaves.done ?_
    exact Same.mono (State.modBoot_same (fun _ => by first | rfl | simp | (split <;> rfl) | (dsimp only; split <;> rfl) | (dsimp only; (repeat' split) <;> rfl))) (by decide)
  · refine Leaves.ite ?_ ?_
    · refine Leaves.done ?_
      exact Same.refl _ _
    · refine Leaves.ite ?_ ?_
      · split
        · extract_lets -merge +onlyGivenNames x3
          refine Leaves.ite ?_ ?_
          · extract_lets -merge +onlyGivenNames x4
            have h4 : Same [.fns, .seqs, .boot, .out, .held] s x4 := by
              exact Same.mono State.modRing_same (by decide)
            try clear_value x4
            refine Leaves.done ?_
            refine Same.ite ?_ ?_
            · refine Same.andThen State.flushHeld_same (by decide) ?_
              exact h4
            · exact h4
          · refine Leaves.done ?_
            exact Same.mono State.dbErr_same (by decide)
        · refine Leaves.done ?_
          exact Same.mono State.dbErr_same (by decide)
      · refine Leaves.done ?_
        exact Same.mono State.dbErr_same (by decide)

theorem execTakeEntry_same {fn} {set} {admin} {f} {s} : Leaves [.fns, .um, .boot, .out, .held] s (execTakeEntry fn set admin f s) := by
  unfold execTakeEntry
  extract_lets -merge +onlyGivenNames x0
  refine Leaves.ite ?_ ?_
  · refine Leaves.done ?_
    exact Same.refl _ _
  · refine Leaves.ite ?_ ?_
    · refine Leaves.done ?_
      refine Same.andThen State.logError_same (by decide) ?_
      exact Same.mono State.modRing_same (by decide)
    · extract_lets -merge +onlyGivenNames x1
      extract_lets -merge +onlyGivenNames x2
      refine Leaves.ite ?_ ?_
      · refine Leaves.done ?_
        exact Same.refl _ _
      · extract_lets -merge +onlyGivenNames x3
        extract_lets -merge +onlyGivenNames x4
        have h4 : Same [.fns, .um, .boot, .out, .held] s x4 := by
          exact Same.mono State.modRing_same (by decide)
        try clear_value x4
        extract_lets -merge +onlyGivenNames x5
        have h5 : Same [.fns, .um, .boot, .out, .held] s x5 := by
          refine Same.andThen State.modRing_same (by decide) ?_
          exact h4
        try clear_value x5
        extract_lets -merge +onlyGivenNames x6
        have h6 : Same [.fns, .um, .boot, .out, .held] s x6 := by
          refine Same.andThen State.modFn_same (by decide) ?_
          exact h5
        try clear_value x6
        refine Leaves.done ?_
        refine Same.andThen State.checkEntry_same (by decide) ?_
        exact h6

theorem execSealLockExpiry_same {fn} {s} : Leaves [.fns] s (execSealLockExpiry fn s) := by
  unfold execSealLockExpiry
  refine Leaves.done ?_
  exact Same.mono State.modFn_same (by decide)

theorem execIrqCoalesceTimer_same {fn} {set} {ring} {s} : Leaves [.fns, .out] s (execIrqCoalesceTimer fn set ring s) := by
  unfold execIrqCoalesceTimer
  extract_lets -merge +onlyGivenNames x0
  refine Leaves.ite ?_ ?_
  · refine Leaves.done ?_
    refine Same.andThen State.post_same (by decide) ?_
    exact Same.mono State.modRing_same (by decide)
  · refine Leaves.done ?_
    exact Same.refl _ _

theorem execRingEnable_same {fn} {set} {ring} {value} {s} : Leaves [.fns, .seqs, .boot, .out, .held] s (execRingEnable fn set ring value s) := by
  unfold execRingEnable
  refine Leaves.done ?_
  unfold State.ownWrite
  refine Same.ite ?_ ?_
  · exact Same.refl _ _
  · refine Same.ite ?_ ?_
    · exact Same.mono State.writeRingCtl_same (by decide)
    · exact Same.mono (State.modBoot_same (fun _ => by first | rfl | simp | (split <;> rfl) | (dsimp only; split <;> rfl) | (dsimp only; (repeat' split) <;> rfl))) (by decide)

theorem execRingDisable_same {fn} {set} {ring} {value} {s} : Leaves [.fns, .seqs, .boot, .out, .held] s (execRingDisable fn set ring value s) := by
  unfold execRingDisable
  refine Leaves.done ?_
  unfold State.ownWrite
  refine Same.ite ?_ ?_
  · exact Same.refl _ _
  · refine Same.ite ?_ ?_
    · exact Same.mono State.writeRingCtl_same (by decide)
    · exact Same.mono (State.modBoot_same (fun _ => by first | rfl | simp | (split <;> rfl) | (dsimp only; split <;> rfl) | (dsimp only; (repeat' split) <;> rfl))) (by decide)

theorem execRegisterWrite_same {viewer} {offset} {bytes} {value} {s} : Leaves ([.fns, .tiles, .models, .seqs, .sync, .scrubHours, .rateLimit, .boot, .power, .out] ++ [.held]) s (execRegisterWrite viewer offset bytes value s) := by
  unfold execRegisterWrite
  refine Leaves.done ?_
  exact Same.mono State.writeReg_same (by decide)

theorem execClearingRead_same {viewer} {offset} {bytes} {s} : Leaves ([.fns, .tiles, .models, .sync, .ports, .transit, .flash, .swapStat, .relayStat, .specStat] ++ [.specSource, .boot, .power]) s (execClearingRead viewer offset bytes s) := by
  unfold execClearingRead
  refine Leaves.done ?_
  exact Same.mono State.readReg_same (by decide)

theorem execKvLayerSelect_same {tile} {value} {s} : Leaves ([.fns, .tiles, .models, .seqs, .sync, .scrubHours, .rateLimit, .boot, .power, .out] ++ [.held]) s (execKvLayerSelect tile value s) := by
  unfold execKvLayerSelect
  refine Leaves.done ?_
  exact Same.mono State.writeReg_same (by decide)

theorem execLocalTimeRead_same {viewer} {bytes} {high} {s} : Leaves ([.fns, .tiles, .models, .sync, .ports, .transit, .flash, .swapStat, .relayStat, .specStat] ++ [.specSource, .boot, .power]) s (execLocalTimeRead viewer bytes high s) := by
  unfold execLocalTimeRead
  refine Leaves.done ?_
  exact Same.mono State.readReg_same (by decide)

theorem execErrLogRead_same {n} {high} {s} : Leaves ([.fns, .tiles, .models, .sync, .ports, .transit, .flash, .swapStat, .relayStat, .specStat] ++ [.specSource, .boot, .power]) s (execErrLogRead n high s) := by
  unfold execErrLogRead
  refine Leaves.done ?_
  exact Same.mono State.readReg_same (by decide)

theorem execPldmCapSet_same {watts} {s} : Leaves [.power] s (execPldmCapSet watts s) := by
  unfold execPldmCapSet
  refine Leaves.done ?_
  exact Same.mono State.setCap_same (by decide)

theorem execBmeClear_same {fn} {s} : Leaves [.fns] s (execBmeClear fn s) := by
  unfold execBmeClear
  refine Leaves.done ?_
  exact Same.mono State.modFn_same (by decide)

theorem execBmeSet_same {fn} {s} : Leaves [.fns, .seqs, .out, .held] s (execBmeSet fn s) := by
  unfold execBmeSet
  refine Leaves.done ?_
  refine Same.ite ?_ ?_
  · refine Same.andThen State.flushHeld_same (by decide) ?_
    exact Same.mono State.modFn_same (by decide)
  · exact Same.refl _ _

theorem execFlr_same {fn} {s} : Leaves ([.fns, .tiles, .models, .seqs, .reuse, .cohorts, .nextCohorts, .treeOps, .cands, .sampled] ++ [.sync, .slices, .spans, .um, .flash, .swapQueue, .out, .held]) s (execFlr fn s) := by
  unfold execFlr
  refine Leaves.done ?_
  refine Same.ite ?_ ?_
  · exact Same.refl _ _
  · refine Same.ite ?_ ?_
    · extract_lets -merge +onlyGivenNames x0
      have h0 : Same ([.fns, .tiles, .models, .seqs, .reuse, .cohorts, .nextCohorts, .treeOps, .cands, .sampled] ++ [.sync, .slices, .spans, .um, .flash, .swapQueue, .out, .held]) s x0 := by
        exact Same.mono State.modFn_same (by decide)
      try clear_value x0
      extract_lets -merge +onlyGivenNames x1
      have h1 : Same ([.fns, .tiles, .models, .seqs, .reuse, .cohorts, .nextCohorts, .treeOps, .cands, .sampled] ++ [.sync, .slices, .spans, .um, .flash, .swapQueue, .out, .held]) s x1 := by
        refine Same.foldl (fun y2 a2 => ?_) ?_
        · exact Same.mono State.flrOne_same (by decide)
        · exact h0
      try clear_value x1
      extract_lets -merge +onlyGivenNames x3
      have h3 : Same ([.fns, .tiles, .models, .seqs, .reuse, .cohorts, .nextCohorts, .treeOps, .cands, .sampled] ++ [.sync, .slices, .spans, .um, .flash, .swapQueue, .out, .held]) s x3 := by
        refine Same.ite ?_ ?_
        · exact h1
        · refine Same.upd ?_ (fun p hp => by cases p <;> first | exact absurd (by decide) hp | exact rfl)
          exact h1
      try clear_value x3
      refine Same.andThen State.flrOne_same (by decide) ?_
      exact h3
    · exact Same.mono State.flrOne_same (by decide)

theorem execVfEnableClear_same {s} : Leaves ([.fns, .tiles, .models, .seqs, .reuse, .cohorts, .nextCohorts, .treeOps, .cands, .sampled] ++ [.sync, .slices, .spans, .um, .flash, .swapQueue, .out, .held]) s (execVfEnableClear s) := by
  unfold execVfEnableClear
  refine Leaves.done ?_
  refine Same.foldl (fun y0 a0 => ?_) ?_
  · exact Same.mono State.dropFn_same (by decide)
  · exact Same.refl _ _

theorem execDisableTimeout_same {fn} {s} : Leaves ([.fns, .tiles, .models, .seqs, .reuse, .cohorts, .treeOps, .sync, .spans, .um] ++ [.swapQueue, .out, .held]) s (execDisableTimeout fn s) := by
  unfold execDisableTimeout
  refine Leaves.ite ?_ ?_
  · refine Leaves.done ?_
    refine Same.andThen State.tryFinish_same (by decide) ?_
    refine Same.foldl (fun y0 a0 => ?_) ?_
    · exact Same.mono State.cutQuiet_same (by decide)
    · exact Same.refl _ _
  · refine Leaves.done ?_
    exact Same.refl _ _

theorem execDlDown_same {s} : Leaves ([.fns, .tiles, .models, .seqs, .reuse, .cohorts, .nextCohorts, .treeOps, .cands, .sampled] ++ [.sync, .slices, .spans, .um, .flash, .swapQueue, .boot, .pins, .out, .held]) s (execDlDown s) := by
  unfold execDlDown
  refine Leaves.done ?_
  exact Same.mono State.linkLost_same (by decide)

theorem execDlUp_same {s} : Leaves [.fns, .sync, .pins] s (execDlUp s) := by
  unfold execDlUp
  extract_lets -merge +onlyGivenNames z0_0 x0
  have h0 : Same [.fns, .sync, .pins] s x0 := by
    refine Same.upd ?_ (fun p hp => by cases p <;> first | exact absurd (by decide) hp | exact rfl)
    exact Same.refl _ _
  try clear_value x0
  refine Leaves.done ?_
  refine Same.ite ?_ ?_
  · refine Same.andThen State.enableFn_same (by decide) ?_
    exact h0
  · exact h0

theorem execPerstN_same {s} : Leaves Piece.changing s (execPerstN s) := by
  unfold execPerstN
  refine Leaves.ite ?_ ?_
  · extract_lets -merge +onlyGivenNames x0
    have h0 : Same Piece.changing s x0 := by
      refine Same.andThen State.enterAon_same (fun _ q => q) ?_
      exact Same.mono State.leaveNotice_same (by decide)
    try clear_value x0
    refine Leaves.done ?_
    refine Same.upd ?_ (fun p hp => by cases p <;> first | exact absurd (by decide) hp | exact rfl)
    exact h0
  · refine Leaves.done ?_
    refine Same.upd ?_ (fun p hp => by cases p <;> first | exact absurd (by decide) hp | exact rfl)
    exact Same.refl _ _

theorem execResetN_same {s} : Leaves Piece.changing s (execResetN s) := by
  unfold execResetN
  refine Leaves.ite ?_ ?_
  · extract_lets -merge +onlyGivenNames x0
    have h0 : Same Piece.changing s x0 := by
      refine Same.andThen State.enterAon_same (fun _ q => q) ?_
      exact Same.mono State.leaveNotice_same (by decide)
    try clear_value x0
    refine Leaves.done ?_
    refine Same.upd ?_ (fun p hp => by cases p <;> first | exact absurd (by decide) hp | exact rfl)
    exact h0
  · refine Leaves.done ?_
    refine Same.upd ?_ (fun p hp => by cases p <;> first | exact absurd (by decide) hp | exact rfl)
    exact Same.refl _ _

theorem execAon_same {slotId} {boardId} {s} : Leaves [.boot, .pins] s (execAon slotId boardId s) := by
  unfold execAon
  refine Leaves.ite ?_ ?_
  · extract_lets -merge +onlyGivenNames x0
    have h0 : Same [.boot, .pins] s x0 := by
      exact Same.mono (State.modBoot_same (fun _ => by first | rfl | simp | (split <;> rfl) | (dsimp only; split <;> rfl) | (dsimp only; (repeat' split) <;> rfl))) (by decide)
    try clear_value x0
    refine Leaves.done ?_
    refine Same.upd ?_ (fun p hp => by cases p <;> first | exact absurd (by decide) hp | exact rfl)
    exact h0
  · refine Leaves.done ?_
    exact Same.refl _ _

theorem execSecureBoot_same {secretBlank} {keys} {s} : Leaves [.sync, .slices, .um, .scrubHours, .rateLimit, .boot, .fresh] s (execSecureBoot secretBlank keys s) := by
  unfold execSecureBoot
  refine Leaves.ite ?_ ?_
  · refine Leaves.done ?_
    exact Same.refl _ _
  · refine Leaves.ite ?_ ?_
    · refine Leaves.done ?_
      exact Same.mono State.bringupFails_same (by decide)
    · split
      · refine Leaves.done ?_
        refine Same.andThen State.bringupFails_same (by decide) ?_
        refine Same.upd ?_ (fun p hp => by cases p <;> first | exact absurd (by decide) hp | exact rfl | exact Umathal.boot_none (by assumption) | exact Umathal.boot_renewed (by assumption))
        exact Same.refl _ _
      · extract_lets -merge +onlyGivenNames x0
        extract_lets -merge +onlyGivenNames z1_0 x1
        have h1 : Same [.sync, .slices, .um, .scrubHours, .rateLimit, .boot, .fresh] s x1 := by
          refine Same.upd ?_ (fun p hp => by cases p <;> first | exact absurd (by decide) hp | exact rfl | exact Umathal.boot_none (by assumption) | exact Umathal.boot_renewed (by assumption))
          exact Same.refl _ _
        try clear_value x1
        refine Leaves.done ?_
        refine Same.andThen (State.modBoot_same (fun _ => by first | rfl | simp | (split <;> rfl) | (dsimp only; split <;> rfl) | (dsimp only; (repeat' split) <;> rfl))) (by decide) ?_
        exact h1

theorem execDramTrain_same {failPc} {uncorrectable} {chans} {targets} {catalogueOk} {s} : Leaves [.fns, .flash, .boot, .out] s (execDramTrain failPc uncorrectable chans targets catalogueOk s) := by
  unfold execDramTrain
  refine Leaves.ite ?_ ?_
  · refine Leaves.done ?_
    exact Same.refl _ _
  · split
    · extract_lets -merge +onlyGivenNames x0
      have h0 : Same [.fns, .flash, .boot, .out] s x0 := by
        refine Same.ite ?_ ?_
        · exact Same.mono State.logError_same (by decide)
        · exact Same.refl _ _
      try clear_value x0
      refine Leaves.done ?_
      refine Same.andThen State.bringupFails_same (by decide) ?_
      exact h0
    · extract_lets -merge +onlyGivenNames x1
      have h1 : Same [.fns, .flash, .boot, .out] s x1 := by
        refine Same.andThen State.flashDegraded_same (by decide) ?_
        exact Same.mono State.modFlash_same (by decide)
      try clear_value x1
      refine Leaves.done ?_
      refine Same.ite ?_ ?_
      · refine Same.andThen State.bringupFails_same (by decide) ?_
        exact h1
      · refine Same.andThen (State.modBoot_same (fun _ => by first | rfl | simp | (split <;> rfl) | (dsimp only; split <;> rfl) | (dsimp only; (repeat' split) <;> rfl))) (by decide) ?_
        exact h1

theorem execLinkTrain_same {reports} {s} : Leaves [.fns, .ports, .slices, .boot, .out] s (execLinkTrain reports s) := by
  unfold execLinkTrain
  refine Leaves.ite ?_ ?_
  · refine Leaves.done ?_
    exact Same.refl _ _
  · extract_lets -merge +onlyGivenNames x0
    have h0 : Same [.fns, .ports, .slices, .boot, .out] s x0 := by
      refine Same.ite ?_ ?_
      · exact Same.mono State.trainAll_same (by decide)
      · exact Same.refl _ _
    try clear_value x0
    refine Leaves.done ?_
    refine Same.andThen (State.modBoot_same (fun _ => by first | rfl | simp | (split <;> rfl) | (dsimp only; split <;> rfl) | (dsimp only; (repeat' split) <;> rfl))) (by decide) ?_
    exact h0

theorem execLinkTrainTimeout_same {s} : Leaves [.fns, .ports, .boot, .out] s (execLinkTrainTimeout s) := by
  unfold execLinkTrainTimeout
  refine Leaves.ite ?_ ?_
  · refine Leaves.done ?_
    exact Same.refl _ _
  · extract_lets -merge +onlyGivenNames x0
    have h0 : Same [.fns, .ports, .boot, .out] s x0 := by
      refine Same.foldl (fun y1 a1 => ?_) ?_
      · refine Same.ite ?_ ?_
        · exact Same.refl _ _
        · refine Same.andThen State.event_same (by decide) ?_
          exact Same.mono State.modPort_same (by decide)
      · exact Same.refl _ _
    try clear_value x0
    refine Leaves.done ?_
    refine Same.andThen (State.modBoot_same (fun _ => by first | rfl | simp | (split <;> rfl) | (dsimp only; split <;> rfl) | (dsimp only; (repeat' split) <;> rfl))) (by decide) ?_
    exact h0

theorem execReady_same {s} : Leaves [.fns, .tiles, .models, .sync, .slices, .flash, .boot] s (execReady s) := by
  unfold execReady
  refine Leaves.ite ?_ ?_
  · extract_lets -merge +onlyGivenNames x0
    have h0 : Same [.fns, .tiles, .models, .sync, .slices, .flash, .boot] s x0 := by
      exact Same.mono (State.modBoot_same (fun _ => by first | rfl | simp | (split <;> rfl) | (dsimp only; split <;> rfl) | (dsimp only; (repeat' split) <;> rfl))) (by decide)
    try clear_value x0
    extract_lets -merge +onlyGivenNames x1
    have h1 : Same [.fns, .tiles, .models, .sync, .slices, .flash, .boot] s x1 := by
      refine Same.foldl (fun y2 a2 => ?_) ?_
      · refine Same.ite ?_ ?_
        · exact Same.mono State.enableFn_same (by decide)
        · exact Same.refl _ _
      · exact h0
    try clear_value x1
    extract_lets -merge +onlyGivenNames x3
    have h3 : Same [.fns, .tiles, .models, .sync, .slices, .flash, .boot] s x3 := by
      refine Same.foldl (fun y4 a4 => ?_) ?_
      · refine Same.ite ?_ ?_
        · exact Same.mono State.eraseSlot_same (by decide)
        · exact Same.refl _ _
      · exact h1
    try clear_value x3
    refine Leaves.done ?_
    refine Same.andThen State.rerouteIdle_same (by decide) ?_
    exact h3
  · refine Leaves.done ?_
    exact Same.refl _ _

theorem execPortTrain_same {p} {r} {s} : Leaves ([.fns, .tiles, .models, .seqs, .cohorts, .treeOps, .sync, .ports, .slices, .inbox] ++ [.msgId, .undelivered, .um, .swapQueue, .boot, .out, .held]) s (execPortTrain p r s) := by
  unfold execPortTrain
  refine Leaves.ite ?_ ?_
  · extract_lets -merge +onlyGivenNames x0
    have h0 : Same ([.fns, .tiles, .models, .seqs, .cohorts, .treeOps, .sync, .ports, .slices, .inbox] ++ [.msgId, .undelivered, .um, .swapQueue, .boot, .out, .held]) s x0 := by
      refine Same.andThen State.rerouteIdle_same (by decide) ?_
      refine Same.andThen State.train_same (by decide) ?_
      exact Same.mono State.dropTraffic_same (by decide)
    try clear_value x0
    refine Leaves.done ?_
    refine Same.andThen (State.modBoot_same (fun _ => by first | rfl | simp | (split <;> rfl) | (dsimp only; split <;> rfl) | (dsimp only; (repeat' split) <;> rfl))) (by decide) ?_
    exact h0
  · refine Leaves.done ?_
    exact Same.refl _ _

theorem execDiscoveryRecord_same {p} {d} {s} : Leaves ([.fns, .tiles, .models, .seqs, .cohorts, .treeOps, .sync, .ports, .slices, .inbox] ++ [.msgId, .undelivered, .um, .swapQueue, .boot, .out, .held]) s (execDiscoveryRecord p d s) := by
  unfold execDiscoveryRecord
  extract_lets -merge +onlyGivenNames x0
  refine Leaves.ite ?_ ?_
  · extract_lets -merge +onlyGivenNames x1
    have h1 : Same ([.fns, .tiles, .models, .seqs, .cohorts, .treeOps, .sync, .ports, .slices, .inbox] ++ [.msgId, .undelivered, .um, .swapQueue, .boot, .out, .held]) s x1 := by
      exact Same.mono State.discovered_same (by decide)
    try clear_value x1
    refine Leaves.done ?_
    refine Same.ite ?_ ?_
    · refine Same.andThen State.rerouteIdle_same (by decide) ?_
      exact h1
    · refine Same.andThen State.rerouteIdle_same (by decide) ?_
      refine Same.andThen State.dropTraffic_same (by decide) ?_
      exact h1
  · refine Leaves.done ?_
    exact Same.refl _ _

theorem execPortRetryTimer_same {reports} {s} : Leaves [.fns, .ports, .slices, .out] s (execPortRetryTimer reports s) := by
  unfold execPortRetryTimer
  refine Leaves.done ?_
  refine Same.ite ?_ ?_
  · exact Same.mono State.trainAll_same (by decide)
  · exact Same.refl _ _

theorem execPortRetrain_same {p} {r} {s} : Leaves ([.fns, .tiles, .models, .seqs, .cohorts, .treeOps, .sync, .ports, .slices, .inbox] ++ [.msgId, .undelivered, .um, .swapQueue, .boot, .out, .held]) s (execPortRetrain p r s) := by
  unfold execPortRetrain
  extract_lets -merge +onlyGivenNames x0
  extract_lets -merge +onlyGivenNames x1
  have h1 : Same ([.fns, .tiles, .models, .seqs, .cohorts, .treeOps, .sync, .ports, .slices, .inbox] ++ [.msgId, .undelivered, .um, .swapQueue, .boot, .out, .held]) s x1 := by
    refine Same.ite ?_ ?_
    · exact Same.mono State.startRetrain_same (by decide)
    · exact Same.refl _ _
  try clear_value x1
  refine Leaves.done ?_
  refine Same.ite ?_ ?_
  · refine Same.andThen State.endRetrain_same (by decide) ?_
    exact h1
  · exact h1

theorem execPortDown_same {p} {s} : Leaves ([.fns, .tiles, .models, .seqs, .cohorts, .treeOps, .sync, .ports, .slices, .inbox] ++ [.msgId, .undelivered, .um, .swapQueue, .boot, .out, .held, .fresh]) s (execPortDown p s) := by
  unfold execPortDown
  refine Leaves.done ?_
  refine Same.ite ?_ ?_
  · refine Same.andThen State.hearLoss_same (by decide) ?_
    exact Same.mono State.portLost_same (by decide)
  · exact Same.refl _ _

theorem execMalnyFrame_same {p} {f} {s} : Leaves ([.fns, .tiles, .models, .seqs, .cohorts, .treeOps, .sync, .ports, .slices, .inbox] ++ [.msgId, .undelivered, .um, .swapQueue, .boot, .out, .held]) s (execMalnyFrame p f s) := by
  unfold execMalnyFrame
  extract_lets -merge +onlyGivenNames x0
  extract_lets -merge +onlyGivenNames x1
  refine Leaves.ite ?_ ?_
  · refine Leaves.done ?_
    exact Same.refl _ _
  · extract_lets -merge +onlyGivenNames x2
    extract_lets -merge +onlyGivenNames x3
    extract_lets -merge +onlyGivenNames x4
    have h4 : Same ([.fns, .tiles, .models, .seqs, .cohorts, .treeOps, .sync, .ports, .slices, .inbox] ++ [.msgId, .undelivered, .um, .swapQueue, .boot, .out, .held]) s x4 := by
      exact Same.mono State.modPort_same (by decide)
    try clear_value x4
    refine Leaves.ite ?_ ?_
    · refine Leaves.done ?_
      refine Same.andThen State.discard_same (by decide) ?_
      refine Same.andThen State.modPort_same (by decide) ?_
      exact h4
    · refine Leaves.ite ?_ ?_
      · extract_lets -merge +onlyGivenNames x5
        have h5 : Same ([.fns, .tiles, .models, .seqs, .cohorts, .treeOps, .sync, .ports, .slices, .inbox] ++ [.msgId, .undelivered, .um, .swapQueue, .boot, .out, .held]) s x5 := by
          refine Same.andThen State.discard_same (by decide) ?_
          refine Same.andThen State.modPort_same (by decide) ?_
          exact h4
        try clear_value x5
        refine Leaves.done ?_
        refine Same.ite ?_ ?_
        · refine Same.andThen State.startRetrain_same (by decide) ?_
          exact h5
        · exact h5
      · extract_lets -merge +onlyGivenNames x6
        have h6 : Same ([.fns, .tiles, .models, .seqs, .cohorts, .treeOps, .sync, .ports, .slices, .inbox] ++ [.msgId, .undelivered, .um, .swapQueue, .boot, .out, .held]) s x6 := by
          refine Same.andThen State.clearFields_same (by decide) ?_
          exact h4
        try clear_value x6
        split
        · refine Leaves.done ?_
          exact h6
        · refine Leaves.ite ?_ ?_
          · refine Leaves.done ?_
            exact h6
          · refine Leaves.ite ?_ ?_
            · refine Leaves.done ?_
              refine Same.andThen State.discard_same (by decide) ?_
              exact h6
            · refine Leaves.done ?_
              refine Same.andThen State.cutLost_same (by decide) ?_
              refine Same.andThen State.acceptFrame_same (by decide) ?_
              exact h6

theorem execLinkIdleTimer_same {p} {s} : Leaves [.ports] s (execLinkIdleTimer p s) := by
  unfold execLinkIdleTimer
  refine Leaves.done ?_
  refine Same.ite ?_ ?_
  · exact Same.mono State.linkFrame_same (by decide)
  · exact Same.refl _ _

theorem execTransitSend_same {p} {elapsed} {s} : Leaves [.ports, .transit] s (execTransitSend p elapsed s) := by
  unfold execTransitSend
  extract_lets -merge +onlyGivenNames x0
  have h0 : Same [.ports, .transit] s x0 := by
    exact Same.mono State.modPort_same (by decide)
  try clear_value x0
  split
  · refine Leaves.done ?_
    exact h0
  · extract_lets -merge +onlyGivenNames x1
    refine Leaves.ite ?_ ?_
    · extract_lets -merge +onlyGivenNames x2
      extract_lets -merge +onlyGivenNames x3
      have h3 : Same [.ports, .transit] s x3 := by
        refine Same.andThen State.sendFrame_same (by decide) ?_
        refine Same.andThen State.modPort_same (by decide) ?_
        exact h0
      try clear_value x3
      refine Leaves.done ?_
      refine Same.ite ?_ ?_
      · refine Same.andThen State.countTransit_same (by decide) ?_
        exact h3
      · exact h3
    · refine Leaves.done ?_
      exact h0

theorem execNarrowMessage_same {k} {s} : Leaves [.fns, .tiles, .inbound, .heldWide, .wideSeen, .inbox, .out] s (execNarrowMessage k s) := by
  unfold execNarrowMessage
  extract_lets -merge +onlyGivenNames x0
  extract_lets -merge +onlyGivenNames x1
  have h1 : Same [.fns, .tiles, .inbound, .heldWide, .wideSeen, .inbox, .out] s x1 := by
    exact Same.mono State.takePacket_same (by decide)
  try clear_value x1
  split
  · refine Leaves.done ?_
    exact h1
  · refine Leaves.ite ?_ ?_
    · refine Leaves.done ?_
      exact h1
    · refine Leaves.ite ?_ ?_
      · refine Leaves.done ?_
        refine Same.ite ?_ ?_
        · refine Same.andThen State.lateMark_same (by decide) ?_
          exact h1
        · exact h1
      · refine Leaves.ite ?_ ?_
        · refine Leaves.done ?_
          refine Same.andThen State.discardMark_same (by decide) ?_
          exact h1
        · refine Leaves.done ?_
          refine Same.andThen State.countPacket_same (by decide) ?_
          exact h1

theorem execWideMessage_same {k} {s} : Leaves [.fns, .tiles, .inbound, .heldWide, .wideSeen, .inbox, .out] s (execWideMessage k s) := by
  unfold execWideMessage
  extract_lets -merge +onlyGivenNames x0
  extract_lets -merge +onlyGivenNames x1
  have h1 : Same [.fns, .tiles, .inbound, .heldWide, .wideSeen, .inbox, .out] s x1 := by
    exact Same.mono State.takePacket_same (by decide)
  try clear_value x1
  extract_lets -merge +onlyGivenNames x2
  split
  · refine Leaves.done ?_
    exact h1
  · refine Leaves.ite ?_ ?_
    · refine Leaves.done ?_
      refine Same.upd ?_ (fun p hp => by cases p <;> first | exact absurd (by decide) hp | exact rfl)
      exact h1
    · refine Leaves.done ?_
      refine Same.andThen State.countPacket_same (by decide) ?_
      exact h1

theorem execRawMessage_same {k} {s} : Leaves [.fns, .tiles, .inbound, .wideSeen, .inbox, .out] s (execRawMessage k s) := by
  unfold execRawMessage
  extract_lets -merge +onlyGivenNames x0
  extract_lets -merge +onlyGivenNames x1
  have h1 : Same [.fns, .tiles, .inbound, .wideSeen, .inbox, .out] s x1 := by
    exact Same.mono State.takePacket_same (by decide)
  try clear_value x1
  split
  · refine Leaves.done ?_
    exact h1
  · refine Leaves.done ?_
    refine Same.andThen State.countPacket_same (by decide) ?_
    exact h1

theorem execCarriedFill_same {p} {k} {s} : Leaves [.fns, .sync, .ports, .inbound, .denials, .out] s (execCarriedFill p k s) := by
  unfold execCarriedFill
  extract_lets -merge +onlyGivenNames x0
  refine Leaves.ite ?_ ?_
  · refine Leaves.done ?_
    exact Same.mono State.deniedBack_same (by decide)
  · split
    · refine Leaves.done ?_
      exact Same.refl _ _
    · refine Leaves.ite ?_ ?_
      · refine Leaves.done ?_
        exact Same.refl _ _
      · extract_lets -merge +onlyGivenNames x1
        have h1 : Same [.fns, .sync, .ports, .inbound, .denials, .out] s x1 := by
          exact Same.mono State.modInbound_same (by decide)
        try clear_value x1
        extract_lets -merge +onlyGivenNames x2
        have h2 : Same [.fns, .sync, .ports, .inbound, .denials, .out] s x2 := by
          refine Same.upd ?_ (fun p hp => by cases p <;> first | exact absurd (by decide) hp | exact rfl)
          exact h1
        try clear_value x2
        extract_lets -merge +onlyGivenNames x3
        split
        · refine Leaves.done ?_
          exact h2
        · refine Leaves.ite ?_ ?_
          · refine Leaves.done ?_
            refine Same.andThen State.blockSignal_same (by decide) ?_
            exact h2
          · refine Leaves.done ?_
            refine Same.andThen State.arriveFill_same (by decide) ?_
            exact h2

theorem execHeldFillApply_same {idx} {s} : Leaves [.sync, .ports] s (execHeldFillApply idx s) := by
  unfold execHeldFillApply
  refine Leaves.done ?_
  exact Same.mono State.tryHeld_same (by decide)

theorem execCohortRecord_same {rec' : _} {s} : Leaves ([.fns, .tiles, .models, .seqs, .cohorts, .nextCohorts, .treeOps, .stepCount, .cands, .sampled] ++ [.sync, .inbox, .specSource, .out, .held]) s (execCohortRecord rec' s) := by
  unfold execCohortRecord
  extract_lets -merge +onlyGivenNames x0
  extract_lets -merge +onlyGivenNames x1
  extract_lets -merge +onlyGivenNames x2
  have h2 : Same ([.fns, .tiles, .models, .seqs, .cohorts, .nextCohorts, .treeOps, .stepCount, .cands, .sampled] ++ [.sync, .inbox, .specSource, .out, .held]) s x2 := by
    exact Same.mono State.takeType_same (by decide)
  try clear_value x2
  split
  · refine Leaves.done ?_
    exact h2
  · refine Leaves.ite ?_ ?_
    · refine Leaves.done ?_
      exact h2
    · extract_lets -merge +onlyGivenNames x3
      have h3 : Same ([.fns, .tiles, .models, .seqs, .cohorts, .nextCohorts, .treeOps, .stepCount, .cands, .sampled] ++ [.sync, .inbox, .specSource, .out, .held]) s x3 := by
        refine Same.foldl (fun y4 a4 => ?_) ?_
        · exact Same.mono State.applyOp_same (by decide)
        · exact h2
      try clear_value x3
      extract_lets -merge +onlyGivenNames x5
      refine Leaves.ite ?_ ?_
      · refine Leaves.done ?_
        refine Same.andThen State.startRecord_same (by decide) ?_
        exact h3
      · refine Leaves.done ?_
        refine Same.upd ?_ (fun p hp => by cases p <;> first | exact absurd (by decide) hp | exact rfl)
        exact h3

theorem execTokenMessage_same {model} {cohort} {rows} {s} : Leaves [.seqs, .cohorts, .nextCohorts, .inbox] s (execTokenMessage model cohort rows s) := by
  unfold execTokenMessage
  extract_lets -merge +onlyGivenNames x0
  have h0 : Same [.seqs, .cohorts, .nextCohorts, .inbox] s x0 := by
    exact Same.mono State.takeType_same (by decide)
  try clear_value x0
  extract_lets -merge +onlyGivenNames x1
  have h1 : Same [.seqs, .cohorts, .nextCohorts, .inbox] s x1 := by
    refine Same.foldl (fun y2 a2 => ?_) ?_
    · exact Same.mono State.hearAccepted_same (by decide)
    · exact h0
  try clear_value x1
  extract_lets -merge +onlyGivenNames x3
  refine Leaves.ite ?_ ?_
  · refine Leaves.done ?_
    refine Same.upd ?_ (fun p hp => by cases p <;> first | exact absurd (by decide) hp | exact rfl)
    exact h1
  · refine Leaves.done ?_
    refine Same.andThen State.modCohort_same (by decide) ?_
    exact h1

theorem execCut_same {sliceId} {fromMember} {s} : Leaves ([.fns, .tiles, .models, .seqs, .cohorts, .treeOps, .sync, .inbox, .um, .swapQueue] ++ [.boot, .out, .held]) s (execCut sliceId fromMember s) := by
  unfold execCut
  refine Leaves.done ?_
  refine Same.andThen State.cutSlice_same (by decide) ?_
  exact Same.mono State.takeType_same (by decide)

theorem execLeaving_same {p} {address} {msg} {s} : Leaves ([.fns, .tiles, .models, .seqs, .cohorts, .treeOps, .sync, .ports, .slices, .inbox] ++ [.left, .um, .swapQueue, .boot, .out, .held]) s (execLeaving p address msg s) := by
  unfold execLeaving
  extract_lets -merge +onlyGivenNames x0
  have h0 : Same ([.fns, .tiles, .models, .seqs, .cohorts, .treeOps, .sync, .ports, .slices, .inbox] ++ [.left, .um, .swapQueue, .boot, .out, .held]) s x0 := by
    exact Same.mono State.takeType_same (by decide)
  try clear_value x0
  refine Leaves.done ?_
  refine Same.ite ?_ ?_
  · exact h0
  · refine Same.andThen State.memberLeft_same (by decide) ?_
    refine Same.andThen State.floodLeaving_same (by decide) ?_
    refine Same.upd ?_ (fun p hp => by cases p <;> first | exact absurd (by decide) hp | exact rfl)
    exact h0

theorem execSlicePacket_same {sliceId} {member} {digest} {checksOk} {s} : Leaves [.fns, .ports, .slices, .inbox, .msgId, .undelivered, .out, .held] s (execSlicePacket sliceId member digest checksOk s) := by
  unfold execSlicePacket
  extract_lets -merge +onlyGivenNames x0
  extract_lets -merge +onlyGivenNames x1
  have h1 : Same [.fns, .ports, .slices, .inbox, .msgId, .undelivered, .out, .held] s x1 := by
    exact Same.mono State.takeType_same (by decide)
  try clear_value x1
  extract_lets -merge +onlyGivenNames x2
  split
  · refine Leaves.done ?_
    exact h1
  · extract_lets -merge +onlyGivenNames x3
    have h3 : Same [.fns, .ports, .slices, .inbox, .msgId, .undelivered, .out, .held] s x3 := by
      refine Same.upd ?_ (fun p hp => by cases p <;> first | exact absurd (by decide) hp | exact rfl)
      exact h1
    try clear_value x3
    extract_lets -merge +onlyGivenNames x4
    have h4 : Same [.fns, .ports, .slices, .inbox, .msgId, .undelivered, .out, .held] s x4 := by
      unfold x4
      split
      · refine Same.ite ?_ ?_
        · exact h3
        · refine Same.andThen State.tellSlice_same (by decide) ?_
          exact h3
      · exact h3
    try clear_value x4
    refine Leaves.done ?_
    refine Same.andThen State.settleSlice_same (by decide) ?_
    exact h4

theorem execRelayPull_same {model} {layer} {s} : Leaves ([.fns, .tiles, .models, .seqs, .cohorts, .treeOps, .sync, .ports, .inbox, .msgId] ++ [.undelivered, .um, .relayStat, .swapQueue, .boot, .out, .held]) s (execRelayPull model layer s) := by
  unfold execRelayPull
  split
  · refine Leaves.done ?_
    exact Same.refl _ _
  · extract_lets -merge +onlyGivenNames x0
    refine Leaves.done ?_
    refine Same.andThen State.cutLost_same (by decide) ?_
    refine Same.foldl (fun y1 a1 => ?_) ?_
    · refine Same.foldl (fun y2 a2 => ?_) ?_
      · exact Same.mono State.sendRelay_same (by decide)
      · exact Same.refl _ _
    · exact Same.refl _ _

theorem execRelayBlock_same {tile} {header} {data} {s} : Leaves ([.fns, .tiles, .models, .seqs, .cohorts, .sync, .inbox, .relayStat, .boot, .out] ++ [.fresh]) s (execRelayBlock tile header data s) := by
  unfold execRelayBlock
  extract_lets -merge +onlyGivenNames x0
  have h0 : Same ([.fns, .tiles, .models, .seqs, .cohorts, .sync, .inbox, .relayStat, .boot, .out] ++ [.fresh]) s x0 := by
    refine Same.andThen State.modTile_same (by decide) ?_
    exact Same.mono State.takeType_same (by decide)
  try clear_value x0
  refine Leaves.done ?_
  refine Same.foldl (fun y1 a1 => ?_) ?_
  · exact Same.mono State.tryPrism_same (by decide)
  · exact h0

theorem execSpillDone_same {handle} {span} {ev} {s} : Leaves ([.fns, .tiles, .models, .seqs, .cohorts, .treeOps, .sync, .ports, .inbox, .spans] ++ [.msgId, .undelivered, .um, .swapQueue, .boot, .out, .held]) s (execSpillDone handle span ev s) := by
  unfold execSpillDone
  split
  · refine Leaves.done ?_
    exact Same.mono State.modSeq_same (by decide)
  · refine Leaves.done ?_
    refine Same.andThen State.cutLost_same (by decide) ?_
    refine Same.andThen State.pageLow_same (by decide) ?_
    exact Same.mono State.takeSpan_same (by decide)

theorem execStepBoundary_same {model} {cohort} {peers} {s} : Leaves ([.fns, .tiles, .models, .seqs, .reuse, .cohorts, .nextCohorts, .treeOps, .stepCount, .cands] ++ [.sampled, .sync, .ports, .slices, .inbox, .spans, .msgId, .undelivered, .um, .relayStat] ++ [.swapQueue, .specSource, .boot, .out, .held, .fresh]) s (execStepBoundary model cohort peers s) := by
  unfold execStepBoundary
  split
  · refine Leaves.done ?_
    exact Same.refl _ _
  · refine Leaves.ite ?_ ?_
    · refine Leaves.done ?_
      exact Same.refl _ _
    · split
      · refine Leaves.done ?_
        refine Same.andThen State.cutLost_same (by decide) ?_
        refine Same.andThen State.boundary_same (by decide) ?_
        exact Same.mono State.reroute_same (by decide)
      · refine Leaves.ite ?_ ?_
        · refine Leaves.done ?_
          exact Same.refl _ _
        · extract_lets -merge +onlyGivenNames x0
          have h0 : Same ([.fns, .tiles, .models, .seqs, .reuse, .cohorts, .nextCohorts, .treeOps, .stepCount, .cands] ++ [.sampled, .sync, .ports, .slices, .inbox, .spans, .msgId, .undelivered, .um, .relayStat] ++ [.swapQueue, .specSource, .boot, .out, .held, .fresh]) s x0 := by
            refine Same.andThen State.settleCohort_same (by decide) ?_
            exact Same.mono State.reroute_same (by decide)
          try clear_value x0
          refine Leaves.done ?_
          refine Same.andThen State.cutLost_same (by decide) ?_
          refine Same.andThen State.boundary_same (by decide) ?_
          refine Same.andThen State.closeCohort_same (by decide) ?_
          refine Same.andThen State.updateCosts_same (by decide) ?_
          exact h0

theorem execCowCopy_same {handle} {page} {s} : Leaves [.models, .seqs] s (execCowCopy handle page s) := by
  unfold execCowCopy
  split
  · refine Leaves.done ?_
    exact Same.refl _ _
  · split
    · extract_lets -merge +onlyGivenNames x0
      have h0 : Same [.models, .seqs] s x0 := by
        exact Same.mono State.modPool_same (by decide)
      try clear_value x0
      extract_lets -merge +onlyGivenNames x1
      have h1 : Same [.models, .seqs] s x1 := by
        refine Same.andThen State.modSeq_same (by decide) ?_
        exact h0
      try clear_value x1
      refine Leaves.done ?_
      refine Same.andThen State.poolEvent_same (by decide) ?_
      refine Same.andThen State.release_same (by decide) ?_
      exact h1
    · refine Leaves.done ?_
      exact Same.refl _ _

theorem execLensSummary_same {handle} {page} {s} : Leaves [.models, .seqs] s (execLensSummary handle page s) := by
  unfold execLensSummary
  split
  · refine Leaves.done ?_
    exact Same.refl _ _
  · refine Leaves.ite ?_ ?_
    · split
      · extract_lets -merge +onlyGivenNames x0
        have h0 : Same [.models, .seqs] s x0 := by
          exact Same.mono State.summarisePage_same (by decide)
        try clear_value x0
        refine Leaves.done ?_
        refine Same.andThen State.modSeq_same (by decide) ?_
        exact h0
      · refine Leaves.done ?_
        exact Same.refl _ _
    · refine Leaves.done ?_
      exact Same.refl _ _

theorem execArrayMatmul_same {c} {d} {s} : Leaves [.fns, .tiles, .models, .seqs, .cohorts, .sync, .boot, .out, .fresh] s (execArrayMatmul c d s) := by
  unfold execArrayMatmul
  extract_lets -merge +onlyGivenNames x0
  extract_lets -merge +onlyGivenNames x1
  have h1 : Same [.fns, .tiles, .models, .seqs, .cohorts, .sync, .boot, .out, .fresh] s x1.2 := by
    exact Same.mono State.startDesc_same (by decide)
  try clear_value x1
  split
  · refine Leaves.done ?_
    exact h1
  · extract_lets -merge +onlyGivenNames x2
    have h2 : Same [.fns, .tiles, .models, .seqs, .cohorts, .sync, .boot, .out, .fresh] s x2 := by
      exact h1
    try clear_value x2
    split
    · refine Leaves.done ?_
      refine Same.andThen State.parkWait_same (by decide) ?_
      exact h2
    · refine Leaves.ite ?_ ?_
      · refine Leaves.done ?_
        refine Same.andThen State.endDesc_same (by decide) ?_
        refine Same.andThen State.consume_same (by decide) ?_
        exact h2
      · extract_lets -merge +onlyGivenNames x3
        have h3 : Same [.fns, .tiles, .models, .seqs, .cohorts, .sync, .boot, .out, .fresh] s x3 := by
          refine Same.andThen State.matmul_same (by decide) ?_
          exact h2
        try clear_value x3
        extract_lets -merge +onlyGivenNames x4
        have h4 : Same [.fns, .tiles, .models, .seqs, .cohorts, .sync, .boot, .out, .fresh] s x4 := by
          refine Same.ite ?_ ?_
          · refine Same.andThen State.endRows_same (by decide) ?_
            exact h3
          · exact h3
        try clear_value x4
        refine Leaves.done ?_
        refine Same.andThen State.endDesc_same (by decide) ?_
        refine Same.andThen State.consume_same (by decide) ?_
        exact h4

theorem execRescaleBlockWrite_same {tile} {stream} {s} : Leaves [.tiles] s (execRescaleBlockWrite tile stream s) := by
  unfold execRescaleBlockWrite
  split
  · refine Leaves.ite ?_ ?_
    · refine Leaves.done ?_
      exact Same.mono State.writeRescale_same (by decide)
    · refine Leaves.done ?_
      exact Same.refl _ _
  · refine Leaves.done ?_
    exact Same.refl _ _

theorem execVectorRun_same {c} {d} {s} : Leaves [.fns, .tiles, .models, .cohorts, .sync, .out] s (execVectorRun c d s) := by
  unfold execVectorRun
  extract_lets -merge +onlyGivenNames x0
  have h0 : Same [.fns, .tiles, .models, .cohorts, .sync, .out] s x0.2 := by
    exact Same.mono State.startDesc_same (by decide)
  try clear_value x0
  split
  · refine Leaves.done ?_
    exact h0
  · extract_lets -merge +onlyGivenNames x1
    have h1 : Same [.fns, .tiles, .models, .cohorts, .sync, .out] s x1 := by
      refine Same.andThen State.vecBegin_same (by decide) ?_
      exact h0
    try clear_value x1
    extract_lets -merge +onlyGivenNames x2
    have h2 : Same [.fns, .tiles, .models, .cohorts, .sync, .out] s x2 := by
      refine Same.ite ?_ ?_
      · refine Same.andThen State.loadScalars_same (by decide) ?_
        exact h1
      · exact h1
    try clear_value x2
    extract_lets -merge +onlyGivenNames x3
    refine Leaves.done ?_
    refine Same.andThen State.endDesc_same (by decide) ?_
    refine Same.andThen State.runIterations_same (by decide) ?_
    exact h2

theorem execPrismAttend_same {c} {d} {s} : Leaves [.fns, .tiles, .models, .seqs, .cohorts, .sync, .relayStat, .boot, .out, .fresh] s (execPrismAttend c d s) := by
  unfold execPrismAttend
  refine Leaves.done ?_
  exact Same.mono State.prismJoin_same (by decide)

theorem execPrismPartial_same {c} {d} {s} : Leaves [.fns, .tiles, .models, .seqs, .cohorts, .sync, .relayStat, .boot, .out, .fresh] s (execPrismPartial c d s) := by
  unfold execPrismPartial
  refine Leaves.done ?_
  exact Same.mono State.prismJoin_same (by decide)

theorem execPrismMerge_same {c} {d} {s} : Leaves [.fns, .tiles, .models, .seqs, .cohorts, .sync, .relayStat, .boot, .out, .fresh] s (execPrismMerge c d s) := by
  unfold execPrismMerge
  refine Leaves.done ?_
  exact Same.mono State.prismJoin_same (by decide)

theorem execFetchStream_same {c} {d} {s} : Leaves [.fns, .tiles, .models, .cohorts, .sync, .out] s (execFetchStream c d s) := by
  unfold execFetchStream
  extract_lets -merge +onlyGivenNames x0
  extract_lets -merge +onlyGivenNames x1
  have h1 : Same [.fns, .tiles, .models, .cohorts, .sync, .out] s x1.2 := by
    exact Same.mono State.startDesc_same (by decide)
  try clear_value x1
  split
  · refine Leaves.done ?_
    exact h1
  · extract_lets -merge +onlyGivenNames x2
    have h2 : Same [.fns, .tiles, .models, .cohorts, .sync, .out] s x2 := by
      exact h1
    try clear_value x2
    split
    · refine Leaves.done ?_
      refine Same.andThen State.stallOn_same (by decide) ?_
      refine Same.andThen State.parkWait_same (by decide) ?_
      exact h2
    · refine Leaves.ite ?_ ?_
      · refine Leaves.done ?_
        refine Same.andThen State.parkWait_same (by decide) ?_
        exact h2
      · refine Leaves.done ?_
        refine Same.andThen State.endDesc_same (by decide) ?_
        refine Same.andThen State.bindStream_same (by decide) ?_
        exact h2

theorem execFetchStage_same {c} {d} {s} : Leaves [.fns, .tiles, .models, .cohorts, .sync, .out] s (execFetchStage c d s) := by
  unfold execFetchStage
  extract_lets -merge +onlyGivenNames x0
  extract_lets -merge +onlyGivenNames x1
  have h1 : Same [.fns, .tiles, .models, .cohorts, .sync, .out] s x1.2 := by
    exact Same.mono State.startDesc_same (by decide)
  try clear_value x1
  split
  · refine Leaves.done ?_
    exact h1
  · extract_lets -merge +onlyGivenNames x2
    have h2 : Same [.fns, .tiles, .models, .cohorts, .sync, .out] s x2 := by
      exact h1
    try clear_value x2
    refine Leaves.ite ?_ ?_
    · refine Leaves.done ?_
      refine Same.andThen State.endDesc_same (by decide) ?_
      exact h2
    · split
      · refine Leaves.done ?_
        refine Same.andThen State.stallOn_same (by decide) ?_
        refine Same.andThen State.parkWait_same (by decide) ?_
        exact h2
      · extract_lets -merge +onlyGivenNames x3
        have h3 : Same [.fns, .tiles, .models, .cohorts, .sync, .out] s x3 := by
          refine Same.andThen State.scrPut_same (by decide) ?_
          exact h2
        try clear_value x3
        refine Leaves.done ?_
        refine Same.andThen State.endDesc_same (by decide) ?_
        exact h3

theorem execExchangeNarrow_same {c} {d} {s} : Leaves ([.fns, .tiles, .models, .seqs, .cohorts, .treeOps, .sync, .ports, .inbox, .msgId] ++ [.undelivered, .um, .swapQueue, .boot, .out, .held]) s (execExchangeNarrow c d s) := by
  unfold execExchangeNarrow
  refine Leaves.done ?_
  unfold State.exchange
  extract_lets -merge +onlyGivenNames x0
  extract_lets -merge +onlyGivenNames x1
  have h1 : Same ([.fns, .tiles, .models, .seqs, .cohorts, .treeOps, .sync, .ports, .inbox, .msgId] ++ [.undelivered, .um, .swapQueue, .boot, .out, .held]) s x1.2 := by
    exact Same.mono State.startDesc_same (by decide)
  try clear_value x1
  split
  · exact h1
  · split
    · refine Same.andThen State.endDesc_same (by decide) ?_
      refine Same.andThen State.syncResult_same (by decide) ?_
      exact h1
    · extract_lets -merge +onlyGivenNames x2
      have h2 : Same ([.fns, .tiles, .models, .seqs, .cohorts, .treeOps, .sync, .ports, .inbox, .msgId] ++ [.undelivered, .um, .swapQueue, .boot, .out, .held]) s x2 := by
        unfold x2
        refine Same.andThen State.sendNarrow_same (by decide) ?_
        exact h1
      try clear_value x2
      refine Same.andThen State.cutLost_same (by decide) ?_
      refine Same.andThen State.endDesc_same (by decide) ?_
      refine Same.upd ?_ (fun p hp => by cases p <;> first | exact absurd (by decide) hp | exact rfl)
      exact h2

theorem execExchangeWide_same {c} {d} {s} : Leaves ([.fns, .tiles, .models, .seqs, .cohorts, .treeOps, .sync, .ports, .inbox, .msgId] ++ [.undelivered, .um, .swapQueue, .boot, .out, .held]) s (execExchangeWide c d s) := by
  unfold execExchangeWide
  refine Leaves.done ?_
  unfold State.exchange
  extract_lets -merge +onlyGivenNames x0
  extract_lets -merge +onlyGivenNames x1
  have h1 : Same ([.fns, .tiles, .models, .seqs, .cohorts, .treeOps, .sync, .ports, .inbox, .msgId] ++ [.undelivered, .um, .swapQueue, .boot, .out, .held]) s x1.2 := by
    exact Same.mono State.startDesc_same (by decide)
  try clear_value x1
  split
  · exact h1
  · split
    · refine Same.andThen State.endDesc_same (by decide) ?_
      refine Same.andThen State.syncResult_same (by decide) ?_
      exact h1
    · extract_lets -merge +onlyGivenNames x2
      have h2 : Same ([.fns, .tiles, .models, .seqs, .cohorts, .treeOps, .sync, .ports, .inbox, .msgId] ++ [.undelivered, .um, .swapQueue, .boot, .out, .held]) s x2 := by
        unfold x2
        refine Same.andThen State.sendWide_same (by decide) ?_
        exact h1
      try clear_value x2
      refine Same.andThen State.cutLost_same (by decide) ?_
      refine Same.andThen State.endDesc_same (by decide) ?_
      refine Same.upd ?_ (fun p hp => by cases p <;> first | exact absurd (by decide) hp | exact rfl)
      exact h2

theorem State.exchange_same {l : List Piece} {s : State} {c : DCtx} {d : BitVec 512}
    {g : State → Cohort → ExchOp → Slice → BitVec 16 → List (Fin 32) → State} (hg : ∀ s k e x y r, Same l s (g s k e x y r))
    (hl : ∀ p ∈ ([.fns, .tiles, .models, .seqs, .cohorts, .treeOps, .sync, .ports, .inbox, .msgId] ++ [.undelivered, .um, .swapQueue, .boot, .out, .held]), p ∈ l) : Same l s (s.exchange c d g) := by
  unfold State.exchange
  extract_lets -merge +onlyGivenNames e r
  have hr : Same l s r.2 := State.startDesc_same.mono fun p hp => hl p (by revert p; decide)
  clear_value r
  split
  · exact hr
  · split
    · exact State.endDesc_same.andThen (fun p hp => hl p (by revert p; decide))
        (State.syncResult_same.andThen (fun p hp => hl p (by revert p; decide)) hr)
    · refine State.cutLost_same.andThen (fun p hp => hl p (by revert p; decide))
        (State.endDesc_same.andThen (fun p hp => hl p (by revert p; decide)) ?_)
      exact Same.andThen (l' := [.msgId])
        (Same.upd (Same.refl _ _) (fun p hp => by cases p <;> first | exact absurd (by decide) hp | exact rfl))
        (fun p hp => hl p (by revert p; decide)) ((hg _ _ _ _ _ _).andThen (fun _ q => q) hr)

theorem execExchangeRaw_same {c} {d} {s} : Leaves ([.fns, .tiles, .models, .seqs, .cohorts, .treeOps, .sync, .ports, .inbox, .msgId] ++ [.undelivered, .um, .swapQueue, .boot, .out, .held]) s (execExchangeRaw c d s) := by
  exact Leaves.done (State.exchange_same (fun s k e x y r => State.sendMessage_same.mono (by decide)) (by decide))

theorem execAppendKv_same {c} {d} {s} : Leaves [.tiles, .models, .cohorts, .sync] s (execAppendKv c d s) := by
  unfold execAppendKv
  extract_lets -merge +onlyGivenNames x0
  have h0 : Same [.tiles, .models, .cohorts, .sync] s x0.2 := by
    exact Same.mono State.startDesc_same (by decide)
  try clear_value x0
  split
  · refine Leaves.done ?_
    exact h0
  · extract_lets -merge +onlyGivenNames x1
    refine Leaves.ite ?_ ?_
    · refine Leaves.done ?_
      refine Same.andThen State.parkWait_same (by decide) ?_
      exact h0
    · split
      · extract_lets -merge +onlyGivenNames x2
        extract_lets -merge +onlyGivenNames x3
        have h3 : Same [.tiles, .models, .cohorts, .sync] s x3 := by
          refine Same.foldl (fun y4 a4 => ?_) ?_
          · exact Same.mono State.appendRow_same (by decide)
          · exact h0
        try clear_value x3
        refine Leaves.done ?_
        refine Same.andThen State.endDesc_same (by decide) ?_
        exact h3
      · refine Leaves.done ?_
        refine Same.andThen State.endDesc_same (by decide) ?_
        exact h0

theorem execLoopEmbed_same {c} {d} {loc} {s} : Leaves [.tiles, .models, .cohorts, .sync, .fresh] s (execLoopEmbed c d loc s) := by
  unfold execLoopEmbed
  refine Leaves.done ?_
  unfold State.loopRun
  extract_lets -merge +onlyGivenNames x0
  have h0 : Same [.tiles, .models, .cohorts, .sync, .fresh] s x0.2 := by
    exact Same.mono State.startDesc_same (by decide)
  try clear_value x0
  split
  · exact h0
  · extract_lets -merge +onlyGivenNames x1
    have h1 : Same [.tiles, .models, .cohorts, .sync, .fresh] s x1 := by
      refine Same.andThen State.vecBegin_same (by decide) ?_
      exact h0
    try clear_value x1
    extract_lets -merge +onlyGivenNames x2
    have h2 : Same [.tiles, .models, .cohorts, .sync, .fresh] s x2.1 := by
      unfold x2
      refine Same.pairFst ?_
      refine Same.foldl (fun y3 a3 => ?_) ?_
      · exact Same.mono State.scrPut_same (by decide)
      · exact h1
    try clear_value x2
    refine Same.andThen State.endDesc_same (by decide) ?_
    refine Same.andThen State.loopLeave_same (by decide) ?_
    exact h2

theorem State.loopRun_same {l : List Piece} {s : State} {c : DCtx} {d : BitVec 512} {op : Nat}
    {g : State → Cohort → List (Fin 32) → State × BitVec 5} (hg : ∀ s k r, Same l s (g s k r).1)
    (hl : ∀ p ∈ [.tiles, .models, .cohorts, .sync, .fresh], p ∈ l) : Same l s (s.loopRun c d op g) := by
  unfold State.loopRun
  extract_lets -merge +onlyGivenNames r
  have hr : Same l s r.2 := State.startDesc_same.mono fun p hp => hl p (by revert p; decide)
  clear_value r
  split
  · exact hr
  · extract_lets -merge +onlyGivenNames s1
    have h1 : Same l s s1 := State.vecBegin_same.andThen (fun p hp => hl p (by revert p; decide)) hr
    clear_value s1
    extract_lets -merge +onlyGivenNames x
    have hx : Same l s x.1 := (hg _ _ _).andThen (fun _ q => q) h1
    clear_value x
    exact State.endDesc_same.andThen (fun p hp => hl p (by revert p; decide))
      (State.loopLeave_same.andThen (fun p hp => hl p (by revert p; decide)) hx)

theorem execLoopCandidates_same {c} {d} {s} : Leaves [.tiles, .models, .cohorts, .cands, .sync, .fresh] s (execLoopCandidates c d s) := by
  refine Leaves.done (State.loopRun_same (fun s k rows => ?_) (by decide))
  refine Same.pairFst (Same.foldl (fun y a => State.exportCand_same.mono (by decide)) ?_)
  exact Same.upd (Same.refl _ _) (fun p hp => by cases p <;> first | exact absurd (by decide) hp | exact rfl)

theorem execLoopSample_same {c} {d} {peers} {s} : Leaves [.tiles, .models, .seqs, .cohorts, .sampled, .sync, .boot, .fresh] s (execLoopSample c d peers s) := by
  refine Leaves.done (State.loopRun_same (fun s k rows => ?_) (by decide))
  refine Same.pairFst (Same.foldl (fun y a => Same.ite (Same.refl _ _) (State.sampleFault_same.mono (by decide))) ?_)
  exact Same.upd (Same.refl _ _) (fun p hp => by cases p <;> first | exact absurd (by decide) hp | exact rfl)

theorem execLoopAccept_same {c} {d} {s} : Leaves [.tiles, .models, .seqs, .cohorts, .sync, .specStat, .specSource, .boot, .fresh] s (execLoopAccept c d s) := by
  unfold execLoopAccept
  refine Leaves.done ?_
  unfold State.loopRun
  extract_lets -merge +onlyGivenNames x0
  have h0 : Same [.tiles, .models, .seqs, .cohorts, .sync, .specStat, .specSource, .boot, .fresh] s x0.2 := by
    exact Same.mono State.startDesc_same (by decide)
  try clear_value x0
  split
  · exact h0
  · extract_lets -merge +onlyGivenNames x1
    have h1 : Same [.tiles, .models, .seqs, .cohorts, .sync, .specStat, .specSource, .boot, .fresh] s x1 := by
      refine Same.andThen State.vecBegin_same (by decide) ?_
      exact h0
    try clear_value x1
    extract_lets -merge +onlyGivenNames x2
    have h2 : Same [.tiles, .models, .seqs, .cohorts, .sync, .specStat, .specSource, .boot, .fresh] s x2.1 := by
      unfold x2
      refine Same.pairFst ?_
      refine Same.foldl (fun y3 a3 => ?_) ?_
      · split
        · exact Same.mono State.acceptSeq_same (by decide)
        · exact Same.refl _ _
      · exact h1
    try clear_value x2
    refine Same.andThen State.endDesc_same (by decide) ?_
    refine Same.andThen State.loopLeave_same (by decide) ?_
    exact h2

theorem execLoopStopEmit_same {c} {d} {s} : Leaves [.fns, .tiles, .models, .seqs, .cohorts, .sync, .out, .held, .fresh] s (execLoopStopEmit c d s) := by
  unfold execLoopStopEmit
  refine Leaves.done ?_
  unfold State.loopRun
  extract_lets -merge +onlyGivenNames x0
  have h0 : Same [.fns, .tiles, .models, .seqs, .cohorts, .sync, .out, .held, .fresh] s x0.2 := by
    exact Same.mono State.startDesc_same (by decide)
  try clear_value x0
  split
  · exact h0
  · extract_lets -merge +onlyGivenNames x1
    have h1 : Same [.fns, .tiles, .models, .seqs, .cohorts, .sync, .out, .held, .fresh] s x1 := by
      refine Same.andThen State.vecBegin_same (by decide) ?_
      exact h0
    try clear_value x1
    extract_lets -merge +onlyGivenNames x2
    have h2 : Same [.fns, .tiles, .models, .seqs, .cohorts, .sync, .out, .held, .fresh] s x2.1 := by
      unfold x2
      refine Same.foldlFst (fun y3 a3 => ?_) ?_
      · split
        · refine Same.iteFst ?_ ?_
          · exact Same.refl _ _
          · split
            · extract_lets -merge +onlyGivenNames x4
              have h4 : Same [.fns, .tiles, .models, .seqs, .cohorts, .sync, .out, .held, .fresh] y3.1 x4.1 := by
                refine Same.andThen State.emitSeq_same (by decide) ?_
                exact Same.refl _ _
              try clear_value x4
              refine Same.pairFst ?_
              refine Same.andThen State.modSeq_same (by decide) ?_
              exact h4
            · exact Same.refl _ _
        · exact Same.refl _ _
      · refine Same.pairFst ?_
        exact h1
    try clear_value x2
    refine Same.andThen State.endDesc_same (by decide) ?_
    refine Same.andThen State.loopLeave_same (by decide) ?_
    exact h2

theorem execLoopStepEnd_same {c} {d} {s} : Leaves ([.fns, .tiles, .models, .seqs, .cohorts, .treeOps, .sync, .ports, .inbox, .msgId] ++ [.undelivered, .um, .swapQueue, .boot, .out, .held, .fresh]) s (execLoopStepEnd c d s) := by
  refine Leaves.done (State.cutLost_same.andThen (by decide) (State.loopRun_same (fun s k rows => ?_) (by decide)))
  refine Same.pairFst (State.modCohort_same.andThen (by decide) ?_)
  split
  · exact Same.foldl (fun y a => State.control_same.mono (by decide)) (Same.refl _ _)
  · exact Same.refl _ _

theorem execSyncFill_same {word} {v} {s} : Leaves [.sync] s (execSyncFill word v s) := by
  unfold execSyncFill
  extract_lets -merge +onlyGivenNames x0
  have h0 : Same [.sync] s x0.2 := by
    exact Same.mono State.applyFill_same (by decide)
  try clear_value x0
  refine Leaves.done ?_
  refine Same.andThen State.syncResult_same (by decide) ?_
  exact h0

theorem execSyncTake_same {word} {unit} {engine} {s} : Leaves [.sync] s (execSyncTake word unit engine s) := by
  unfold execSyncTake
  extract_lets -merge +onlyGivenNames x0
  have h0 : Same [.sync] s x0.2.2 := by
    exact Same.mono State.applyTake_same (by decide)
  try clear_value x0
  refine Leaves.done ?_
  refine Same.andThen State.syncResult_same (by decide) ?_
  exact h0

theorem execSyncPeek_same {word} {unit} {engine} {s} : Leaves [.sync] s (execSyncPeek word unit engine s) := by
  unfold execSyncPeek
  extract_lets -merge +onlyGivenNames x0
  have h0 : Same [.sync] s x0.2.2 := by
    exact Same.mono State.applyPeek_same (by decide)
  try clear_value x0
  refine Leaves.done ?_
  refine Same.andThen State.syncResult_same (by decide) ?_
  exact h0

theorem execSyncClear_same {word} {s} : Leaves [.sync] s (execSyncClear word s) := by
  unfold execSyncClear
  extract_lets -merge +onlyGivenNames x0
  have h0 : Same [.sync] s x0.2 := by
    exact Same.mono State.applyClear_same (by decide)
  try clear_value x0
  refine Leaves.done ?_
  refine Same.andThen State.syncResult_same (by decide) ?_
  exact h0

theorem execSyncPoison_same {word} {s} : Leaves [.sync] s (execSyncPoison word s) := by
  unfold execSyncPoison
  extract_lets -merge +onlyGivenNames x0
  have h0 : Same [.sync] s x0.2 := by
    exact Same.mono State.applyPoison_same (by decide)
  try clear_value x0
  refine Leaves.done ?_
  refine Same.andThen State.syncResult_same (by decide) ?_
  exact h0

theorem execDoneFillRetry_same {idx} {s} : Leaves [.sync] s (execDoneFillRetry idx s) := by
  unfold execDoneFillRetry
  split
  · refine Leaves.ite ?_ ?_
    · extract_lets -merge +onlyGivenNames x0
      have h0 : Same [.sync] s x0.2 := by
        exact Same.mono State.applyFill_same (by decide)
      try clear_value x0
      refine Leaves.ite ?_ ?_
      · refine Leaves.done ?_
        exact Same.mono State.syncResult_same (by decide)
      · refine Leaves.done ?_
        refine Same.andThen State.syncResult_same (by decide) ?_
        refine Same.andThen State.dropRetry_same (by decide) ?_
        exact h0
    · refine Leaves.done ?_
      exact Same.refl _ _
  · refine Leaves.done ?_
    exact Same.refl _ _

theorem execWatchRetry_same {idx} {s} : Leaves [.sync] s (execWatchRetry idx s) := by
  unfold execWatchRetry
  split
  · refine Leaves.ite ?_ ?_
    · refine Leaves.done ?_
      exact Same.refl _ _
    · extract_lets -merge +onlyGivenNames x0
      have h0 : Same [.sync] s x0.2.2 := by
        refine Same.iteThird ?_ ?_
        · exact Same.mono State.applyTake_same (by decide)
        · exact Same.mono State.applyPeek_same (by decide)
      try clear_value x0
      extract_lets -merge +onlyGivenNames x1
      have h1 : Same [.sync] s x1 := by
        refine Same.ite ?_ ?_
        · exact h0
        · refine Same.ite ?_ ?_
          · refine Same.andThen State.sameWait_same (by decide) ?_
            refine Same.andThen State.dropRetry_same (by decide) ?_
            exact h0
          · refine Same.andThen State.deliverRetry_same (by decide) ?_
            refine Same.andThen State.dropRetry_same (by decide) ?_
            exact h0
      try clear_value x1
      refine Leaves.done ?_
      refine Same.andThen State.syncResult_same (by decide) ?_
      exact h1
  · refine Leaves.done ?_
    exact Same.refl _ _

theorem execHangWatch_same {idx} {kind} {waited} {s} : Leaves [.fns, .sync, .out] s (execHangWatch idx kind waited s) := by
  unfold execHangWatch
  refine Leaves.ite ?_ ?_
  · split
    · refine Leaves.ite ?_ ?_
      · refine Leaves.done ?_
        refine Same.andThen State.hangEvent_same (by decide) ?_
        exact Same.mono State.modSync_same (by decide)
      · refine Leaves.done ?_
        exact Same.refl _ _
    · refine Leaves.done ?_
      exact Same.refl _ _
  · refine Leaves.ite ?_ ?_
    · split
      · refine Leaves.ite ?_ ?_
        · refine Leaves.done ?_
          refine Same.andThen State.hangEvent_same (by decide) ?_
          exact Same.mono State.modSync_same (by decide)
        · refine Leaves.done ?_
          exact Same.refl _ _
      · refine Leaves.done ?_
        exact Same.refl _ _
    · refine Leaves.ite ?_ ?_
      · refine Leaves.done ?_
        exact Same.refl _ _
      · split
        · refine Leaves.ite ?_ ?_
          · refine Leaves.done ?_
            refine Same.andThen State.hangEvent_same (by decide) ?_
            exact Same.mono State.modSync_same (by decide)
          · refine Leaves.done ?_
            exact Same.refl _ _
        · refine Leaves.done ?_
          exact Same.refl _ _

theorem execWindowFill_same {model} {s} : Leaves [.models, .cohorts] s (execWindowFill model s) := by
  unfold execWindowFill
  split
  · refine Leaves.done ?_
    exact Same.refl _ _
  · extract_lets -merge +onlyGivenNames x0
    split
    · refine Leaves.done ?_
      exact Same.refl _ _
    · refine Leaves.ite ?_ ?_
      · refine Leaves.done ?_
        exact Same.refl _ _
      · extract_lets -merge +onlyGivenNames x1
        extract_lets -merge +onlyGivenNames x2
        have h2 : Same [.models, .cohorts] s x2 := by
          exact Same.mono State.modLoad_same (by decide)
        try clear_value x2
        refine Leaves.done ?_
        refine Same.andThen State.releaseWindow_same (by decide) ?_
        refine Same.andThen State.endStalls_same (by decide) ?_
        exact h2

theorem execWindowTimeout_same {model} {cohort} {s} : Leaves ([.fns, .tiles, .models, .seqs, .cohorts, .treeOps, .sync, .um, .swapQueue, .boot] ++ [.out, .held]) s (execWindowTimeout model cohort s) := by
  unfold execWindowTimeout
  split
  · extract_lets -merge +onlyGivenNames x0
    extract_lets -merge +onlyGivenNames x1
    have h1 : Same ([.fns, .tiles, .models, .seqs, .cohorts, .treeOps, .sync, .um, .swapQueue, .boot] ++ [.out, .held]) s x1 := by
      exact Same.mono State.modModel_same (by decide)
    try clear_value x1
    refine Leaves.done ?_
    refine Same.andThen State.cutCohort_same (by decide) ?_
    exact h1
  · refine Leaves.done ?_
    exact Same.refl _ _

theorem execFlashUnitRead_same {model} {sec} {unit} {fast} {slow} {mirrorOk} {s} : Leaves [.fns, .models, .flash, .out] s (execFlashUnitRead model sec unit fast slow mirrorOk s) := by
  unfold execFlashUnitRead
  extract_lets -merge +onlyGivenNames x0
  have h0 : Same [.fns, .models, .flash, .out] s x0 := by
    exact Same.mono State.modFlash_same (by decide)
  try clear_value x0
  refine Leaves.ite ?_ ?_
  · refine Leaves.done ?_
    exact h0
  · refine Leaves.ite ?_ ?_
    · refine Leaves.done ?_
      refine Same.andThen State.modFlash_same (by decide) ?_
      exact h0
    · extract_lets -merge +onlyGivenNames x1
      have h1 : Same [.fns, .models, .flash, .out] s x1 := by
        refine Same.andThen State.modFlash_same (by decide) ?_
        exact h0
      try clear_value x1
      refine Leaves.ite ?_ ?_
      · extract_lets -merge +onlyGivenNames x2
        have h2 : Same [.fns, .models, .flash, .out] s x2 := by
          refine Same.andThen State.modFlash_same (by decide) ?_
          exact h1
        try clear_value x2
        refine Leaves.ite ?_ ?_
        · refine Leaves.done ?_
          refine Same.andThen State.modFlash_same (by decide) ?_
          exact h2
        · refine Leaves.done ?_
          refine Same.andThen State.quarantineUnit_same (by decide) ?_
          exact h2
      · refine Leaves.done ?_
        refine Same.andThen State.quarantineUnit_same (by decide) ?_
        exact h1

theorem execReadRetry_same {model} {sec} {unit} {ok} {s} : Leaves [.fns, .models, .flash, .out] s (execReadRetry model sec unit ok s) := by
  unfold execReadRetry
  refine Leaves.ite ?_ ?_
  · refine Leaves.done ?_
    exact Same.refl _ _
  · extract_lets -merge +onlyGivenNames x0
    have h0 : Same [.fns, .models, .flash, .out] s x0 := by
      exact Same.mono State.modFlash_same (by decide)
    try clear_value x0
    refine Leaves.ite ?_ ?_
    · extract_lets -merge +onlyGivenNames x1
      have h1 : Same [.fns, .models, .flash, .out] s x1 := by
        refine Same.andThen State.modFlash_same (by decide) ?_
        exact h0
      try clear_value x1
      refine Leaves.done ?_
      refine Same.andThen State.modModel_same (by decide) ?_
      exact h1
    · refine Leaves.done ?_
      refine Same.andThen State.loseUnit_same (by decide) ?_
      exact h0

theorem execReadDisturbScan_same {block} {worst} {threshold} {s} : Leaves [.flash] s (execReadDisturbScan block worst threshold s) := by
  unfold execReadDisturbScan
  split
  · refine Leaves.ite ?_ ?_
    · refine Leaves.done ?_
      exact Same.refl _ _
    · refine Leaves.ite ?_ ?_
      · refine Leaves.done ?_
        exact Same.mono State.modFlash_same (by decide)
      · refine Leaves.done ?_
        exact Same.mono State.modFlash_same (by decide)
  · refine Leaves.done ?_
    exact Same.refl _ _

theorem execBlockRefresh_same {block} {target} {ok} {s} : Leaves [.flash] s (execBlockRefresh block target ok s) := by
  unfold execBlockRefresh
  refine Leaves.ite ?_ ?_
  · refine Leaves.done ?_
    exact Same.refl _ _
  · refine Leaves.ite ?_ ?_
    · refine Leaves.done ?_
      exact Same.mono State.modFlash_same (by decide)
    · refine Leaves.done ?_
      exact Same.mono State.modFlash_same (by decide)

theorem execStaticWearMove_same {target} {src} {dst} {s} : Leaves [.flash] s (execStaticWearMove target src dst s) := by
  unfold execStaticWearMove
  extract_lets -merge +onlyGivenNames x0
  extract_lets -merge +onlyGivenNames x1
  extract_lets -merge +onlyGivenNames x2
  extract_lets -merge +onlyGivenNames x3
  extract_lets -merge +onlyGivenNames x4
  split
  · extract_lets -merge +onlyGivenNames x5
    refine Leaves.ite ?_ ?_
    · refine Leaves.done ?_
      exact Same.mono State.modFlash_same (by decide)
    · refine Leaves.done ?_
      exact Same.refl _ _
  · refine Leaves.done ?_
    exact Same.refl _ _

theorem execBlockErase_same {block} {ok} {s} : Leaves [.models, .flash] s (execBlockErase block ok s) := by
  unfold execBlockErase
  split
  · split
    · extract_lets -merge +onlyGivenNames x0
      refine Leaves.done ?_
      refine Same.andThen State.emptySlot_same (by decide) ?_
      exact Same.mono State.modFlash_same (by decide)
    · refine Leaves.done ?_
      exact Same.refl _ _
  · refine Leaves.done ?_
    exact Same.refl _ _

theorem execScrubRead_same {stack} {errs} {data} {passDone} {s} : Leaves [.fns, .tiles, .models, .seqs, .boot, .out, .fresh] s (execScrubRead stack errs data passDone s) := by
  unfold execScrubRead
  extract_lets -merge +onlyGivenNames z0_0 x0
  have h0 : Same [.fns, .tiles, .models, .seqs, .boot, .out, .fresh] s x0 := by
    refine Same.ite ?_ ?_
    · exact Same.refl _ _
    · refine Same.ite ?_ ?_
      · exact Same.mono State.corrected_same (by decide)
      · refine Same.ite ?_ ?_
        · refine Same.andThen State.scrubbed_same (by decide) ?_
          refine Same.andThen State.uncorrectable_same (by decide) ?_
          exact Same.mono State.reported_same (by decide)
        · exact Same.mono State.reported_same (by decide)
  try clear_value x0
  refine Leaves.done ?_
  refine Same.ite ?_ ?_
  · refine Same.andThen State.modEcc_same (by decide) ?_
    exact h0
  · exact h0

theorem execTileReread_same {model} {sec} {unit} {found} {ok} {s} : Leaves [.fns, .tiles, .models, .seqs, .boot, .out] s (execTileReread model sec unit found ok s) := by
  unfold execTileReread
  extract_lets -merge +onlyGivenNames x0
  extract_lets -merge +onlyGivenNames x1
  have h1 : Same [.fns, .tiles, .models, .seqs, .boot, .out] s x1 := by
    unfold x1
    split
    · split
      · refine Same.andThen State.endRows_same (by decide) ?_
        exact Same.mono State.uncorrectable_same (by decide)
      · exact Same.mono State.uncorrectable_same (by decide)
    · exact Same.refl _ _
  try clear_value x1
  refine Leaves.done ?_
  refine Same.ite ?_ ?_
  · exact h1
  · refine Same.andThen State.quarantineUnit_same (by decide) ?_
    exact h1

theorem execSwapFlushDone_same {handle} {ok} {s} : Leaves ([.fns, .models, .seqs, .treeOps, .sync, .um, .swapStat, .swapQueue, .boot, .out] ++ [.held]) s (execSwapFlushDone handle ok s) := by
  unfold execSwapFlushDone
  split
  · refine Leaves.done ?_
    exact Same.refl _ _
  · refine Leaves.ite ?_ ?_
    · refine Leaves.done ?_
      exact Same.refl _ _
    · split
      · refine Leaves.done ?_
        exact Same.refl _ _
      · refine Leaves.ite ?_ ?_
        · extract_lets -merge +onlyGivenNames x0
          have h0 : Same ([.fns, .models, .seqs, .treeOps, .sync, .um, .swapStat, .swapQueue, .boot, .out] ++ [.held]) s x0 := by
            exact Same.mono State.logHostRead_same (by decide)
          try clear_value x0
          refine Leaves.done ?_
          refine Same.ite ?_ ?_
          · refine Same.andThen State.stopSwap_same (by decide) ?_
            exact h0
          · refine Same.andThen State.partOver_same (by decide) ?_
            exact h0
        · extract_lets -merge +onlyGivenNames x1
          have h1 : Same ([.fns, .models, .seqs, .treeOps, .sync, .um, .swapStat, .swapQueue, .boot, .out] ++ [.held]) s x1 := by
            refine Same.andThen State.modSeq_same (by decide) ?_
            exact Same.mono State.swapOutPage_same (by decide)
          try clear_value x1
          refine Leaves.ite ?_ ?_
          · refine Leaves.done ?_
            refine Same.andThen State.stopSwap_same (by decide) ?_
            exact h1
          · refine Leaves.ite ?_ ?_
            · extract_lets -merge +onlyGivenNames x2
              have h2 : Same ([.fns, .models, .seqs, .treeOps, .sync, .um, .swapStat, .swapQueue, .boot, .out] ++ [.held]) s x2 := by
                refine Same.andThen State.partOver_same (by decide) ?_
                exact h1
              try clear_value x2
              refine Leaves.done ?_
              refine Same.ite ?_ ?_
              · refine Same.andThen State.swapOutDone_same (by decide) ?_
                exact h2
              · exact h2
            · refine Leaves.done ?_
              refine Same.andThen State.writeRecord_same (by decide) ?_
              exact h1

theorem execSwapRecordRead_same {handle} {readOk} {record} {s} : Leaves ([.fns, .models, .seqs, .treeOps, .sync, .um, .swapStat, .swapQueue, .boot, .out] ++ [.held]) s (execSwapRecordRead handle readOk record s) := by
  unfold execSwapRecordRead
  split
  · refine Leaves.done ?_
    exact Same.refl _ _
  · refine Leaves.ite ?_ ?_
    · refine Leaves.done ?_
      exact Same.refl _ _
    · split
      · refine Leaves.ite ?_ ?_
        · extract_lets -merge +onlyGivenNames x0
          have h0 : Same ([.fns, .models, .seqs, .treeOps, .sync, .um, .swapStat, .swapQueue, .boot, .out] ++ [.held]) s x0 := by
            exact Same.mono State.logHostRead_same (by decide)
          try clear_value x0
          refine Leaves.done ?_
          refine Same.ite ?_ ?_
          · refine Same.andThen State.failBack_same (by decide) ?_
            exact h0
          · refine Same.andThen State.partOver_same (by decide) ?_
            exact h0
        · refine Leaves.ite ?_ ?_
          · extract_lets -merge +onlyGivenNames x1
            have h1 : Same ([.fns, .models, .seqs, .treeOps, .sync, .um, .swapStat, .swapQueue, .boot, .out] ++ [.held]) s x1 := by
              refine Same.upd ?_ (fun p hp => by cases p <;> first | exact absurd (by decide) hp | exact rfl)
              exact Same.refl _ _
            try clear_value x1
            refine Leaves.done ?_
            refine Same.ite ?_ ?_
            · refine Same.andThen State.failBack_same (by decide) ?_
              exact h1
            · refine Same.andThen State.partOver_same (by decide) ?_
              exact h1
          · extract_lets -merge +onlyGivenNames x2
            extract_lets -merge +onlyGivenNames x3
            extract_lets -merge +onlyGivenNames x4
            have h4 : Same ([.fns, .models, .seqs, .treeOps, .sync, .um, .swapStat, .swapQueue, .boot, .out] ++ [.held]) s x4 := by
              refine Same.andThen State.modSeq_same (by decide) ?_
              exact Same.mono State.swapInPage_same (by decide)
            try clear_value x4
            refine Leaves.ite ?_ ?_
            · refine Leaves.done ?_
              refine Same.andThen State.stopSwap_same (by decide) ?_
              exact h4
            · refine Leaves.ite ?_ ?_
              · refine Leaves.done ?_
                refine Same.ite ?_ ?_
                · refine Same.andThen State.backDone_same (by decide) ?_
                  exact h4
                · refine Same.andThen State.partOver_same (by decide) ?_
                  exact h4
              · refine Leaves.done ?_
                exact h4
      · refine Leaves.done ?_
        exact Same.refl _ _

theorem execSramUncorrectable_same {r} {s} : Leaves Piece.changing s (execSramUncorrectable r s) := by
  unfold execSramUncorrectable
  extract_lets -merge +onlyGivenNames tile
  have ht : ∀ a, Same Piece.changing a (tile a) := fun a => State.modTile_same.mono (by decide)
  clear_value tile
  split
  · exact Leaves.done (State.sramData_same.andThen (by decide) (ht s))
  · exact Leaves.done (State.placeResident_same.andThen (by decide) (State.sramData_same.andThen (by decide) (ht s)))
  · exact Leaves.done (Same.ite (State.sramHub_same.mono (by decide)) (State.sramSync_same.andThen (by decide) (ht s)))
  · exact Leaves.done (State.sramHub_same.mono (by decide))

theorem execPackageFatal_same {cls} {s} : Leaves Piece.changing s (execPackageFatal cls s) := by
  unfold execPackageFatal
  refine Leaves.done ?_
  refine Same.ite ?_ ?_
  · exact Same.mono State.packageFatal_same (fun _ q => q)
  · exact Same.refl _ _

theorem execWatchdogExpiry_same {s} : Leaves Piece.changing s (execWatchdogExpiry s) := by
  unfold execWatchdogExpiry
  refine Leaves.done ?_
  refine Same.ite ?_ ?_
  · exact Same.mono State.selfReset_same (fun _ q => q)
  · exact Same.refl _ _

theorem execPowerInterval_same {estimate} {throttleInN} {s} : Leaves [.fns, .pins, .power, .out] s (execPowerInterval estimate throttleInN s) := by
  unfold execPowerInterval
  refine Leaves.ite ?_ ?_
  · refine Leaves.done ?_
    exact Same.refl _ _
  · extract_lets -merge +onlyGivenNames x0
    extract_lets -merge +onlyGivenNames x1
    extract_lets -merge +onlyGivenNames z2_0 x2
    have h2 : Same [.fns, .pins, .power, .out] s x2 := by
      refine Same.upd ?_ (fun p hp => by cases p <;> first | exact absurd (by decide) hp | exact rfl)
      exact Same.refl _ _
    try clear_value x2
    extract_lets -merge +onlyGivenNames z3_0 x3
    have h3 : Same [.fns, .pins, .power, .out] s x3 := by
      refine Same.upd ?_ (fun p hp => by cases p <;> first | exact absurd (by decide) hp | exact rfl)
      exact h2
    try clear_value x3
    refine Leaves.done ?_
    refine Same.ite ?_ ?_
    · refine Same.andThen State.throttleEvent_same (by decide) ?_
      exact h3
    · exact h3

theorem execThermalInterval_same {temps} {s} : Leaves Piece.changing s (execThermalInterval temps s) := by
  unfold execThermalInterval
  refine Leaves.ite ?_ ?_
  · refine Leaves.done ?_
    exact Same.refl _ _
  · refine Leaves.ite ?_ ?_
    · refine Leaves.done ?_
      exact Same.mono State.trip_same (fun _ q => q)
    · refine Leaves.done ?_
      exact Same.mono State.modPower_same (by decide)

theorem execThermalTrip_same {temps} {s} : Leaves Piece.changing s (execThermalTrip temps s) := by
  unfold execThermalTrip
  refine Leaves.done ?_
  refine Same.ite ?_ ?_
  · exact Same.mono State.trip_same (fun _ q => q)
  · exact Same.refl _ _

theorem execTripRestart_same {temps} {s} : Leaves [.pins, .power] s (execTripRestart temps s) := by
  unfold execTripRestart
  refine Leaves.ite ?_ ?_
  · refine Leaves.done ?_
    exact Same.refl _ _
  · refine Leaves.ite ?_ ?_
    · refine Leaves.done ?_
      exact Same.mono State.modPower_same (by decide)
    · refine Leaves.ite ?_ ?_
      · refine Leaves.done ?_
        exact Same.mono State.modPower_same (by decide)
      · extract_lets -merge +onlyGivenNames x0
        have h0 : Same [.pins, .power] s x0 := by
          exact Same.mono State.modPower_same (by decide)
        try clear_value x0
        refine Leaves.done ?_
        refine Same.upd ?_ (fun p hp => by cases p <;> first | exact absurd (by decide) hp | exact rfl)
        exact h0

theorem execPllOffTimer_same {s} : Leaves [.power] s (execPllOffTimer s) := by
  unfold execPllOffTimer
  refine Leaves.done ?_
  refine Same.ite ?_ ?_
  · exact Same.mono State.modPower_same (by decide)
  · exact Same.refl _ _

theorem execEngineGate_same {tile} {engine} {s} : Leaves [.tiles] s (execEngineGate tile engine s) := by
  unfold execEngineGate
  refine Leaves.done ?_
  refine Same.ite ?_ ?_
  · exact Same.mono State.modTile_same (by decide)
  · exact Same.refl _ _

theorem execPowerLoss_same {s} : Leaves Piece.changing s (execPowerLoss s) := by
  unfold execPowerLoss
  extract_lets -merge +onlyGivenNames x0
  have h0 : Same Piece.changing s x0 := by
    exact Same.mono State.loseSupply_same (fun _ q => q)
  try clear_value x0
  refine Leaves.done ?_
  refine Same.upd ?_ (fun p hp => by cases p <;> first | exact absurd (by decide) hp | exact rfl)
  exact h0

theorem execRailFault_same {rail} {s} : Leaves Piece.changing s (execRailFault rail s) := by
  unfold execRailFault
  extract_lets -merge +onlyGivenNames x0
  have h0 : Same Piece.changing s x0 := by
    exact Same.mono State.loseSupply_same (fun _ q => q)
  try clear_value x0
  refine Leaves.done ?_
  refine Same.upd ?_ (fun p hp => by cases p <;> first | exact absurd (by decide) hp | exact rfl)
  exact h0

theorem execAonRefclkLoss_same {s} : Leaves Piece.changing s (execAonRefclkLoss s) := by
  unfold execAonRefclkLoss
  extract_lets -merge +onlyGivenNames x0
  have h0 : Same Piece.changing s x0 := by
    exact Same.mono State.loseSupply_same (fun _ q => q)
  try clear_value x0
  refine Leaves.done ?_
  refine Same.upd ?_ (fun p hp => by cases p <;> first | exact absurd (by decide) hp | exact rfl)
  exact h0

theorem execMrefclkLoss_same {s} : Leaves ([.fns, .tiles, .models, .seqs, .cohorts, .treeOps, .sync, .ports, .slices, .inbox] ++ [.msgId, .undelivered, .um, .swapQueue, .boot, .pins, .out, .held]) s (execMrefclkLoss s) := by
  unfold execMrefclkLoss
  extract_lets -merge +onlyGivenNames z0_0 x0
  have h0 : Same ([.fns, .tiles, .models, .seqs, .cohorts, .treeOps, .sync, .ports, .slices, .inbox] ++ [.msgId, .undelivered, .um, .swapQueue, .boot, .pins, .out, .held]) s x0 := by
    refine Same.upd ?_ (fun p hp => by cases p <;> first | exact absurd (by decide) hp | exact rfl)
    exact Same.refl _ _
  try clear_value x0
  refine Leaves.done ?_
  refine Same.foldl (fun y1 a1 => ?_) ?_
  · refine Same.ite ?_ ?_
    · exact Same.refl _ _
    · exact Same.mono State.portLost_same (by decide)
  · exact h0

theorem execRefclkLoss_same {s} : Leaves ([.fns, .tiles, .models, .seqs, .reuse, .cohorts, .nextCohorts, .treeOps, .cands, .sampled] ++ [.sync, .slices, .spans, .um, .flash, .swapQueue, .boot, .pins, .out, .held]) s (execRefclkLoss s) := by
  unfold execRefclkLoss
  extract_lets -merge +onlyGivenNames x0
  have h0 : Same ([.fns, .tiles, .models, .seqs, .reuse, .cohorts, .nextCohorts, .treeOps, .cands, .sampled] ++ [.sync, .slices, .spans, .um, .flash, .swapQueue, .boot, .pins, .out, .held]) s x0 := by
    exact Same.mono State.linkLost_same (by decide)
  try clear_value x0
  refine Leaves.done ?_
  refine Same.upd ?_ (fun p hp => by cases p <;> first | exact absurd (by decide) hp | exact rfl)
  exact h0

theorem execI3cAddressAssign_same {addr} {s} : Leaves [.side] s (execI3cAddressAssign addr s) := by
  unfold execI3cAddressAssign
  refine Leaves.done ?_
  refine Same.ite ?_ ?_
  · refine Same.upd ?_ (fun p hp => by cases p <;> first | exact absurd (by decide) hp | exact rfl)
    exact Same.refl _ _
  · exact Same.refl _ _

theorem execGetVersion_same {t} {s} : Leaves [.spdm] s (execGetVersion t s) := by
  unfold execGetVersion
  refine Leaves.done ?_
  exact Same.mono State.negotiate_same (by decide)

theorem execGetCapabilities_same {t} {s} : Leaves [.spdm] s (execGetCapabilities t s) := by
  unfold execGetCapabilities
  refine Leaves.done ?_
  exact Same.mono State.negotiate_same (by decide)

theorem execNegotiateAlgorithms_same {t} {supported} {s} : Leaves [.spdm] s (execNegotiateAlgorithms t supported s) := by
  unfold execNegotiateAlgorithms
  refine Leaves.done ?_
  refine Same.ite ?_ ?_
  · exact Same.mono State.negotiate_same (by decide)
  · exact Same.mono State.negotiate_same (by decide)

theorem execGetDigests_same {t} {s} : Leaves [.spdm] s (execGetDigests t s) := by
  unfold execGetDigests
  refine Leaves.done ?_
  exact Same.mono State.respond_same (by decide)

theorem execGetCertificate_same {t} {slot} {offset} {length} {s} : Leaves [.spdm] s (execGetCertificate t slot offset length s) := by
  unfold execGetCertificate
  refine Leaves.done ?_
  exact Same.mono State.respond_same (by decide)

theorem execChallenge_same {t} {slot} {nonce} {s} : Leaves [.spdm] s (execChallenge t slot nonce s) := by
  unfold execChallenge
  refine Leaves.done ?_
  exact Same.mono State.respond_same (by decide)

theorem execGetMeasurements_same {t} {index} {s} : Leaves [.spdm, .fresh] s (execGetMeasurements t index s) := by
  unfold execGetMeasurements
  refine Leaves.done ?_
  split
  · refine Same.andThen State.respond_same (by decide) ?_
    refine SomeSame.ofSnd (by assumption) ?_
    refine SomeSame.andThen State.measurement_same (by decide) ?_
    exact Same.refl _ _
  · exact Same.mono State.respond_same (by decide)

theorem execKeyExchange_same {t} {reqId} {s} : Leaves [.spdm] s (execKeyExchange t reqId s) := by
  unfold execKeyExchange
  refine Leaves.ite ?_ ?_
  · extract_lets -merge +onlyGivenNames x0
    extract_lets -merge +onlyGivenNames x1
    have h1 : Same [.spdm] s x1 := by
      exact Same.mono State.modSpdm_same (by decide)
    try clear_value x1
    refine Leaves.done ?_
    refine Same.andThen State.answer_same (by decide) ?_
    exact h1
  · refine Leaves.done ?_
    exact Same.mono State.respond_same (by decide)

theorem execFinish_same {session} {macOk} {s} : Leaves [.spdm] s (execFinish session macOk s) := by
  unfold execFinish
  refine Leaves.done ?_
  split
  · refine Same.ite ?_ ?_
    · exact Same.refl _ _
    · refine Same.ite ?_ ?_
      · exact Same.mono State.answer_same (by decide)
      · refine Same.ite ?_ ?_
        · refine Same.andThen State.answer_same (by decide) ?_
          exact Same.mono State.modSession_same (by decide)
        · refine Same.andThen State.answer_same (by decide) ?_
          exact Same.mono State.dropSession_same (by decide)
  · exact Same.refl _ _

theorem execHeartbeat_same {session} {s} : Leaves [.spdm] s (execHeartbeat session s) := by
  unfold execHeartbeat
  refine Leaves.done ?_
  unfold State.inSession
  split
  · refine Same.ite ?_ ?_
    · exact Same.refl _ _
    · refine Same.ite ?_ ?_
      · exact Same.mono State.answer_same (by decide)
      · exact Same.mono State.answer_same (by decide)
  · exact Same.refl _ _

theorem execKeyUpdate_same {session} {s} : Leaves [.spdm] s (execKeyUpdate session s) := by
  unfold execKeyUpdate
  refine Leaves.done ?_
  unfold State.inSession
  split
  · refine Same.ite ?_ ?_
    · exact Same.refl _ _
    · refine Same.ite ?_ ?_
      · refine Same.andThen State.answer_same (by decide) ?_
        exact Same.mono State.modSession_same (by decide)
      · exact Same.mono State.answer_same (by decide)
  · exact Same.refl _ _

theorem execEndSession_same {session} {s} : Leaves [.spdm] s (execEndSession session s) := by
  unfold execEndSession
  refine Leaves.done ?_
  unfold State.inSession
  split
  · refine Same.ite ?_ ?_
    · exact Same.refl _ _
    · refine Same.ite ?_ ?_
      · refine Same.andThen State.answer_same (by decide) ?_
        exact Same.mono State.dropSession_same (by decide)
      · exact Same.mono State.answer_same (by decide)
  · exact Same.refl _ _

theorem execIdeKm_same {session} {stream} {key} {s} : Leaves [.spdm] s (execIdeKm session stream key s) := by
  unfold execIdeKm
  refine Leaves.done ?_
  unfold State.inSession
  split
  · refine Same.ite ?_ ?_
    · exact Same.refl _ _
    · refine Same.ite ?_ ?_
      · refine Same.ite ?_ ?_
        · refine Same.andThen State.answer_same (by decide) ?_
          exact Same.mono State.modSpdm_same (by decide)
        · exact Same.mono State.answer_same (by decide)
      · exact Same.mono State.answer_same (by decide)
  · exact Same.refl _ _

theorem execJtagBypass_same {tdi} {s} : Leaves [.pins, .side] s (execJtagBypass tdi s) := by
  unfold execJtagBypass
  refine Leaves.done ?_
  exact Same.mono State.jtag_same (by decide)

theorem execJtagIdcode_same {s} : Leaves [.pins, .side] s (execJtagIdcode s) := by
  unfold execJtagIdcode
  refine Leaves.done ?_
  exact Same.mono State.jtag_same (by decide)

theorem execJtagSamplePreload_same {pins} {update} {s} : Leaves [.pins, .side] s (execJtagSamplePreload pins update s) := by
  unfold execJtagSamplePreload
  refine Leaves.done ?_
  refine Same.andThen State.jtagLoad_same (by decide) ?_
  exact Same.mono State.jtag_same (by decide)

theorem execJtagExtest_same {pins} {update} {s} : Leaves [.pins, .side] s (execJtagExtest pins update s) := by
  unfold execJtagExtest
  refine Leaves.done ?_
  refine Same.ite ?_ ?_
  · refine Same.andThen State.jtagLoad_same (by decide) ?_
    exact Same.mono State.jtag_same (by decide)
  · exact Same.mono State.jtag_same (by decide)

theorem execVEnd_same {t} {f} {s} : Leaves [.tiles] s (execVEnd t f s) := by
  unfold execVEnd
  refine Leaves.ite ?_ ?_
  · refine Leaves.done ?_
    exact Same.mono State.vEnd_same (by decide)
  · exact Leaves.refused

theorem execVLd_same {t} {f} {s} : Leaves [.fns, .tiles, .out] s (execVLd t f s) := by
  unfold execVLd
  refine Leaves.ite ?_ ?_
  · refine Leaves.done ?_
    exact Same.mono State.vLd_same (by decide)
  · exact Leaves.refused

theorem execVSt_same {t} {f} {s} : Leaves [.tiles] s (execVSt t f s) := by
  unfold execVSt
  refine Leaves.ite ?_ ?_
  · refine Leaves.done ?_
    exact Same.mono State.vSt_same (by decide)
  · exact Leaves.refused

theorem execVAdd_same {t} {f} {s} : Leaves [.tiles] s (execVAdd t f s) := by
  unfold execVAdd
  refine Leaves.ite ?_ ?_
  · refine Leaves.done ?_
    exact Same.mono State.vAdd_same (by decide)
  · exact Leaves.refused

theorem execVSub_same {t} {f} {s} : Leaves [.tiles] s (execVSub t f s) := by
  unfold execVSub
  refine Leaves.ite ?_ ?_
  · refine Leaves.done ?_
    exact Same.mono State.vSub_same (by decide)
  · exact Leaves.refused

theorem execVMul_same {t} {f} {s} : Leaves [.tiles] s (execVMul t f s) := by
  unfold execVMul
  refine Leaves.ite ?_ ?_
  · refine Leaves.done ?_
    exact Same.mono State.vMul_same (by decide)
  · exact Leaves.refused

theorem execVFma_same {t} {f} {s} : Leaves [.tiles] s (execVFma t f s) := by
  unfold execVFma
  refine Leaves.ite ?_ ?_
  · refine Leaves.done ?_
    exact Same.mono State.vFma_same (by decide)
  · exact Leaves.refused

theorem execVMin_same {t} {f} {s} : Leaves [.tiles] s (execVMin t f s) := by
  unfold execVMin
  refine Leaves.ite ?_ ?_
  · refine Leaves.done ?_
    exact Same.mono State.vMin_same (by decide)
  · exact Leaves.refused

theorem execVMax_same {t} {f} {s} : Leaves [.tiles] s (execVMax t f s) := by
  unfold execVMax
  refine Leaves.ite ?_ ?_
  · refine Leaves.done ?_
    exact Same.mono State.vMax_same (by decide)
  · exact Leaves.refused

theorem execVAbs_same {t} {f} {s} : Leaves [.tiles] s (execVAbs t f s) := by
  unfold execVAbs
  refine Leaves.ite ?_ ?_
  · refine Leaves.done ?_
    exact Same.mono State.vAbs_same (by decide)
  · exact Leaves.refused

theorem execVNeg_same {t} {f} {s} : Leaves [.tiles] s (execVNeg t f s) := by
  unfold execVNeg
  refine Leaves.ite ?_ ?_
  · refine Leaves.done ?_
    exact Same.mono State.vNeg_same (by decide)
  · exact Leaves.refused

theorem execVDiv_same {t} {f} {s} : Leaves [.tiles] s (execVDiv t f s) := by
  unfold execVDiv
  refine Leaves.ite ?_ ?_
  · refine Leaves.done ?_
    exact Same.mono State.vDiv_same (by decide)
  · exact Leaves.refused

theorem execVSqrt_same {t} {f} {s} : Leaves [.tiles] s (execVSqrt t f s) := by
  unfold execVSqrt
  refine Leaves.ite ?_ ?_
  · refine Leaves.done ?_
    exact Same.mono State.vSqrt_same (by decide)
  · exact Leaves.refused

theorem execVRsq_same {t} {f} {s} : Leaves [.tiles] s (execVRsq t f s) := by
  unfold execVRsq
  refine Leaves.ite ?_ ?_
  · refine Leaves.done ?_
    exact Same.mono State.vRsq_same (by decide)
  · exact Leaves.refused

theorem execVExp_same {t} {f} {s} : Leaves [.tiles] s (execVExp t f s) := by
  unfold execVExp
  refine Leaves.ite ?_ ?_
  · refine Leaves.done ?_
    exact Same.mono State.vExp_same (by decide)
  · exact Leaves.refused

theorem execVLog_same {t} {f} {s} : Leaves [.tiles] s (execVLog t f s) := by
  unfold execVLog
  refine Leaves.ite ?_ ?_
  · refine Leaves.done ?_
    exact Same.mono State.vLog_same (by decide)
  · exact Leaves.refused

theorem execVSig_same {t} {f} {s} : Leaves [.tiles] s (execVSig t f s) := by
  unfold execVSig
  refine Leaves.ite ?_ ?_
  · refine Leaves.done ?_
    exact Same.mono State.vSig_same (by decide)
  · exact Leaves.refused

theorem execVCmplt_same {t} {f} {s} : Leaves [.tiles] s (execVCmplt t f s) := by
  unfold execVCmplt
  refine Leaves.ite ?_ ?_
  · refine Leaves.done ?_
    exact Same.mono State.vCmplt_same (by decide)
  · exact Leaves.refused

theorem execVCmple_same {t} {f} {s} : Leaves [.tiles] s (execVCmple t f s) := by
  unfold execVCmple
  refine Leaves.ite ?_ ?_
  · refine Leaves.done ?_
    exact Same.mono State.vCmple_same (by decide)
  · exact Leaves.refused

theorem execVCmpeq_same {t} {f} {s} : Leaves [.tiles] s (execVCmpeq t f s) := by
  unfold execVCmpeq
  refine Leaves.ite ?_ ?_
  · refine Leaves.done ?_
    exact Same.mono State.vCmpeq_same (by decide)
  · exact Leaves.refused

theorem execVSel_same {t} {f} {s} : Leaves [.tiles] s (execVSel t f s) := by
  unfold execVSel
  refine Leaves.ite ?_ ?_
  · refine Leaves.done ?_
    exact Same.mono State.vSel_same (by decide)
  · exact Leaves.refused

theorem execVAnd_same {t} {f} {s} : Leaves [.tiles] s (execVAnd t f s) := by
  unfold execVAnd
  refine Leaves.ite ?_ ?_
  · refine Leaves.done ?_
    exact Same.mono State.vAnd_same (by decide)
  · exact Leaves.refused

theorem execVOr_same {t} {f} {s} : Leaves [.tiles] s (execVOr t f s) := by
  unfold execVOr
  refine Leaves.ite ?_ ?_
  · refine Leaves.done ?_
    exact Same.mono State.vOr_same (by decide)
  · exact Leaves.refused

theorem execVXor_same {t} {f} {s} : Leaves [.tiles] s (execVXor t f s) := by
  unfold execVXor
  refine Leaves.ite ?_ ?_
  · refine Leaves.done ?_
    exact Same.mono State.vXor_same (by decide)
  · exact Leaves.refused

theorem execVShl_same {t} {f} {s} : Leaves [.tiles] s (execVShl t f s) := by
  unfold execVShl
  refine Leaves.ite ?_ ?_
  · refine Leaves.done ?_
    exact Same.mono State.vShl_same (by decide)
  · exact Leaves.refused

theorem execVShr_same {t} {f} {s} : Leaves [.tiles] s (execVShr t f s) := by
  unfold execVShr
  refine Leaves.ite ?_ ?_
  · refine Leaves.done ?_
    exact Same.mono State.vShr_same (by decide)
  · exact Leaves.refused

theorem execVShra_same {t} {f} {s} : Leaves [.tiles] s (execVShra t f s) := by
  unfold execVShra
  refine Leaves.ite ?_ ?_
  · refine Leaves.done ?_
    exact Same.mono State.vShra_same (by decide)
  · exact Leaves.refused

theorem execVCvti_same {t} {f} {s} : Leaves [.tiles] s (execVCvti t f s) := by
  unfold execVCvti
  refine Leaves.ite ?_ ?_
  · refine Leaves.done ?_
    exact Same.mono State.vCvti_same (by decide)
  · exact Leaves.refused

theorem execVCvtf_same {t} {f} {s} : Leaves [.tiles] s (execVCvtf t f s) := by
  unfold execVCvtf
  refine Leaves.ite ?_ ?_
  · refine Leaves.done ?_
    exact Same.mono State.vCvtf_same (by decide)
  · exact Leaves.refused

theorem execVRbf_same {t} {f} {s} : Leaves [.tiles] s (execVRbf t f s) := by
  unfold execVRbf
  refine Leaves.ite ?_ ?_
  · refine Leaves.done ?_
    exact Same.mono State.vRbf_same (by decide)
  · exact Leaves.refused

theorem execVQparam_same {t} {f} {s} : Leaves [.tiles] s (execVQparam t f s) := by
  unfold execVQparam
  refine Leaves.ite ?_ ?_
  · refine Leaves.done ?_
    exact Same.mono State.vQparam_same (by decide)
  · exact Leaves.refused

theorem execVQcode_same {t} {f} {s} : Leaves [.tiles] s (execVQcode t f s) := by
  unfold execVQcode
  refine Leaves.ite ?_ ?_
  · refine Leaves.done ?_
    exact Same.mono State.vQcode_same (by decide)
  · exact Leaves.refused

theorem execVQdeq_same {t} {f} {s} : Leaves [.tiles] s (execVQdeq t f s) := by
  unfold execVQdeq
  refine Leaves.ite ?_ ?_
  · refine Leaves.done ?_
    exact Same.mono State.vQdeq_same (by decide)
  · exact Leaves.refused

theorem execVLaneid_same {t} {f} {s} : Leaves [.tiles] s (execVLaneid t f s) := by
  unfold execVLaneid
  refine Leaves.ite ?_ ?_
  · refine Leaves.done ?_
    exact Same.mono State.vLaneid_same (by decide)
  · exact Leaves.refused

theorem execVShfx_same {t} {f} {s} : Leaves [.tiles] s (execVShfx t f s) := by
  unfold execVShfx
  refine Leaves.ite ?_ ?_
  · refine Leaves.done ?_
    exact Same.mono State.vShfx_same (by decide)
  · exact Leaves.refused

theorem execVShup_same {t} {f} {s} : Leaves [.tiles] s (execVShup t f s) := by
  unfold execVShup
  refine Leaves.ite ?_ ?_
  · refine Leaves.done ?_
    exact Same.mono State.vShup_same (by decide)
  · exact Leaves.refused

theorem execVPerm_same {t} {f} {s} : Leaves [.tiles] s (execVPerm t f s) := by
  unfold execVPerm
  refine Leaves.ite ?_ ?_
  · refine Leaves.done ?_
    exact Same.mono State.vPerm_same (by decide)
  · exact Leaves.refused

theorem execVBcast_same {t} {f} {s} : Leaves [.tiles] s (execVBcast t f s) := by
  unfold execVBcast
  refine Leaves.ite ?_ ?_
  · refine Leaves.done ?_
    exact Same.mono State.vBcast_same (by decide)
  · exact Leaves.refused

theorem execVPad_same {t} {f} {s} : Leaves [.tiles] s (execVPad t f s) := by
  unfold execVPad
  refine Leaves.ite ?_ ?_
  · refine Leaves.done ?_
    exact Same.mono State.vPad_same (by decide)
  · exact Leaves.refused

theorem execVMovc_same {t} {f} {s} : Leaves [.tiles] s (execVMovc t f s) := by
  unfold execVMovc
  refine Leaves.ite ?_ ?_
  · refine Leaves.done ?_
    exact Same.mono State.vMovc_same (by decide)
  · exact Leaves.refused

theorem execVCpush_same {t} {f} {s} : Leaves [.tiles] s (execVCpush t f s) := by
  unfold execVCpush
  refine Leaves.ite ?_ ?_
  · refine Leaves.done ?_
    exact Same.mono State.vCpush_same (by decide)
  · exact Leaves.refused

theorem execVCmpr_same {t} {f} {s} : Leaves [.tiles] s (execVCmpr t f s) := by
  unfold execVCmpr
  refine Leaves.ite ?_ ?_
  · refine Leaves.done ?_
    exact Same.mono State.vCmpr_same (by decide)
  · exact Leaves.refused

theorem execVExpd_same {t} {f} {s} : Leaves [.tiles] s (execVExpd t f s) := by
  unfold execVExpd
  refine Leaves.ite ?_ ?_
  · refine Leaves.done ?_
    exact Same.mono State.vExpd_same (by decide)
  · exact Leaves.refused

theorem execVCpop_same {t} {f} {s} : Leaves [.tiles] s (execVCpop t f s) := by
  unfold execVCpop
  refine Leaves.ite ?_ ?_
  · refine Leaves.done ?_
    exact Same.mono State.vCpop_same (by decide)
  · exact Leaves.refused

theorem execVSetvl_same {t} {f} {s} : Leaves [.tiles] s (execVSetvl t f s) := by
  unfold execVSetvl
  refine Leaves.ite ?_ ?_
  · refine Leaves.done ?_
    exact Same.mono State.vSetvl_same (by decide)
  · exact Leaves.refused

theorem execVPcnt_same {t} {f} {s} : Leaves [.tiles] s (execVPcnt t f s) := by
  unfold execVPcnt
  refine Leaves.ite ?_ ?_
  · refine Leaves.done ?_
    exact Same.mono State.vPcnt_same (by decide)
  · exact Leaves.refused

theorem execVPand_same {t} {f} {s} : Leaves [.tiles] s (execVPand t f s) := by
  unfold execVPand
  refine Leaves.ite ?_ ?_
  · refine Leaves.done ?_
    exact Same.mono State.vPand_same (by decide)
  · exact Leaves.refused

theorem execVPor_same {t} {f} {s} : Leaves [.tiles] s (execVPor t f s) := by
  unfold execVPor
  refine Leaves.ite ?_ ?_
  · refine Leaves.done ?_
    exact Same.mono State.vPor_same (by decide)
  · exact Leaves.refused

theorem execVPandn_same {t} {f} {s} : Leaves [.tiles] s (execVPandn t f s) := by
  unfold execVPandn
  refine Leaves.ite ?_ ?_
  · refine Leaves.done ?_
    exact Same.mono State.vPandn_same (by decide)
  · exact Leaves.refused

theorem execVPflag_same {t} {f} {s} : Leaves [.tiles] s (execVPflag t f s) := by
  unfold execVPflag
  refine Leaves.ite ?_ ?_
  · refine Leaves.done ?_
    exact Same.mono State.vPflag_same (by decide)
  · exact Leaves.refused

theorem execPerstNHigh_same {s} : Leaves [.pins] s (execPerstNHigh s) := by
  unfold execPerstNHigh
  refine Leaves.done ?_
  refine Same.upd ?_ (fun p hp => by cases p <;> first | exact absurd (by decide) hp | exact rfl)
  exact Same.refl _ _

theorem execVfEnableSet_same {numVfs} {s} : Leaves [.fns, .sync] s (execVfEnableSet numVfs s) := by
  unfold execVfEnableSet
  refine Leaves.done ?_
  refine Same.foldl (fun y0 a0 => ?_) ?_
  · extract_lets -merge +onlyGivenNames x1
    have h1 : Same [.fns, .sync] y0 x1 := by
      exact Same.mono State.modFn_same (by decide)
    try clear_value x1
    refine Same.ite ?_ ?_
    · refine Same.andThen State.enableFn_same (by decide) ?_
      exact h1
    · exact h1
  · exact Same.refl _ _

theorem execProgramPageDone_same {block} {ok} {spare} {s} : Leaves [.flash] s (execProgramPageDone block ok spare s) := by
  unfold execProgramPageDone
  refine Leaves.ite ?_ ?_
  · refine Leaves.done ?_
    exact Same.mono State.modFlash_same (by decide)
  · refine Leaves.ite ?_ ?_
    · refine Leaves.done ?_
      exact Same.mono State.modFlash_same (by decide)
    · refine Leaves.done ?_
      exact Same.refl _ _

theorem execMrefclkReturn_same {reports} {s} : Leaves [.fns, .ports, .slices, .pins, .out] s (execMrefclkReturn reports s) := by
  unfold execMrefclkReturn
  extract_lets -merge +onlyGivenNames z0_0 x0
  have h0 : Same [.fns, .ports, .slices, .pins, .out] s x0 := by
    refine Same.upd ?_ (fun p hp => by cases p <;> first | exact absurd (by decide) hp | exact rfl)
    exact Same.refl _ _
  try clear_value x0
  refine Leaves.done ?_
  refine Same.ite ?_ ?_
  · refine Same.andThen State.trainAll_same (by decide) ?_
    exact h0
  · exact h0

theorem execTrstN_same {s} : Leaves [.pins, .side] s (execTrstN s) := by
  unfold execTrstN
  extract_lets -merge +onlyGivenNames x0
  refine Leaves.done ?_
  refine Same.upd ?_ (fun p hp => by cases p <;> first | exact absurd (by decide) hp | exact rfl)
  exact Same.refl _ _

end Sys2Proof.Machine
end

