-- ==== Sys2Proof/Laws/Sparse.lean ====
section
/-!
SUPPORT. Sys2Proof/Laws/Sparse.lean: reading after writing in a sparse store and in a byte store, and that writing keeps
the canonical form.
-/
set_option Elab.async false

namespace Sys2Proof.Machine

section Sparse
variable {α : Type} {d : α}

theorem sget_sdrop (p : Nat → Bool) (m : Sparse α) (k : Nat) :
    sget d (sdrop p m) k = if p k then d else sget d m k := by
  induction m with
  | nil => simp [sdrop, sget]
  | cons e r ih =>
    simp only [sdrop] at ih
    by_cases h : p e.1 <;> by_cases hk : k = e.1 <;> simp_all [sdrop, sget]

variable [DecidableEq α]

theorem sget_sone (i k : Nat) (v : α) (r : Sparse α) :
    sget d (sone d i v ++ r) k = if k = i ∧ v ≠ d then v else sget d r k := by
  unfold sone; split <;> by_cases hk : k = i <;> simp_all [sget]

/-- Reading after writing. -/
@[simp] theorem sget_sput (m : Sparse α) (i k : Nat) (v : α) :
    sget d (sput d m i v) k = if k = i then v else sget d m k := by
  induction m with
  | nil =>
    have := sget_sone (d := d) i k v []
    simp only [List.append_nil] at this
    simp only [sput, this, sget]
    by_cases hk : k = i <;> by_cases hv : v = d <;> simp_all
  | cons e r ih =>
    simp only [sput]
    split
    · rw [sget_sone]
      simp only [sget, sget_sdrop]
      by_cases hk : k = i <;> by_cases hv : v = d <;> by_cases he : k = e.1 <;> simp_all
    · split
      · simp only [ih, sget]; by_cases hk : k = i <;> simp_all
      · simp only [sget, ih]; by_cases hk : k = i <;> by_cases he : k = e.1 <;> simp_all

theorem swfFrom_mono {lo hi : Nat} (h : lo ≤ hi) : ∀ {m : Sparse α}, swfFrom d hi m = true → swfFrom d lo m = true
  | [], _ => rfl
  | e :: r, hm => by
    simp only [swfFrom, Bool.and_eq_true, decide_eq_true_eq] at hm ⊢
    exact ⟨⟨Nat.le_trans h hm.1.1, hm.1.2⟩, hm.2⟩

theorem swfFrom_sdrop (p : Nat → Bool) : ∀ {m : Sparse α} {lo : Nat}, swfFrom d lo m = true →
    swfFrom d lo (sdrop p m) = true
  | [], _, _ => rfl
  | e :: r, lo, hm => by
    simp only [swfFrom, Bool.and_eq_true, decide_eq_true_eq] at hm
    have ih := swfFrom_sdrop p (m := r) hm.2
    simp only [sdrop] at ih ⊢
    by_cases h : p e.1
    · simp only [h, Bool.not_true, Bool.false_eq_true, not_false_eq_true, List.filter_cons_of_neg]
      exact swfFrom_mono (by omega) ih
    · simp_all [swfFrom]

theorem swfFrom_sput : ∀ {m : Sparse α} {lo i : Nat} {v : α}, swfFrom d lo m = true → lo ≤ i →
    swfFrom d lo (sput d m i v) = true
  | [], lo, i, v, _, hi => by
    simp only [sput, sone]; split <;> simp_all [swfFrom]
  | e :: r, lo, i, v, hm, hi => by
    simp only [swfFrom, Bool.and_eq_true, decide_eq_true_eq] at hm
    simp only [sput]
    split
    · have := swfFrom_sdrop (fun k => decide (k = i)) hm.2
      unfold sone; split <;> simp_all [swfFrom] <;> omega
    · split
      · exact swfFrom_sput (swfFrom_mono (by omega) hm.2) hi
      · simp only [swfFrom, Bool.and_eq_true, decide_eq_true_eq]
        exact ⟨hm.1, swfFrom_sput hm.2 (by omega)⟩

/-- Writing keeps the canonical form. -/
theorem swf_sput {m : Sparse α} {i : Nat} {v : α} (h : swf d m = true) : swf d (sput d m i v) = true :=
  swfFrom_sput h (Nat.zero_le i)

/-- Leaving entries out keeps the canonical form. -/
theorem swf_sdrop {m : Sparse α} (p : Nat → Bool) (h : swf d m = true) : swf d (sdrop p m) = true := swfFrom_sdrop p h

end Sparse

/-! ## Byte stores -/

theorem getByte_putByte (m : List Host.Cell) (a x : Nat) (b : Byte) :
    getByte (putByte m a b) x = if x = a then b else getByte m x := sget_sput m a x b

theorem wf_putByte {m : List Host.Cell} {a : Nat} {b : Byte} (h : Memory.wf m = true) : Memory.wf (putByte m a b) = true :=
  swf_sput h

/-- What a byte reads after a string is written: the string's byte inside it, the old byte outside. -/
theorem getByte_putBytes (m : List Host.Cell) (a x : Nat) (b : Bytes) :
    getByte (putBytes m a b) x = if a ≤ x ∧ x < a + b.length then b.getD (x - a) 0 else getByte m x := by
  induction b generalizing m a with
  | nil => simp [putBytes] <;> omega
  | cons y r ih =>
    simp only [putBytes, ih, getByte_putByte, List.length_cons]
    by_cases h1 : x = a
    · subst h1; simp <;> omega
    · by_cases h2 : a + 1 ≤ x ∧ x < a + 1 + r.length
      · have h3 : a ≤ x ∧ x < a + (r.length + 1) := by omega
        have h4 : x - a = (x - (a + 1)) + 1 := by omega
        rw [if_pos h2, if_pos h3, h4, List.getD_cons_succ]
      · have h3 : ¬(a ≤ x ∧ x < a + (r.length + 1)) := by omega
        rw [if_neg h2, if_neg h3, if_neg h1]

/-- Writing a string of bytes keeps the canonical form. -/
theorem wf_putBytes {m : List Host.Cell} {a : Nat} {b : Bytes} (h : Memory.wf m = true) :
    Memory.wf (putBytes m a b) = true := by
  induction b generalizing m a with
  | nil => exact h
  | cons y r ih => exact ih (wf_putByte h)

theorem wf_putLE {m : List Host.Cell} {a n x : Nat} (h : Memory.wf m = true) : Memory.wf (putLE m a n x) = true := wf_putBytes h

theorem wf_clearBytes {m : List Host.Cell} {a n : Nat} (h : Memory.wf m = true) : Memory.wf (clearBytes m a n) = true :=
  swf_sdrop _ h

end Sys2Proof.Machine
end

