-- ==== Sys2Proof/Laws/State.lean ====
section
/-!
SUPPORT. Sys2Proof/Laws/State.lean: what each update of State leaves in each of its fields, and reads after writes of its
vectors and lists.
-/
set_option Elab.async false

namespace Sys2Proof.Machine

/-! ### modTile -/

@[simp] theorem State.modTile_pending (s : State) (t : TileIx) (g : Tile → Tile) : (s.modTile t g).pending = s.pending := rfl
@[simp] theorem State.modTile_fns (s : State) (t : TileIx) (g : Tile → Tile) : (s.modTile t g).fns = s.fns := rfl
@[simp] theorem State.modTile_tiles (s : State) (t : TileIx) (g : Tile → Tile) : (s.modTile t g).tiles = vmod s.tiles t g := rfl
@[simp] theorem State.modTile_models (s : State) (t : TileIx) (g : Tile → Tile) : (s.modTile t g).models = s.models := rfl
@[simp] theorem State.modTile_seqs (s : State) (t : TileIx) (g : Tile → Tile) : (s.modTile t g).seqs = s.seqs := rfl
@[simp] theorem State.modTile_reuse (s : State) (t : TileIx) (g : Tile → Tile) : (s.modTile t g).reuse = s.reuse := rfl
@[simp] theorem State.modTile_cohorts (s : State) (t : TileIx) (g : Tile → Tile) : (s.modTile t g).cohorts = s.cohorts := rfl
@[simp] theorem State.modTile_nextCohorts (s : State) (t : TileIx) (g : Tile → Tile) : (s.modTile t g).nextCohorts = s.nextCohorts := rfl
@[simp] theorem State.modTile_treeOps (s : State) (t : TileIx) (g : Tile → Tile) : (s.modTile t g).treeOps = s.treeOps := rfl
@[simp] theorem State.modTile_stepCount (s : State) (t : TileIx) (g : Tile → Tile) : (s.modTile t g).stepCount = s.stepCount := rfl
@[simp] theorem State.modTile_cands (s : State) (t : TileIx) (g : Tile → Tile) : (s.modTile t g).cands = s.cands := rfl
@[simp] theorem State.modTile_sampled (s : State) (t : TileIx) (g : Tile → Tile) : (s.modTile t g).sampled = s.sampled := rfl
@[simp] theorem State.modTile_sync (s : State) (t : TileIx) (g : Tile → Tile) : (s.modTile t g).sync = s.sync := rfl
@[simp] theorem State.modTile_ports (s : State) (t : TileIx) (g : Tile → Tile) : (s.modTile t g).ports = s.ports := rfl
@[simp] theorem State.modTile_slices (s : State) (t : TileIx) (g : Tile → Tile) : (s.modTile t g).slices = s.slices := rfl
@[simp] theorem State.modTile_transit (s : State) (t : TileIx) (g : Tile → Tile) : (s.modTile t g).transit = s.transit := rfl
@[simp] theorem State.modTile_inbound (s : State) (t : TileIx) (g : Tile → Tile) : (s.modTile t g).inbound = s.inbound := rfl
@[simp] theorem State.modTile_heldWide (s : State) (t : TileIx) (g : Tile → Tile) : (s.modTile t g).heldWide = s.heldWide := rfl
@[simp] theorem State.modTile_wideSeen (s : State) (t : TileIx) (g : Tile → Tile) : (s.modTile t g).wideSeen = s.wideSeen := rfl
@[simp] theorem State.modTile_inbox (s : State) (t : TileIx) (g : Tile → Tile) : (s.modTile t g).inbox = s.inbox := rfl
@[simp] theorem State.modTile_spans (s : State) (t : TileIx) (g : Tile → Tile) : (s.modTile t g).spans = s.spans := rfl
@[simp] theorem State.modTile_left (s : State) (t : TileIx) (g : Tile → Tile) : (s.modTile t g).left = s.left := rfl
@[simp] theorem State.modTile_msgId (s : State) (t : TileIx) (g : Tile → Tile) : (s.modTile t g).msgId = s.msgId := rfl
@[simp] theorem State.modTile_undelivered (s : State) (t : TileIx) (g : Tile → Tile) : (s.modTile t g).undelivered = s.undelivered := rfl
@[simp] theorem State.modTile_denials (s : State) (t : TileIx) (g : Tile → Tile) : (s.modTile t g).denials = s.denials := rfl
@[simp] theorem State.modTile_um (s : State) (t : TileIx) (g : Tile → Tile) : (s.modTile t g).um = s.um := rfl
@[simp] theorem State.modTile_spdm (s : State) (t : TileIx) (g : Tile → Tile) : (s.modTile t g).spdm = s.spdm := rfl
@[simp] theorem State.modTile_flash (s : State) (t : TileIx) (g : Tile → Tile) : (s.modTile t g).flash = s.flash := rfl
@[simp] theorem State.modTile_scrubHours (s : State) (t : TileIx) (g : Tile → Tile) : (s.modTile t g).scrubHours = s.scrubHours := rfl
@[simp] theorem State.modTile_rateLimit (s : State) (t : TileIx) (g : Tile → Tile) : (s.modTile t g).rateLimit = s.rateLimit := rfl
@[simp] theorem State.modTile_swapStat (s : State) (t : TileIx) (g : Tile → Tile) : (s.modTile t g).swapStat = s.swapStat := rfl
@[simp] theorem State.modTile_relayStat (s : State) (t : TileIx) (g : Tile → Tile) : (s.modTile t g).relayStat = s.relayStat := rfl
@[simp] theorem State.modTile_swapQueue (s : State) (t : TileIx) (g : Tile → Tile) : (s.modTile t g).swapQueue = s.swapQueue := rfl
@[simp] theorem State.modTile_specStat (s : State) (t : TileIx) (g : Tile → Tile) : (s.modTile t g).specStat = s.specStat := rfl
@[simp] theorem State.modTile_specSource (s : State) (t : TileIx) (g : Tile → Tile) : (s.modTile t g).specSource = s.specSource := rfl
@[simp] theorem State.modTile_boot (s : State) (t : TileIx) (g : Tile → Tile) : (s.modTile t g).boot = s.boot := rfl
@[simp] theorem State.modTile_pins (s : State) (t : TileIx) (g : Tile → Tile) : (s.modTile t g).pins = s.pins := rfl
@[simp] theorem State.modTile_power (s : State) (t : TileIx) (g : Tile → Tile) : (s.modTile t g).power = s.power := rfl
@[simp] theorem State.modTile_side (s : State) (t : TileIx) (g : Tile → Tile) : (s.modTile t g).side = s.side := rfl
@[simp] theorem State.modTile_out (s : State) (t : TileIx) (g : Tile → Tile) : (s.modTile t g).out = s.out := rfl
@[simp] theorem State.modTile_held (s : State) (t : TileIx) (g : Tile → Tile) : (s.modTile t g).held = s.held := rfl
@[simp] theorem State.modTile_fresh (s : State) (t : TileIx) (g : Tile → Tile) : (s.modTile t g).fresh = s.fresh := rfl

/-! ### modFn -/

@[simp] theorem State.modFn_pending (s : State) (f : Fn) (g : Func → Func) : (s.modFn f g).pending = s.pending := rfl
@[simp] theorem State.modFn_fns (s : State) (f : Fn) (g : Func → Func) : (s.modFn f g).fns = vmod s.fns f g := rfl
@[simp] theorem State.modFn_tiles (s : State) (f : Fn) (g : Func → Func) : (s.modFn f g).tiles = s.tiles := rfl
@[simp] theorem State.modFn_models (s : State) (f : Fn) (g : Func → Func) : (s.modFn f g).models = s.models := rfl
@[simp] theorem State.modFn_seqs (s : State) (f : Fn) (g : Func → Func) : (s.modFn f g).seqs = s.seqs := rfl
@[simp] theorem State.modFn_reuse (s : State) (f : Fn) (g : Func → Func) : (s.modFn f g).reuse = s.reuse := rfl
@[simp] theorem State.modFn_cohorts (s : State) (f : Fn) (g : Func → Func) : (s.modFn f g).cohorts = s.cohorts := rfl
@[simp] theorem State.modFn_nextCohorts (s : State) (f : Fn) (g : Func → Func) : (s.modFn f g).nextCohorts = s.nextCohorts := rfl
@[simp] theorem State.modFn_treeOps (s : State) (f : Fn) (g : Func → Func) : (s.modFn f g).treeOps = s.treeOps := rfl
@[simp] theorem State.modFn_stepCount (s : State) (f : Fn) (g : Func → Func) : (s.modFn f g).stepCount = s.stepCount := rfl
@[simp] theorem State.modFn_cands (s : State) (f : Fn) (g : Func → Func) : (s.modFn f g).cands = s.cands := rfl
@[simp] theorem State.modFn_sampled (s : State) (f : Fn) (g : Func → Func) : (s.modFn f g).sampled = s.sampled := rfl
@[simp] theorem State.modFn_sync (s : State) (f : Fn) (g : Func → Func) : (s.modFn f g).sync = s.sync := rfl
@[simp] theorem State.modFn_ports (s : State) (f : Fn) (g : Func → Func) : (s.modFn f g).ports = s.ports := rfl
@[simp] theorem State.modFn_slices (s : State) (f : Fn) (g : Func → Func) : (s.modFn f g).slices = s.slices := rfl
@[simp] theorem State.modFn_transit (s : State) (f : Fn) (g : Func → Func) : (s.modFn f g).transit = s.transit := rfl
@[simp] theorem State.modFn_inbound (s : State) (f : Fn) (g : Func → Func) : (s.modFn f g).inbound = s.inbound := rfl
@[simp] theorem State.modFn_heldWide (s : State) (f : Fn) (g : Func → Func) : (s.modFn f g).heldWide = s.heldWide := rfl
@[simp] theorem State.modFn_wideSeen (s : State) (f : Fn) (g : Func → Func) : (s.modFn f g).wideSeen = s.wideSeen := rfl
@[simp] theorem State.modFn_inbox (s : State) (f : Fn) (g : Func → Func) : (s.modFn f g).inbox = s.inbox := rfl
@[simp] theorem State.modFn_spans (s : State) (f : Fn) (g : Func → Func) : (s.modFn f g).spans = s.spans := rfl
@[simp] theorem State.modFn_left (s : State) (f : Fn) (g : Func → Func) : (s.modFn f g).left = s.left := rfl
@[simp] theorem State.modFn_msgId (s : State) (f : Fn) (g : Func → Func) : (s.modFn f g).msgId = s.msgId := rfl
@[simp] theorem State.modFn_undelivered (s : State) (f : Fn) (g : Func → Func) : (s.modFn f g).undelivered = s.undelivered := rfl
@[simp] theorem State.modFn_denials (s : State) (f : Fn) (g : Func → Func) : (s.modFn f g).denials = s.denials := rfl
@[simp] theorem State.modFn_um (s : State) (f : Fn) (g : Func → Func) : (s.modFn f g).um = s.um := rfl
@[simp] theorem State.modFn_spdm (s : State) (f : Fn) (g : Func → Func) : (s.modFn f g).spdm = s.spdm := rfl
@[simp] theorem State.modFn_flash (s : State) (f : Fn) (g : Func → Func) : (s.modFn f g).flash = s.flash := rfl
@[simp] theorem State.modFn_scrubHours (s : State) (f : Fn) (g : Func → Func) : (s.modFn f g).scrubHours = s.scrubHours := rfl
@[simp] theorem State.modFn_rateLimit (s : State) (f : Fn) (g : Func → Func) : (s.modFn f g).rateLimit = s.rateLimit := rfl
@[simp] theorem State.modFn_swapStat (s : State) (f : Fn) (g : Func → Func) : (s.modFn f g).swapStat = s.swapStat := rfl
@[simp] theorem State.modFn_relayStat (s : State) (f : Fn) (g : Func → Func) : (s.modFn f g).relayStat = s.relayStat := rfl
@[simp] theorem State.modFn_swapQueue (s : State) (f : Fn) (g : Func → Func) : (s.modFn f g).swapQueue = s.swapQueue := rfl
@[simp] theorem State.modFn_specStat (s : State) (f : Fn) (g : Func → Func) : (s.modFn f g).specStat = s.specStat := rfl
@[simp] theorem State.modFn_specSource (s : State) (f : Fn) (g : Func → Func) : (s.modFn f g).specSource = s.specSource := rfl
@[simp] theorem State.modFn_boot (s : State) (f : Fn) (g : Func → Func) : (s.modFn f g).boot = s.boot := rfl
@[simp] theorem State.modFn_pins (s : State) (f : Fn) (g : Func → Func) : (s.modFn f g).pins = s.pins := rfl
@[simp] theorem State.modFn_power (s : State) (f : Fn) (g : Func → Func) : (s.modFn f g).power = s.power := rfl
@[simp] theorem State.modFn_side (s : State) (f : Fn) (g : Func → Func) : (s.modFn f g).side = s.side := rfl
@[simp] theorem State.modFn_out (s : State) (f : Fn) (g : Func → Func) : (s.modFn f g).out = s.out := rfl
@[simp] theorem State.modFn_held (s : State) (f : Fn) (g : Func → Func) : (s.modFn f g).held = s.held := rfl
@[simp] theorem State.modFn_fresh (s : State) (f : Fn) (g : Func → Func) : (s.modFn f g).fresh = s.fresh := rfl

/-! ### modModel -/

@[simp] theorem State.modModel_pending (s : State) (m : SlotIx) (g : Model → Model) : (s.modModel m g).pending = s.pending := rfl
@[simp] theorem State.modModel_fns (s : State) (m : SlotIx) (g : Model → Model) : (s.modModel m g).fns = s.fns := rfl
@[simp] theorem State.modModel_tiles (s : State) (m : SlotIx) (g : Model → Model) : (s.modModel m g).tiles = s.tiles := rfl
@[simp] theorem State.modModel_models (s : State) (m : SlotIx) (g : Model → Model) : (s.modModel m g).models = vmod s.models m g := rfl
@[simp] theorem State.modModel_seqs (s : State) (m : SlotIx) (g : Model → Model) : (s.modModel m g).seqs = s.seqs := rfl
@[simp] theorem State.modModel_reuse (s : State) (m : SlotIx) (g : Model → Model) : (s.modModel m g).reuse = s.reuse := rfl
@[simp] theorem State.modModel_cohorts (s : State) (m : SlotIx) (g : Model → Model) : (s.modModel m g).cohorts = s.cohorts := rfl
@[simp] theorem State.modModel_nextCohorts (s : State) (m : SlotIx) (g : Model → Model) : (s.modModel m g).nextCohorts = s.nextCohorts := rfl
@[simp] theorem State.modModel_treeOps (s : State) (m : SlotIx) (g : Model → Model) : (s.modModel m g).treeOps = s.treeOps := rfl
@[simp] theorem State.modModel_stepCount (s : State) (m : SlotIx) (g : Model → Model) : (s.modModel m g).stepCount = s.stepCount := rfl
@[simp] theorem State.modModel_cands (s : State) (m : SlotIx) (g : Model → Model) : (s.modModel m g).cands = s.cands := rfl
@[simp] theorem State.modModel_sampled (s : State) (m : SlotIx) (g : Model → Model) : (s.modModel m g).sampled = s.sampled := rfl
@[simp] theorem State.modModel_sync (s : State) (m : SlotIx) (g : Model → Model) : (s.modModel m g).sync = s.sync := rfl
@[simp] theorem State.modModel_ports (s : State) (m : SlotIx) (g : Model → Model) : (s.modModel m g).ports = s.ports := rfl
@[simp] theorem State.modModel_slices (s : State) (m : SlotIx) (g : Model → Model) : (s.modModel m g).slices = s.slices := rfl
@[simp] theorem State.modModel_transit (s : State) (m : SlotIx) (g : Model → Model) : (s.modModel m g).transit = s.transit := rfl
@[simp] theorem State.modModel_inbound (s : State) (m : SlotIx) (g : Model → Model) : (s.modModel m g).inbound = s.inbound := rfl
@[simp] theorem State.modModel_heldWide (s : State) (m : SlotIx) (g : Model → Model) : (s.modModel m g).heldWide = s.heldWide := rfl
@[simp] theorem State.modModel_wideSeen (s : State) (m : SlotIx) (g : Model → Model) : (s.modModel m g).wideSeen = s.wideSeen := rfl
@[simp] theorem State.modModel_inbox (s : State) (m : SlotIx) (g : Model → Model) : (s.modModel m g).inbox = s.inbox := rfl
@[simp] theorem State.modModel_spans (s : State) (m : SlotIx) (g : Model → Model) : (s.modModel m g).spans = s.spans := rfl
@[simp] theorem State.modModel_left (s : State) (m : SlotIx) (g : Model → Model) : (s.modModel m g).left = s.left := rfl
@[simp] theorem State.modModel_msgId (s : State) (m : SlotIx) (g : Model → Model) : (s.modModel m g).msgId = s.msgId := rfl
@[simp] theorem State.modModel_undelivered (s : State) (m : SlotIx) (g : Model → Model) : (s.modModel m g).undelivered = s.undelivered := rfl
@[simp] theorem State.modModel_denials (s : State) (m : SlotIx) (g : Model → Model) : (s.modModel m g).denials = s.denials := rfl
@[simp] theorem State.modModel_um (s : State) (m : SlotIx) (g : Model → Model) : (s.modModel m g).um = s.um := rfl
@[simp] theorem State.modModel_spdm (s : State) (m : SlotIx) (g : Model → Model) : (s.modModel m g).spdm = s.spdm := rfl
@[simp] theorem State.modModel_flash (s : State) (m : SlotIx) (g : Model → Model) : (s.modModel m g).flash = s.flash := rfl
@[simp] theorem State.modModel_scrubHours (s : State) (m : SlotIx) (g : Model → Model) : (s.modModel m g).scrubHours = s.scrubHours := rfl
@[simp] theorem State.modModel_rateLimit (s : State) (m : SlotIx) (g : Model → Model) : (s.modModel m g).rateLimit = s.rateLimit := rfl
@[simp] theorem State.modModel_swapStat (s : State) (m : SlotIx) (g : Model → Model) : (s.modModel m g).swapStat = s.swapStat := rfl
@[simp] theorem State.modModel_relayStat (s : State) (m : SlotIx) (g : Model → Model) : (s.modModel m g).relayStat = s.relayStat := rfl
@[simp] theorem State.modModel_swapQueue (s : State) (m : SlotIx) (g : Model → Model) : (s.modModel m g).swapQueue = s.swapQueue := rfl
@[simp] theorem State.modModel_specStat (s : State) (m : SlotIx) (g : Model → Model) : (s.modModel m g).specStat = s.specStat := rfl
@[simp] theorem State.modModel_specSource (s : State) (m : SlotIx) (g : Model → Model) : (s.modModel m g).specSource = s.specSource := rfl
@[simp] theorem State.modModel_boot (s : State) (m : SlotIx) (g : Model → Model) : (s.modModel m g).boot = s.boot := rfl
@[simp] theorem State.modModel_pins (s : State) (m : SlotIx) (g : Model → Model) : (s.modModel m g).pins = s.pins := rfl
@[simp] theorem State.modModel_power (s : State) (m : SlotIx) (g : Model → Model) : (s.modModel m g).power = s.power := rfl
@[simp] theorem State.modModel_side (s : State) (m : SlotIx) (g : Model → Model) : (s.modModel m g).side = s.side := rfl
@[simp] theorem State.modModel_out (s : State) (m : SlotIx) (g : Model → Model) : (s.modModel m g).out = s.out := rfl
@[simp] theorem State.modModel_held (s : State) (m : SlotIx) (g : Model → Model) : (s.modModel m g).held = s.held := rfl
@[simp] theorem State.modModel_fresh (s : State) (m : SlotIx) (g : Model → Model) : (s.modModel m g).fresh = s.fresh := rfl

/-! ### modPool -/

@[simp] theorem State.modPool_pending (s : State) (m : SlotIx) (g : Pool → Pool) : (s.modPool m g).pending = s.pending := rfl
@[simp] theorem State.modPool_fns (s : State) (m : SlotIx) (g : Pool → Pool) : (s.modPool m g).fns = s.fns := rfl
@[simp] theorem State.modPool_tiles (s : State) (m : SlotIx) (g : Pool → Pool) : (s.modPool m g).tiles = s.tiles := rfl
@[simp] theorem State.modPool_models (s : State) (m : SlotIx) (g : Pool → Pool) : (s.modPool m g).models = vmod s.models m fun x => { x with pool := g x.pool } := rfl
@[simp] theorem State.modPool_seqs (s : State) (m : SlotIx) (g : Pool → Pool) : (s.modPool m g).seqs = s.seqs := rfl
@[simp] theorem State.modPool_reuse (s : State) (m : SlotIx) (g : Pool → Pool) : (s.modPool m g).reuse = s.reuse := rfl
@[simp] theorem State.modPool_cohorts (s : State) (m : SlotIx) (g : Pool → Pool) : (s.modPool m g).cohorts = s.cohorts := rfl
@[simp] theorem State.modPool_nextCohorts (s : State) (m : SlotIx) (g : Pool → Pool) : (s.modPool m g).nextCohorts = s.nextCohorts := rfl
@[simp] theorem State.modPool_treeOps (s : State) (m : SlotIx) (g : Pool → Pool) : (s.modPool m g).treeOps = s.treeOps := rfl
@[simp] theorem State.modPool_stepCount (s : State) (m : SlotIx) (g : Pool → Pool) : (s.modPool m g).stepCount = s.stepCount := rfl
@[simp] theorem State.modPool_cands (s : State) (m : SlotIx) (g : Pool → Pool) : (s.modPool m g).cands = s.cands := rfl
@[simp] theorem State.modPool_sampled (s : State) (m : SlotIx) (g : Pool → Pool) : (s.modPool m g).sampled = s.sampled := rfl
@[simp] theorem State.modPool_sync (s : State) (m : SlotIx) (g : Pool → Pool) : (s.modPool m g).sync = s.sync := rfl
@[simp] theorem State.modPool_ports (s : State) (m : SlotIx) (g : Pool → Pool) : (s.modPool m g).ports = s.ports := rfl
@[simp] theorem State.modPool_slices (s : State) (m : SlotIx) (g : Pool → Pool) : (s.modPool m g).slices = s.slices := rfl
@[simp] theorem State.modPool_transit (s : State) (m : SlotIx) (g : Pool → Pool) : (s.modPool m g).transit = s.transit := rfl
@[simp] theorem State.modPool_inbound (s : State) (m : SlotIx) (g : Pool → Pool) : (s.modPool m g).inbound = s.inbound := rfl
@[simp] theorem State.modPool_heldWide (s : State) (m : SlotIx) (g : Pool → Pool) : (s.modPool m g).heldWide = s.heldWide := rfl
@[simp] theorem State.modPool_wideSeen (s : State) (m : SlotIx) (g : Pool → Pool) : (s.modPool m g).wideSeen = s.wideSeen := rfl
@[simp] theorem State.modPool_inbox (s : State) (m : SlotIx) (g : Pool → Pool) : (s.modPool m g).inbox = s.inbox := rfl
@[simp] theorem State.modPool_spans (s : State) (m : SlotIx) (g : Pool → Pool) : (s.modPool m g).spans = s.spans := rfl
@[simp] theorem State.modPool_left (s : State) (m : SlotIx) (g : Pool → Pool) : (s.modPool m g).left = s.left := rfl
@[simp] theorem State.modPool_msgId (s : State) (m : SlotIx) (g : Pool → Pool) : (s.modPool m g).msgId = s.msgId := rfl
@[simp] theorem State.modPool_undelivered (s : State) (m : SlotIx) (g : Pool → Pool) : (s.modPool m g).undelivered = s.undelivered := rfl
@[simp] theorem State.modPool_denials (s : State) (m : SlotIx) (g : Pool → Pool) : (s.modPool m g).denials = s.denials := rfl
@[simp] theorem State.modPool_um (s : State) (m : SlotIx) (g : Pool → Pool) : (s.modPool m g).um = s.um := rfl
@[simp] theorem State.modPool_spdm (s : State) (m : SlotIx) (g : Pool → Pool) : (s.modPool m g).spdm = s.spdm := rfl
@[simp] theorem State.modPool_flash (s : State) (m : SlotIx) (g : Pool → Pool) : (s.modPool m g).flash = s.flash := rfl
@[simp] theorem State.modPool_scrubHours (s : State) (m : SlotIx) (g : Pool → Pool) : (s.modPool m g).scrubHours = s.scrubHours := rfl
@[simp] theorem State.modPool_rateLimit (s : State) (m : SlotIx) (g : Pool → Pool) : (s.modPool m g).rateLimit = s.rateLimit := rfl
@[simp] theorem State.modPool_swapStat (s : State) (m : SlotIx) (g : Pool → Pool) : (s.modPool m g).swapStat = s.swapStat := rfl
@[simp] theorem State.modPool_relayStat (s : State) (m : SlotIx) (g : Pool → Pool) : (s.modPool m g).relayStat = s.relayStat := rfl
@[simp] theorem State.modPool_swapQueue (s : State) (m : SlotIx) (g : Pool → Pool) : (s.modPool m g).swapQueue = s.swapQueue := rfl
@[simp] theorem State.modPool_specStat (s : State) (m : SlotIx) (g : Pool → Pool) : (s.modPool m g).specStat = s.specStat := rfl
@[simp] theorem State.modPool_specSource (s : State) (m : SlotIx) (g : Pool → Pool) : (s.modPool m g).specSource = s.specSource := rfl
@[simp] theorem State.modPool_boot (s : State) (m : SlotIx) (g : Pool → Pool) : (s.modPool m g).boot = s.boot := rfl
@[simp] theorem State.modPool_pins (s : State) (m : SlotIx) (g : Pool → Pool) : (s.modPool m g).pins = s.pins := rfl
@[simp] theorem State.modPool_power (s : State) (m : SlotIx) (g : Pool → Pool) : (s.modPool m g).power = s.power := rfl
@[simp] theorem State.modPool_side (s : State) (m : SlotIx) (g : Pool → Pool) : (s.modPool m g).side = s.side := rfl
@[simp] theorem State.modPool_out (s : State) (m : SlotIx) (g : Pool → Pool) : (s.modPool m g).out = s.out := rfl
@[simp] theorem State.modPool_held (s : State) (m : SlotIx) (g : Pool → Pool) : (s.modPool m g).held = s.held := rfl
@[simp] theorem State.modPool_fresh (s : State) (m : SlotIx) (g : Pool → Pool) : (s.modPool m g).fresh = s.fresh := rfl

/-! ### modLoad -/

@[simp] theorem State.modLoad_pending (s : State) (m : SlotIx) (g : Load → Load) : (s.modLoad m g).pending = s.pending := rfl
@[simp] theorem State.modLoad_fns (s : State) (m : SlotIx) (g : Load → Load) : (s.modLoad m g).fns = s.fns := rfl
@[simp] theorem State.modLoad_tiles (s : State) (m : SlotIx) (g : Load → Load) : (s.modLoad m g).tiles = s.tiles := rfl
@[simp] theorem State.modLoad_models (s : State) (m : SlotIx) (g : Load → Load) : (s.modLoad m g).models = vmod s.models m fun x => { x with load := x.load.map g } := rfl
@[simp] theorem State.modLoad_seqs (s : State) (m : SlotIx) (g : Load → Load) : (s.modLoad m g).seqs = s.seqs := rfl
@[simp] theorem State.modLoad_reuse (s : State) (m : SlotIx) (g : Load → Load) : (s.modLoad m g).reuse = s.reuse := rfl
@[simp] theorem State.modLoad_cohorts (s : State) (m : SlotIx) (g : Load → Load) : (s.modLoad m g).cohorts = s.cohorts := rfl
@[simp] theorem State.modLoad_nextCohorts (s : State) (m : SlotIx) (g : Load → Load) : (s.modLoad m g).nextCohorts = s.nextCohorts := rfl
@[simp] theorem State.modLoad_treeOps (s : State) (m : SlotIx) (g : Load → Load) : (s.modLoad m g).treeOps = s.treeOps := rfl
@[simp] theorem State.modLoad_stepCount (s : State) (m : SlotIx) (g : Load → Load) : (s.modLoad m g).stepCount = s.stepCount := rfl
@[simp] theorem State.modLoad_cands (s : State) (m : SlotIx) (g : Load → Load) : (s.modLoad m g).cands = s.cands := rfl
@[simp] theorem State.modLoad_sampled (s : State) (m : SlotIx) (g : Load → Load) : (s.modLoad m g).sampled = s.sampled := rfl
@[simp] theorem State.modLoad_sync (s : State) (m : SlotIx) (g : Load → Load) : (s.modLoad m g).sync = s.sync := rfl
@[simp] theorem State.modLoad_ports (s : State) (m : SlotIx) (g : Load → Load) : (s.modLoad m g).ports = s.ports := rfl
@[simp] theorem State.modLoad_slices (s : State) (m : SlotIx) (g : Load → Load) : (s.modLoad m g).slices = s.slices := rfl
@[simp] theorem State.modLoad_transit (s : State) (m : SlotIx) (g : Load → Load) : (s.modLoad m g).transit = s.transit := rfl
@[simp] theorem State.modLoad_inbound (s : State) (m : SlotIx) (g : Load → Load) : (s.modLoad m g).inbound = s.inbound := rfl
@[simp] theorem State.modLoad_heldWide (s : State) (m : SlotIx) (g : Load → Load) : (s.modLoad m g).heldWide = s.heldWide := rfl
@[simp] theorem State.modLoad_wideSeen (s : State) (m : SlotIx) (g : Load → Load) : (s.modLoad m g).wideSeen = s.wideSeen := rfl
@[simp] theorem State.modLoad_inbox (s : State) (m : SlotIx) (g : Load → Load) : (s.modLoad m g).inbox = s.inbox := rfl
@[simp] theorem State.modLoad_spans (s : State) (m : SlotIx) (g : Load → Load) : (s.modLoad m g).spans = s.spans := rfl
@[simp] theorem State.modLoad_left (s : State) (m : SlotIx) (g : Load → Load) : (s.modLoad m g).left = s.left := rfl
@[simp] theorem State.modLoad_msgId (s : State) (m : SlotIx) (g : Load → Load) : (s.modLoad m g).msgId = s.msgId := rfl
@[simp] theorem State.modLoad_undelivered (s : State) (m : SlotIx) (g : Load → Load) : (s.modLoad m g).undelivered = s.undelivered := rfl
@[simp] theorem State.modLoad_denials (s : State) (m : SlotIx) (g : Load → Load) : (s.modLoad m g).denials = s.denials := rfl
@[simp] theorem State.modLoad_um (s : State) (m : SlotIx) (g : Load → Load) : (s.modLoad m g).um = s.um := rfl
@[simp] theorem State.modLoad_spdm (s : State) (m : SlotIx) (g : Load → Load) : (s.modLoad m g).spdm = s.spdm := rfl
@[simp] theorem State.modLoad_flash (s : State) (m : SlotIx) (g : Load → Load) : (s.modLoad m g).flash = s.flash := rfl
@[simp] theorem State.modLoad_scrubHours (s : State) (m : SlotIx) (g : Load → Load) : (s.modLoad m g).scrubHours = s.scrubHours := rfl
@[simp] theorem State.modLoad_rateLimit (s : State) (m : SlotIx) (g : Load → Load) : (s.modLoad m g).rateLimit = s.rateLimit := rfl
@[simp] theorem State.modLoad_swapStat (s : State) (m : SlotIx) (g : Load → Load) : (s.modLoad m g).swapStat = s.swapStat := rfl
@[simp] theorem State.modLoad_relayStat (s : State) (m : SlotIx) (g : Load → Load) : (s.modLoad m g).relayStat = s.relayStat := rfl
@[simp] theorem State.modLoad_swapQueue (s : State) (m : SlotIx) (g : Load → Load) : (s.modLoad m g).swapQueue = s.swapQueue := rfl
@[simp] theorem State.modLoad_specStat (s : State) (m : SlotIx) (g : Load → Load) : (s.modLoad m g).specStat = s.specStat := rfl
@[simp] theorem State.modLoad_specSource (s : State) (m : SlotIx) (g : Load → Load) : (s.modLoad m g).specSource = s.specSource := rfl
@[simp] theorem State.modLoad_boot (s : State) (m : SlotIx) (g : Load → Load) : (s.modLoad m g).boot = s.boot := rfl
@[simp] theorem State.modLoad_pins (s : State) (m : SlotIx) (g : Load → Load) : (s.modLoad m g).pins = s.pins := rfl
@[simp] theorem State.modLoad_power (s : State) (m : SlotIx) (g : Load → Load) : (s.modLoad m g).power = s.power := rfl
@[simp] theorem State.modLoad_side (s : State) (m : SlotIx) (g : Load → Load) : (s.modLoad m g).side = s.side := rfl
@[simp] theorem State.modLoad_out (s : State) (m : SlotIx) (g : Load → Load) : (s.modLoad m g).out = s.out := rfl
@[simp] theorem State.modLoad_held (s : State) (m : SlotIx) (g : Load → Load) : (s.modLoad m g).held = s.held := rfl
@[simp] theorem State.modLoad_fresh (s : State) (m : SlotIx) (g : Load → Load) : (s.modLoad m g).fresh = s.fresh := rfl

/-! ### modPort -/

@[simp] theorem State.modPort_pending (s : State) (p : PortIx) (g : Port → Port) : (s.modPort p g).pending = s.pending := rfl
@[simp] theorem State.modPort_fns (s : State) (p : PortIx) (g : Port → Port) : (s.modPort p g).fns = s.fns := rfl
@[simp] theorem State.modPort_tiles (s : State) (p : PortIx) (g : Port → Port) : (s.modPort p g).tiles = s.tiles := rfl
@[simp] theorem State.modPort_models (s : State) (p : PortIx) (g : Port → Port) : (s.modPort p g).models = s.models := rfl
@[simp] theorem State.modPort_seqs (s : State) (p : PortIx) (g : Port → Port) : (s.modPort p g).seqs = s.seqs := rfl
@[simp] theorem State.modPort_reuse (s : State) (p : PortIx) (g : Port → Port) : (s.modPort p g).reuse = s.reuse := rfl
@[simp] theorem State.modPort_cohorts (s : State) (p : PortIx) (g : Port → Port) : (s.modPort p g).cohorts = s.cohorts := rfl
@[simp] theorem State.modPort_nextCohorts (s : State) (p : PortIx) (g : Port → Port) : (s.modPort p g).nextCohorts = s.nextCohorts := rfl
@[simp] theorem State.modPort_treeOps (s : State) (p : PortIx) (g : Port → Port) : (s.modPort p g).treeOps = s.treeOps := rfl
@[simp] theorem State.modPort_stepCount (s : State) (p : PortIx) (g : Port → Port) : (s.modPort p g).stepCount = s.stepCount := rfl
@[simp] theorem State.modPort_cands (s : State) (p : PortIx) (g : Port → Port) : (s.modPort p g).cands = s.cands := rfl
@[simp] theorem State.modPort_sampled (s : State) (p : PortIx) (g : Port → Port) : (s.modPort p g).sampled = s.sampled := rfl
@[simp] theorem State.modPort_sync (s : State) (p : PortIx) (g : Port → Port) : (s.modPort p g).sync = s.sync := rfl
@[simp] theorem State.modPort_ports (s : State) (p : PortIx) (g : Port → Port) : (s.modPort p g).ports = vmod s.ports p g := rfl
@[simp] theorem State.modPort_slices (s : State) (p : PortIx) (g : Port → Port) : (s.modPort p g).slices = s.slices := rfl
@[simp] theorem State.modPort_transit (s : State) (p : PortIx) (g : Port → Port) : (s.modPort p g).transit = s.transit := rfl
@[simp] theorem State.modPort_inbound (s : State) (p : PortIx) (g : Port → Port) : (s.modPort p g).inbound = s.inbound := rfl
@[simp] theorem State.modPort_heldWide (s : State) (p : PortIx) (g : Port → Port) : (s.modPort p g).heldWide = s.heldWide := rfl
@[simp] theorem State.modPort_wideSeen (s : State) (p : PortIx) (g : Port → Port) : (s.modPort p g).wideSeen = s.wideSeen := rfl
@[simp] theorem State.modPort_inbox (s : State) (p : PortIx) (g : Port → Port) : (s.modPort p g).inbox = s.inbox := rfl
@[simp] theorem State.modPort_spans (s : State) (p : PortIx) (g : Port → Port) : (s.modPort p g).spans = s.spans := rfl
@[simp] theorem State.modPort_left (s : State) (p : PortIx) (g : Port → Port) : (s.modPort p g).left = s.left := rfl
@[simp] theorem State.modPort_msgId (s : State) (p : PortIx) (g : Port → Port) : (s.modPort p g).msgId = s.msgId := rfl
@[simp] theorem State.modPort_undelivered (s : State) (p : PortIx) (g : Port → Port) : (s.modPort p g).undelivered = s.undelivered := rfl
@[simp] theorem State.modPort_denials (s : State) (p : PortIx) (g : Port → Port) : (s.modPort p g).denials = s.denials := rfl
@[simp] theorem State.modPort_um (s : State) (p : PortIx) (g : Port → Port) : (s.modPort p g).um = s.um := rfl
@[simp] theorem State.modPort_spdm (s : State) (p : PortIx) (g : Port → Port) : (s.modPort p g).spdm = s.spdm := rfl
@[simp] theorem State.modPort_flash (s : State) (p : PortIx) (g : Port → Port) : (s.modPort p g).flash = s.flash := rfl
@[simp] theorem State.modPort_scrubHours (s : State) (p : PortIx) (g : Port → Port) : (s.modPort p g).scrubHours = s.scrubHours := rfl
@[simp] theorem State.modPort_rateLimit (s : State) (p : PortIx) (g : Port → Port) : (s.modPort p g).rateLimit = s.rateLimit := rfl
@[simp] theorem State.modPort_swapStat (s : State) (p : PortIx) (g : Port → Port) : (s.modPort p g).swapStat = s.swapStat := rfl
@[simp] theorem State.modPort_relayStat (s : State) (p : PortIx) (g : Port → Port) : (s.modPort p g).relayStat = s.relayStat := rfl
@[simp] theorem State.modPort_swapQueue (s : State) (p : PortIx) (g : Port → Port) : (s.modPort p g).swapQueue = s.swapQueue := rfl
@[simp] theorem State.modPort_specStat (s : State) (p : PortIx) (g : Port → Port) : (s.modPort p g).specStat = s.specStat := rfl
@[simp] theorem State.modPort_specSource (s : State) (p : PortIx) (g : Port → Port) : (s.modPort p g).specSource = s.specSource := rfl
@[simp] theorem State.modPort_boot (s : State) (p : PortIx) (g : Port → Port) : (s.modPort p g).boot = s.boot := rfl
@[simp] theorem State.modPort_pins (s : State) (p : PortIx) (g : Port → Port) : (s.modPort p g).pins = s.pins := rfl
@[simp] theorem State.modPort_power (s : State) (p : PortIx) (g : Port → Port) : (s.modPort p g).power = s.power := rfl
@[simp] theorem State.modPort_side (s : State) (p : PortIx) (g : Port → Port) : (s.modPort p g).side = s.side := rfl
@[simp] theorem State.modPort_out (s : State) (p : PortIx) (g : Port → Port) : (s.modPort p g).out = s.out := rfl
@[simp] theorem State.modPort_held (s : State) (p : PortIx) (g : Port → Port) : (s.modPort p g).held = s.held := rfl
@[simp] theorem State.modPort_fresh (s : State) (p : PortIx) (g : Port → Port) : (s.modPort p g).fresh = s.fresh := rfl

/-! ### modPower -/

@[simp] theorem State.modPower_pending (s : State) (g : Power → Power) : (s.modPower g).pending = s.pending := rfl
@[simp] theorem State.modPower_fns (s : State) (g : Power → Power) : (s.modPower g).fns = s.fns := rfl
@[simp] theorem State.modPower_tiles (s : State) (g : Power → Power) : (s.modPower g).tiles = s.tiles := rfl
@[simp] theorem State.modPower_models (s : State) (g : Power → Power) : (s.modPower g).models = s.models := rfl
@[simp] theorem State.modPower_seqs (s : State) (g : Power → Power) : (s.modPower g).seqs = s.seqs := rfl
@[simp] theorem State.modPower_reuse (s : State) (g : Power → Power) : (s.modPower g).reuse = s.reuse := rfl
@[simp] theorem State.modPower_cohorts (s : State) (g : Power → Power) : (s.modPower g).cohorts = s.cohorts := rfl
@[simp] theorem State.modPower_nextCohorts (s : State) (g : Power → Power) : (s.modPower g).nextCohorts = s.nextCohorts := rfl
@[simp] theorem State.modPower_treeOps (s : State) (g : Power → Power) : (s.modPower g).treeOps = s.treeOps := rfl
@[simp] theorem State.modPower_stepCount (s : State) (g : Power → Power) : (s.modPower g).stepCount = s.stepCount := rfl
@[simp] theorem State.modPower_cands (s : State) (g : Power → Power) : (s.modPower g).cands = s.cands := rfl
@[simp] theorem State.modPower_sampled (s : State) (g : Power → Power) : (s.modPower g).sampled = s.sampled := rfl
@[simp] theorem State.modPower_sync (s : State) (g : Power → Power) : (s.modPower g).sync = s.sync := rfl
@[simp] theorem State.modPower_ports (s : State) (g : Power → Power) : (s.modPower g).ports = s.ports := rfl
@[simp] theorem State.modPower_slices (s : State) (g : Power → Power) : (s.modPower g).slices = s.slices := rfl
@[simp] theorem State.modPower_transit (s : State) (g : Power → Power) : (s.modPower g).transit = s.transit := rfl
@[simp] theorem State.modPower_inbound (s : State) (g : Power → Power) : (s.modPower g).inbound = s.inbound := rfl
@[simp] theorem State.modPower_heldWide (s : State) (g : Power → Power) : (s.modPower g).heldWide = s.heldWide := rfl
@[simp] theorem State.modPower_wideSeen (s : State) (g : Power → Power) : (s.modPower g).wideSeen = s.wideSeen := rfl
@[simp] theorem State.modPower_inbox (s : State) (g : Power → Power) : (s.modPower g).inbox = s.inbox := rfl
@[simp] theorem State.modPower_spans (s : State) (g : Power → Power) : (s.modPower g).spans = s.spans := rfl
@[simp] theorem State.modPower_left (s : State) (g : Power → Power) : (s.modPower g).left = s.left := rfl
@[simp] theorem State.modPower_msgId (s : State) (g : Power → Power) : (s.modPower g).msgId = s.msgId := rfl
@[simp] theorem State.modPower_undelivered (s : State) (g : Power → Power) : (s.modPower g).undelivered = s.undelivered := rfl
@[simp] theorem State.modPower_denials (s : State) (g : Power → Power) : (s.modPower g).denials = s.denials := rfl
@[simp] theorem State.modPower_um (s : State) (g : Power → Power) : (s.modPower g).um = s.um := rfl
@[simp] theorem State.modPower_spdm (s : State) (g : Power → Power) : (s.modPower g).spdm = s.spdm := rfl
@[simp] theorem State.modPower_flash (s : State) (g : Power → Power) : (s.modPower g).flash = s.flash := rfl
@[simp] theorem State.modPower_scrubHours (s : State) (g : Power → Power) : (s.modPower g).scrubHours = s.scrubHours := rfl
@[simp] theorem State.modPower_rateLimit (s : State) (g : Power → Power) : (s.modPower g).rateLimit = s.rateLimit := rfl
@[simp] theorem State.modPower_swapStat (s : State) (g : Power → Power) : (s.modPower g).swapStat = s.swapStat := rfl
@[simp] theorem State.modPower_relayStat (s : State) (g : Power → Power) : (s.modPower g).relayStat = s.relayStat := rfl
@[simp] theorem State.modPower_swapQueue (s : State) (g : Power → Power) : (s.modPower g).swapQueue = s.swapQueue := rfl
@[simp] theorem State.modPower_specStat (s : State) (g : Power → Power) : (s.modPower g).specStat = s.specStat := rfl
@[simp] theorem State.modPower_specSource (s : State) (g : Power → Power) : (s.modPower g).specSource = s.specSource := rfl
@[simp] theorem State.modPower_boot (s : State) (g : Power → Power) : (s.modPower g).boot = s.boot := rfl
@[simp] theorem State.modPower_pins (s : State) (g : Power → Power) : (s.modPower g).pins = s.pins := rfl
@[simp] theorem State.modPower_power (s : State) (g : Power → Power) : (s.modPower g).power = g s.power := rfl
@[simp] theorem State.modPower_side (s : State) (g : Power → Power) : (s.modPower g).side = s.side := rfl
@[simp] theorem State.modPower_out (s : State) (g : Power → Power) : (s.modPower g).out = s.out := rfl
@[simp] theorem State.modPower_held (s : State) (g : Power → Power) : (s.modPower g).held = s.held := rfl
@[simp] theorem State.modPower_fresh (s : State) (g : Power → Power) : (s.modPower g).fresh = s.fresh := rfl

/-! ### modBoot -/

@[simp] theorem State.modBoot_pending (s : State) (g : Boot → Boot) : (s.modBoot g).pending = s.pending := rfl
@[simp] theorem State.modBoot_fns (s : State) (g : Boot → Boot) : (s.modBoot g).fns = s.fns := rfl
@[simp] theorem State.modBoot_tiles (s : State) (g : Boot → Boot) : (s.modBoot g).tiles = s.tiles := rfl
@[simp] theorem State.modBoot_models (s : State) (g : Boot → Boot) : (s.modBoot g).models = s.models := rfl
@[simp] theorem State.modBoot_seqs (s : State) (g : Boot → Boot) : (s.modBoot g).seqs = s.seqs := rfl
@[simp] theorem State.modBoot_reuse (s : State) (g : Boot → Boot) : (s.modBoot g).reuse = s.reuse := rfl
@[simp] theorem State.modBoot_cohorts (s : State) (g : Boot → Boot) : (s.modBoot g).cohorts = s.cohorts := rfl
@[simp] theorem State.modBoot_nextCohorts (s : State) (g : Boot → Boot) : (s.modBoot g).nextCohorts = s.nextCohorts := rfl
@[simp] theorem State.modBoot_treeOps (s : State) (g : Boot → Boot) : (s.modBoot g).treeOps = s.treeOps := rfl
@[simp] theorem State.modBoot_stepCount (s : State) (g : Boot → Boot) : (s.modBoot g).stepCount = s.stepCount := rfl
@[simp] theorem State.modBoot_cands (s : State) (g : Boot → Boot) : (s.modBoot g).cands = s.cands := rfl
@[simp] theorem State.modBoot_sampled (s : State) (g : Boot → Boot) : (s.modBoot g).sampled = s.sampled := rfl
@[simp] theorem State.modBoot_sync (s : State) (g : Boot → Boot) : (s.modBoot g).sync = s.sync := rfl
@[simp] theorem State.modBoot_ports (s : State) (g : Boot → Boot) : (s.modBoot g).ports = s.ports := rfl
@[simp] theorem State.modBoot_slices (s : State) (g : Boot → Boot) : (s.modBoot g).slices = s.slices := rfl
@[simp] theorem State.modBoot_transit (s : State) (g : Boot → Boot) : (s.modBoot g).transit = s.transit := rfl
@[simp] theorem State.modBoot_inbound (s : State) (g : Boot → Boot) : (s.modBoot g).inbound = s.inbound := rfl
@[simp] theorem State.modBoot_heldWide (s : State) (g : Boot → Boot) : (s.modBoot g).heldWide = s.heldWide := rfl
@[simp] theorem State.modBoot_wideSeen (s : State) (g : Boot → Boot) : (s.modBoot g).wideSeen = s.wideSeen := rfl
@[simp] theorem State.modBoot_inbox (s : State) (g : Boot → Boot) : (s.modBoot g).inbox = s.inbox := rfl
@[simp] theorem State.modBoot_spans (s : State) (g : Boot → Boot) : (s.modBoot g).spans = s.spans := rfl
@[simp] theorem State.modBoot_left (s : State) (g : Boot → Boot) : (s.modBoot g).left = s.left := rfl
@[simp] theorem State.modBoot_msgId (s : State) (g : Boot → Boot) : (s.modBoot g).msgId = s.msgId := rfl
@[simp] theorem State.modBoot_undelivered (s : State) (g : Boot → Boot) : (s.modBoot g).undelivered = s.undelivered := rfl
@[simp] theorem State.modBoot_denials (s : State) (g : Boot → Boot) : (s.modBoot g).denials = s.denials := rfl
@[simp] theorem State.modBoot_um (s : State) (g : Boot → Boot) : (s.modBoot g).um = s.um := rfl
@[simp] theorem State.modBoot_spdm (s : State) (g : Boot → Boot) : (s.modBoot g).spdm = s.spdm := rfl
@[simp] theorem State.modBoot_flash (s : State) (g : Boot → Boot) : (s.modBoot g).flash = s.flash := rfl
@[simp] theorem State.modBoot_scrubHours (s : State) (g : Boot → Boot) : (s.modBoot g).scrubHours = s.scrubHours := rfl
@[simp] theorem State.modBoot_rateLimit (s : State) (g : Boot → Boot) : (s.modBoot g).rateLimit = s.rateLimit := rfl
@[simp] theorem State.modBoot_swapStat (s : State) (g : Boot → Boot) : (s.modBoot g).swapStat = s.swapStat := rfl
@[simp] theorem State.modBoot_relayStat (s : State) (g : Boot → Boot) : (s.modBoot g).relayStat = s.relayStat := rfl
@[simp] theorem State.modBoot_swapQueue (s : State) (g : Boot → Boot) : (s.modBoot g).swapQueue = s.swapQueue := rfl
@[simp] theorem State.modBoot_specStat (s : State) (g : Boot → Boot) : (s.modBoot g).specStat = s.specStat := rfl
@[simp] theorem State.modBoot_specSource (s : State) (g : Boot → Boot) : (s.modBoot g).specSource = s.specSource := rfl
@[simp] theorem State.modBoot_boot (s : State) (g : Boot → Boot) : (s.modBoot g).boot = g s.boot := rfl
@[simp] theorem State.modBoot_pins (s : State) (g : Boot → Boot) : (s.modBoot g).pins = s.pins := rfl
@[simp] theorem State.modBoot_power (s : State) (g : Boot → Boot) : (s.modBoot g).power = s.power := rfl
@[simp] theorem State.modBoot_side (s : State) (g : Boot → Boot) : (s.modBoot g).side = s.side := rfl
@[simp] theorem State.modBoot_out (s : State) (g : Boot → Boot) : (s.modBoot g).out = s.out := rfl
@[simp] theorem State.modBoot_held (s : State) (g : Boot → Boot) : (s.modBoot g).held = s.held := rfl
@[simp] theorem State.modBoot_fresh (s : State) (g : Boot → Boot) : (s.modBoot g).fresh = s.fresh := rfl

/-! ### modUm -/

@[simp] theorem State.modUm_pending (s : State) (g : Umathal → Umathal) : (s.modUm g).pending = s.pending := rfl
@[simp] theorem State.modUm_fns (s : State) (g : Umathal → Umathal) : (s.modUm g).fns = s.fns := rfl
@[simp] theorem State.modUm_tiles (s : State) (g : Umathal → Umathal) : (s.modUm g).tiles = s.tiles := rfl
@[simp] theorem State.modUm_models (s : State) (g : Umathal → Umathal) : (s.modUm g).models = s.models := rfl
@[simp] theorem State.modUm_seqs (s : State) (g : Umathal → Umathal) : (s.modUm g).seqs = s.seqs := rfl
@[simp] theorem State.modUm_reuse (s : State) (g : Umathal → Umathal) : (s.modUm g).reuse = s.reuse := rfl
@[simp] theorem State.modUm_cohorts (s : State) (g : Umathal → Umathal) : (s.modUm g).cohorts = s.cohorts := rfl
@[simp] theorem State.modUm_nextCohorts (s : State) (g : Umathal → Umathal) : (s.modUm g).nextCohorts = s.nextCohorts := rfl
@[simp] theorem State.modUm_treeOps (s : State) (g : Umathal → Umathal) : (s.modUm g).treeOps = s.treeOps := rfl
@[simp] theorem State.modUm_stepCount (s : State) (g : Umathal → Umathal) : (s.modUm g).stepCount = s.stepCount := rfl
@[simp] theorem State.modUm_cands (s : State) (g : Umathal → Umathal) : (s.modUm g).cands = s.cands := rfl
@[simp] theorem State.modUm_sampled (s : State) (g : Umathal → Umathal) : (s.modUm g).sampled = s.sampled := rfl
@[simp] theorem State.modUm_sync (s : State) (g : Umathal → Umathal) : (s.modUm g).sync = s.sync := rfl
@[simp] theorem State.modUm_ports (s : State) (g : Umathal → Umathal) : (s.modUm g).ports = s.ports := rfl
@[simp] theorem State.modUm_slices (s : State) (g : Umathal → Umathal) : (s.modUm g).slices = s.slices := rfl
@[simp] theorem State.modUm_transit (s : State) (g : Umathal → Umathal) : (s.modUm g).transit = s.transit := rfl
@[simp] theorem State.modUm_inbound (s : State) (g : Umathal → Umathal) : (s.modUm g).inbound = s.inbound := rfl
@[simp] theorem State.modUm_heldWide (s : State) (g : Umathal → Umathal) : (s.modUm g).heldWide = s.heldWide := rfl
@[simp] theorem State.modUm_wideSeen (s : State) (g : Umathal → Umathal) : (s.modUm g).wideSeen = s.wideSeen := rfl
@[simp] theorem State.modUm_inbox (s : State) (g : Umathal → Umathal) : (s.modUm g).inbox = s.inbox := rfl
@[simp] theorem State.modUm_spans (s : State) (g : Umathal → Umathal) : (s.modUm g).spans = s.spans := rfl
@[simp] theorem State.modUm_left (s : State) (g : Umathal → Umathal) : (s.modUm g).left = s.left := rfl
@[simp] theorem State.modUm_msgId (s : State) (g : Umathal → Umathal) : (s.modUm g).msgId = s.msgId := rfl
@[simp] theorem State.modUm_undelivered (s : State) (g : Umathal → Umathal) : (s.modUm g).undelivered = s.undelivered := rfl
@[simp] theorem State.modUm_denials (s : State) (g : Umathal → Umathal) : (s.modUm g).denials = s.denials := rfl
@[simp] theorem State.modUm_um (s : State) (g : Umathal → Umathal) : (s.modUm g).um = g s.um := rfl
@[simp] theorem State.modUm_spdm (s : State) (g : Umathal → Umathal) : (s.modUm g).spdm = s.spdm := rfl
@[simp] theorem State.modUm_flash (s : State) (g : Umathal → Umathal) : (s.modUm g).flash = s.flash := rfl
@[simp] theorem State.modUm_scrubHours (s : State) (g : Umathal → Umathal) : (s.modUm g).scrubHours = s.scrubHours := rfl
@[simp] theorem State.modUm_rateLimit (s : State) (g : Umathal → Umathal) : (s.modUm g).rateLimit = s.rateLimit := rfl
@[simp] theorem State.modUm_swapStat (s : State) (g : Umathal → Umathal) : (s.modUm g).swapStat = s.swapStat := rfl
@[simp] theorem State.modUm_relayStat (s : State) (g : Umathal → Umathal) : (s.modUm g).relayStat = s.relayStat := rfl
@[simp] theorem State.modUm_swapQueue (s : State) (g : Umathal → Umathal) : (s.modUm g).swapQueue = s.swapQueue := rfl
@[simp] theorem State.modUm_specStat (s : State) (g : Umathal → Umathal) : (s.modUm g).specStat = s.specStat := rfl
@[simp] theorem State.modUm_specSource (s : State) (g : Umathal → Umathal) : (s.modUm g).specSource = s.specSource := rfl
@[simp] theorem State.modUm_boot (s : State) (g : Umathal → Umathal) : (s.modUm g).boot = s.boot := rfl
@[simp] theorem State.modUm_pins (s : State) (g : Umathal → Umathal) : (s.modUm g).pins = s.pins := rfl
@[simp] theorem State.modUm_power (s : State) (g : Umathal → Umathal) : (s.modUm g).power = s.power := rfl
@[simp] theorem State.modUm_side (s : State) (g : Umathal → Umathal) : (s.modUm g).side = s.side := rfl
@[simp] theorem State.modUm_out (s : State) (g : Umathal → Umathal) : (s.modUm g).out = s.out := rfl
@[simp] theorem State.modUm_held (s : State) (g : Umathal → Umathal) : (s.modUm g).held = s.held := rfl
@[simp] theorem State.modUm_fresh (s : State) (g : Umathal → Umathal) : (s.modUm g).fresh = s.fresh := rfl

/-! ### modSync -/

@[simp] theorem State.modSync_pending (s : State) (g : Sync → Sync) : (s.modSync g).pending = s.pending := rfl
@[simp] theorem State.modSync_fns (s : State) (g : Sync → Sync) : (s.modSync g).fns = s.fns := rfl
@[simp] theorem State.modSync_tiles (s : State) (g : Sync → Sync) : (s.modSync g).tiles = s.tiles := rfl
@[simp] theorem State.modSync_models (s : State) (g : Sync → Sync) : (s.modSync g).models = s.models := rfl
@[simp] theorem State.modSync_seqs (s : State) (g : Sync → Sync) : (s.modSync g).seqs = s.seqs := rfl
@[simp] theorem State.modSync_reuse (s : State) (g : Sync → Sync) : (s.modSync g).reuse = s.reuse := rfl
@[simp] theorem State.modSync_cohorts (s : State) (g : Sync → Sync) : (s.modSync g).cohorts = s.cohorts := rfl
@[simp] theorem State.modSync_nextCohorts (s : State) (g : Sync → Sync) : (s.modSync g).nextCohorts = s.nextCohorts := rfl
@[simp] theorem State.modSync_treeOps (s : State) (g : Sync → Sync) : (s.modSync g).treeOps = s.treeOps := rfl
@[simp] theorem State.modSync_stepCount (s : State) (g : Sync → Sync) : (s.modSync g).stepCount = s.stepCount := rfl
@[simp] theorem State.modSync_cands (s : State) (g : Sync → Sync) : (s.modSync g).cands = s.cands := rfl
@[simp] theorem State.modSync_sampled (s : State) (g : Sync → Sync) : (s.modSync g).sampled = s.sampled := rfl
@[simp] theorem State.modSync_sync (s : State) (g : Sync → Sync) : (s.modSync g).sync = g s.sync := rfl
@[simp] theorem State.modSync_ports (s : State) (g : Sync → Sync) : (s.modSync g).ports = s.ports := rfl
@[simp] theorem State.modSync_slices (s : State) (g : Sync → Sync) : (s.modSync g).slices = s.slices := rfl
@[simp] theorem State.modSync_transit (s : State) (g : Sync → Sync) : (s.modSync g).transit = s.transit := rfl
@[simp] theorem State.modSync_inbound (s : State) (g : Sync → Sync) : (s.modSync g).inbound = s.inbound := rfl
@[simp] theorem State.modSync_heldWide (s : State) (g : Sync → Sync) : (s.modSync g).heldWide = s.heldWide := rfl
@[simp] theorem State.modSync_wideSeen (s : State) (g : Sync → Sync) : (s.modSync g).wideSeen = s.wideSeen := rfl
@[simp] theorem State.modSync_inbox (s : State) (g : Sync → Sync) : (s.modSync g).inbox = s.inbox := rfl
@[simp] theorem State.modSync_spans (s : State) (g : Sync → Sync) : (s.modSync g).spans = s.spans := rfl
@[simp] theorem State.modSync_left (s : State) (g : Sync → Sync) : (s.modSync g).left = s.left := rfl
@[simp] theorem State.modSync_msgId (s : State) (g : Sync → Sync) : (s.modSync g).msgId = s.msgId := rfl
@[simp] theorem State.modSync_undelivered (s : State) (g : Sync → Sync) : (s.modSync g).undelivered = s.undelivered := rfl
@[simp] theorem State.modSync_denials (s : State) (g : Sync → Sync) : (s.modSync g).denials = s.denials := rfl
@[simp] theorem State.modSync_um (s : State) (g : Sync → Sync) : (s.modSync g).um = s.um := rfl
@[simp] theorem State.modSync_spdm (s : State) (g : Sync → Sync) : (s.modSync g).spdm = s.spdm := rfl
@[simp] theorem State.modSync_flash (s : State) (g : Sync → Sync) : (s.modSync g).flash = s.flash := rfl
@[simp] theorem State.modSync_scrubHours (s : State) (g : Sync → Sync) : (s.modSync g).scrubHours = s.scrubHours := rfl
@[simp] theorem State.modSync_rateLimit (s : State) (g : Sync → Sync) : (s.modSync g).rateLimit = s.rateLimit := rfl
@[simp] theorem State.modSync_swapStat (s : State) (g : Sync → Sync) : (s.modSync g).swapStat = s.swapStat := rfl
@[simp] theorem State.modSync_relayStat (s : State) (g : Sync → Sync) : (s.modSync g).relayStat = s.relayStat := rfl
@[simp] theorem State.modSync_swapQueue (s : State) (g : Sync → Sync) : (s.modSync g).swapQueue = s.swapQueue := rfl
@[simp] theorem State.modSync_specStat (s : State) (g : Sync → Sync) : (s.modSync g).specStat = s.specStat := rfl
@[simp] theorem State.modSync_specSource (s : State) (g : Sync → Sync) : (s.modSync g).specSource = s.specSource := rfl
@[simp] theorem State.modSync_boot (s : State) (g : Sync → Sync) : (s.modSync g).boot = s.boot := rfl
@[simp] theorem State.modSync_pins (s : State) (g : Sync → Sync) : (s.modSync g).pins = s.pins := rfl
@[simp] theorem State.modSync_power (s : State) (g : Sync → Sync) : (s.modSync g).power = s.power := rfl
@[simp] theorem State.modSync_side (s : State) (g : Sync → Sync) : (s.modSync g).side = s.side := rfl
@[simp] theorem State.modSync_out (s : State) (g : Sync → Sync) : (s.modSync g).out = s.out := rfl
@[simp] theorem State.modSync_held (s : State) (g : Sync → Sync) : (s.modSync g).held = s.held := rfl
@[simp] theorem State.modSync_fresh (s : State) (g : Sync → Sync) : (s.modSync g).fresh = s.fresh := rfl

/-! ### modFlash -/

@[simp] theorem State.modFlash_pending (s : State) (g : Flash → Flash) : (s.modFlash g).pending = s.pending := rfl
@[simp] theorem State.modFlash_fns (s : State) (g : Flash → Flash) : (s.modFlash g).fns = s.fns := rfl
@[simp] theorem State.modFlash_tiles (s : State) (g : Flash → Flash) : (s.modFlash g).tiles = s.tiles := rfl
@[simp] theorem State.modFlash_models (s : State) (g : Flash → Flash) : (s.modFlash g).models = s.models := rfl
@[simp] theorem State.modFlash_seqs (s : State) (g : Flash → Flash) : (s.modFlash g).seqs = s.seqs := rfl
@[simp] theorem State.modFlash_reuse (s : State) (g : Flash → Flash) : (s.modFlash g).reuse = s.reuse := rfl
@[simp] theorem State.modFlash_cohorts (s : State) (g : Flash → Flash) : (s.modFlash g).cohorts = s.cohorts := rfl
@[simp] theorem State.modFlash_nextCohorts (s : State) (g : Flash → Flash) : (s.modFlash g).nextCohorts = s.nextCohorts := rfl
@[simp] theorem State.modFlash_treeOps (s : State) (g : Flash → Flash) : (s.modFlash g).treeOps = s.treeOps := rfl
@[simp] theorem State.modFlash_stepCount (s : State) (g : Flash → Flash) : (s.modFlash g).stepCount = s.stepCount := rfl
@[simp] theorem State.modFlash_cands (s : State) (g : Flash → Flash) : (s.modFlash g).cands = s.cands := rfl
@[simp] theorem State.modFlash_sampled (s : State) (g : Flash → Flash) : (s.modFlash g).sampled = s.sampled := rfl
@[simp] theorem State.modFlash_sync (s : State) (g : Flash → Flash) : (s.modFlash g).sync = s.sync := rfl
@[simp] theorem State.modFlash_ports (s : State) (g : Flash → Flash) : (s.modFlash g).ports = s.ports := rfl
@[simp] theorem State.modFlash_slices (s : State) (g : Flash → Flash) : (s.modFlash g).slices = s.slices := rfl
@[simp] theorem State.modFlash_transit (s : State) (g : Flash → Flash) : (s.modFlash g).transit = s.transit := rfl
@[simp] theorem State.modFlash_inbound (s : State) (g : Flash → Flash) : (s.modFlash g).inbound = s.inbound := rfl
@[simp] theorem State.modFlash_heldWide (s : State) (g : Flash → Flash) : (s.modFlash g).heldWide = s.heldWide := rfl
@[simp] theorem State.modFlash_wideSeen (s : State) (g : Flash → Flash) : (s.modFlash g).wideSeen = s.wideSeen := rfl
@[simp] theorem State.modFlash_inbox (s : State) (g : Flash → Flash) : (s.modFlash g).inbox = s.inbox := rfl
@[simp] theorem State.modFlash_spans (s : State) (g : Flash → Flash) : (s.modFlash g).spans = s.spans := rfl
@[simp] theorem State.modFlash_left (s : State) (g : Flash → Flash) : (s.modFlash g).left = s.left := rfl
@[simp] theorem State.modFlash_msgId (s : State) (g : Flash → Flash) : (s.modFlash g).msgId = s.msgId := rfl
@[simp] theorem State.modFlash_undelivered (s : State) (g : Flash → Flash) : (s.modFlash g).undelivered = s.undelivered := rfl
@[simp] theorem State.modFlash_denials (s : State) (g : Flash → Flash) : (s.modFlash g).denials = s.denials := rfl
@[simp] theorem State.modFlash_um (s : State) (g : Flash → Flash) : (s.modFlash g).um = s.um := rfl
@[simp] theorem State.modFlash_spdm (s : State) (g : Flash → Flash) : (s.modFlash g).spdm = s.spdm := rfl
@[simp] theorem State.modFlash_flash (s : State) (g : Flash → Flash) : (s.modFlash g).flash = g s.flash := rfl
@[simp] theorem State.modFlash_scrubHours (s : State) (g : Flash → Flash) : (s.modFlash g).scrubHours = s.scrubHours := rfl
@[simp] theorem State.modFlash_rateLimit (s : State) (g : Flash → Flash) : (s.modFlash g).rateLimit = s.rateLimit := rfl
@[simp] theorem State.modFlash_swapStat (s : State) (g : Flash → Flash) : (s.modFlash g).swapStat = s.swapStat := rfl
@[simp] theorem State.modFlash_relayStat (s : State) (g : Flash → Flash) : (s.modFlash g).relayStat = s.relayStat := rfl
@[simp] theorem State.modFlash_swapQueue (s : State) (g : Flash → Flash) : (s.modFlash g).swapQueue = s.swapQueue := rfl
@[simp] theorem State.modFlash_specStat (s : State) (g : Flash → Flash) : (s.modFlash g).specStat = s.specStat := rfl
@[simp] theorem State.modFlash_specSource (s : State) (g : Flash → Flash) : (s.modFlash g).specSource = s.specSource := rfl
@[simp] theorem State.modFlash_boot (s : State) (g : Flash → Flash) : (s.modFlash g).boot = s.boot := rfl
@[simp] theorem State.modFlash_pins (s : State) (g : Flash → Flash) : (s.modFlash g).pins = s.pins := rfl
@[simp] theorem State.modFlash_power (s : State) (g : Flash → Flash) : (s.modFlash g).power = s.power := rfl
@[simp] theorem State.modFlash_side (s : State) (g : Flash → Flash) : (s.modFlash g).side = s.side := rfl
@[simp] theorem State.modFlash_out (s : State) (g : Flash → Flash) : (s.modFlash g).out = s.out := rfl
@[simp] theorem State.modFlash_held (s : State) (g : Flash → Flash) : (s.modFlash g).held = s.held := rfl
@[simp] theorem State.modFlash_fresh (s : State) (g : Flash → Flash) : (s.modFlash g).fresh = s.fresh := rfl

/-! ### modSpdm -/

@[simp] theorem State.modSpdm_pending (s : State) (g : Spdm → Spdm) : (s.modSpdm g).pending = s.pending := rfl
@[simp] theorem State.modSpdm_fns (s : State) (g : Spdm → Spdm) : (s.modSpdm g).fns = s.fns := rfl
@[simp] theorem State.modSpdm_tiles (s : State) (g : Spdm → Spdm) : (s.modSpdm g).tiles = s.tiles := rfl
@[simp] theorem State.modSpdm_models (s : State) (g : Spdm → Spdm) : (s.modSpdm g).models = s.models := rfl
@[simp] theorem State.modSpdm_seqs (s : State) (g : Spdm → Spdm) : (s.modSpdm g).seqs = s.seqs := rfl
@[simp] theorem State.modSpdm_reuse (s : State) (g : Spdm → Spdm) : (s.modSpdm g).reuse = s.reuse := rfl
@[simp] theorem State.modSpdm_cohorts (s : State) (g : Spdm → Spdm) : (s.modSpdm g).cohorts = s.cohorts := rfl
@[simp] theorem State.modSpdm_nextCohorts (s : State) (g : Spdm → Spdm) : (s.modSpdm g).nextCohorts = s.nextCohorts := rfl
@[simp] theorem State.modSpdm_treeOps (s : State) (g : Spdm → Spdm) : (s.modSpdm g).treeOps = s.treeOps := rfl
@[simp] theorem State.modSpdm_stepCount (s : State) (g : Spdm → Spdm) : (s.modSpdm g).stepCount = s.stepCount := rfl
@[simp] theorem State.modSpdm_cands (s : State) (g : Spdm → Spdm) : (s.modSpdm g).cands = s.cands := rfl
@[simp] theorem State.modSpdm_sampled (s : State) (g : Spdm → Spdm) : (s.modSpdm g).sampled = s.sampled := rfl
@[simp] theorem State.modSpdm_sync (s : State) (g : Spdm → Spdm) : (s.modSpdm g).sync = s.sync := rfl
@[simp] theorem State.modSpdm_ports (s : State) (g : Spdm → Spdm) : (s.modSpdm g).ports = s.ports := rfl
@[simp] theorem State.modSpdm_slices (s : State) (g : Spdm → Spdm) : (s.modSpdm g).slices = s.slices := rfl
@[simp] theorem State.modSpdm_transit (s : State) (g : Spdm → Spdm) : (s.modSpdm g).transit = s.transit := rfl
@[simp] theorem State.modSpdm_inbound (s : State) (g : Spdm → Spdm) : (s.modSpdm g).inbound = s.inbound := rfl
@[simp] theorem State.modSpdm_heldWide (s : State) (g : Spdm → Spdm) : (s.modSpdm g).heldWide = s.heldWide := rfl
@[simp] theorem State.modSpdm_wideSeen (s : State) (g : Spdm → Spdm) : (s.modSpdm g).wideSeen = s.wideSeen := rfl
@[simp] theorem State.modSpdm_inbox (s : State) (g : Spdm → Spdm) : (s.modSpdm g).inbox = s.inbox := rfl
@[simp] theorem State.modSpdm_spans (s : State) (g : Spdm → Spdm) : (s.modSpdm g).spans = s.spans := rfl
@[simp] theorem State.modSpdm_left (s : State) (g : Spdm → Spdm) : (s.modSpdm g).left = s.left := rfl
@[simp] theorem State.modSpdm_msgId (s : State) (g : Spdm → Spdm) : (s.modSpdm g).msgId = s.msgId := rfl
@[simp] theorem State.modSpdm_undelivered (s : State) (g : Spdm → Spdm) : (s.modSpdm g).undelivered = s.undelivered := rfl
@[simp] theorem State.modSpdm_denials (s : State) (g : Spdm → Spdm) : (s.modSpdm g).denials = s.denials := rfl
@[simp] theorem State.modSpdm_um (s : State) (g : Spdm → Spdm) : (s.modSpdm g).um = s.um := rfl
@[simp] theorem State.modSpdm_spdm (s : State) (g : Spdm → Spdm) : (s.modSpdm g).spdm = g s.spdm := rfl
@[simp] theorem State.modSpdm_flash (s : State) (g : Spdm → Spdm) : (s.modSpdm g).flash = s.flash := rfl
@[simp] theorem State.modSpdm_scrubHours (s : State) (g : Spdm → Spdm) : (s.modSpdm g).scrubHours = s.scrubHours := rfl
@[simp] theorem State.modSpdm_rateLimit (s : State) (g : Spdm → Spdm) : (s.modSpdm g).rateLimit = s.rateLimit := rfl
@[simp] theorem State.modSpdm_swapStat (s : State) (g : Spdm → Spdm) : (s.modSpdm g).swapStat = s.swapStat := rfl
@[simp] theorem State.modSpdm_relayStat (s : State) (g : Spdm → Spdm) : (s.modSpdm g).relayStat = s.relayStat := rfl
@[simp] theorem State.modSpdm_swapQueue (s : State) (g : Spdm → Spdm) : (s.modSpdm g).swapQueue = s.swapQueue := rfl
@[simp] theorem State.modSpdm_specStat (s : State) (g : Spdm → Spdm) : (s.modSpdm g).specStat = s.specStat := rfl
@[simp] theorem State.modSpdm_specSource (s : State) (g : Spdm → Spdm) : (s.modSpdm g).specSource = s.specSource := rfl
@[simp] theorem State.modSpdm_boot (s : State) (g : Spdm → Spdm) : (s.modSpdm g).boot = s.boot := rfl
@[simp] theorem State.modSpdm_pins (s : State) (g : Spdm → Spdm) : (s.modSpdm g).pins = s.pins := rfl
@[simp] theorem State.modSpdm_power (s : State) (g : Spdm → Spdm) : (s.modSpdm g).power = s.power := rfl
@[simp] theorem State.modSpdm_side (s : State) (g : Spdm → Spdm) : (s.modSpdm g).side = s.side := rfl
@[simp] theorem State.modSpdm_out (s : State) (g : Spdm → Spdm) : (s.modSpdm g).out = s.out := rfl
@[simp] theorem State.modSpdm_held (s : State) (g : Spdm → Spdm) : (s.modSpdm g).held = s.held := rfl
@[simp] theorem State.modSpdm_fresh (s : State) (g : Spdm → Spdm) : (s.modSpdm g).fresh = s.fresh := rfl

/-! ### modRing -/

@[simp] theorem State.modRing_pending (s : State) (f : Fn) (k : SetIx) (n : RingIx) (g : Ring → Ring) : (s.modRing f k n g).pending = s.pending := rfl
@[simp] theorem State.modRing_fns (s : State) (f : Fn) (k : SetIx) (n : RingIx) (g : Ring → Ring) : (s.modRing f k n g).fns = vmod s.fns f fun x => { x with rings := vmod x.rings k fun v => vmod v n g } := rfl
@[simp] theorem State.modRing_tiles (s : State) (f : Fn) (k : SetIx) (n : RingIx) (g : Ring → Ring) : (s.modRing f k n g).tiles = s.tiles := rfl
@[simp] theorem State.modRing_models (s : State) (f : Fn) (k : SetIx) (n : RingIx) (g : Ring → Ring) : (s.modRing f k n g).models = s.models := rfl
@[simp] theorem State.modRing_seqs (s : State) (f : Fn) (k : SetIx) (n : RingIx) (g : Ring → Ring) : (s.modRing f k n g).seqs = s.seqs := rfl
@[simp] theorem State.modRing_reuse (s : State) (f : Fn) (k : SetIx) (n : RingIx) (g : Ring → Ring) : (s.modRing f k n g).reuse = s.reuse := rfl
@[simp] theorem State.modRing_cohorts (s : State) (f : Fn) (k : SetIx) (n : RingIx) (g : Ring → Ring) : (s.modRing f k n g).cohorts = s.cohorts := rfl
@[simp] theorem State.modRing_nextCohorts (s : State) (f : Fn) (k : SetIx) (n : RingIx) (g : Ring → Ring) : (s.modRing f k n g).nextCohorts = s.nextCohorts := rfl
@[simp] theorem State.modRing_treeOps (s : State) (f : Fn) (k : SetIx) (n : RingIx) (g : Ring → Ring) : (s.modRing f k n g).treeOps = s.treeOps := rfl
@[simp] theorem State.modRing_stepCount (s : State) (f : Fn) (k : SetIx) (n : RingIx) (g : Ring → Ring) : (s.modRing f k n g).stepCount = s.stepCount := rfl
@[simp] theorem State.modRing_cands (s : State) (f : Fn) (k : SetIx) (n : RingIx) (g : Ring → Ring) : (s.modRing f k n g).cands = s.cands := rfl
@[simp] theorem State.modRing_sampled (s : State) (f : Fn) (k : SetIx) (n : RingIx) (g : Ring → Ring) : (s.modRing f k n g).sampled = s.sampled := rfl
@[simp] theorem State.modRing_sync (s : State) (f : Fn) (k : SetIx) (n : RingIx) (g : Ring → Ring) : (s.modRing f k n g).sync = s.sync := rfl
@[simp] theorem State.modRing_ports (s : State) (f : Fn) (k : SetIx) (n : RingIx) (g : Ring → Ring) : (s.modRing f k n g).ports = s.ports := rfl
@[simp] theorem State.modRing_slices (s : State) (f : Fn) (k : SetIx) (n : RingIx) (g : Ring → Ring) : (s.modRing f k n g).slices = s.slices := rfl
@[simp] theorem State.modRing_transit (s : State) (f : Fn) (k : SetIx) (n : RingIx) (g : Ring → Ring) : (s.modRing f k n g).transit = s.transit := rfl
@[simp] theorem State.modRing_inbound (s : State) (f : Fn) (k : SetIx) (n : RingIx) (g : Ring → Ring) : (s.modRing f k n g).inbound = s.inbound := rfl
@[simp] theorem State.modRing_heldWide (s : State) (f : Fn) (k : SetIx) (n : RingIx) (g : Ring → Ring) : (s.modRing f k n g).heldWide = s.heldWide := rfl
@[simp] theorem State.modRing_wideSeen (s : State) (f : Fn) (k : SetIx) (n : RingIx) (g : Ring → Ring) : (s.modRing f k n g).wideSeen = s.wideSeen := rfl
@[simp] theorem State.modRing_inbox (s : State) (f : Fn) (k : SetIx) (n : RingIx) (g : Ring → Ring) : (s.modRing f k n g).inbox = s.inbox := rfl
@[simp] theorem State.modRing_spans (s : State) (f : Fn) (k : SetIx) (n : RingIx) (g : Ring → Ring) : (s.modRing f k n g).spans = s.spans := rfl
@[simp] theorem State.modRing_left (s : State) (f : Fn) (k : SetIx) (n : RingIx) (g : Ring → Ring) : (s.modRing f k n g).left = s.left := rfl
@[simp] theorem State.modRing_msgId (s : State) (f : Fn) (k : SetIx) (n : RingIx) (g : Ring → Ring) : (s.modRing f k n g).msgId = s.msgId := rfl
@[simp] theorem State.modRing_undelivered (s : State) (f : Fn) (k : SetIx) (n : RingIx) (g : Ring → Ring) : (s.modRing f k n g).undelivered = s.undelivered := rfl
@[simp] theorem State.modRing_denials (s : State) (f : Fn) (k : SetIx) (n : RingIx) (g : Ring → Ring) : (s.modRing f k n g).denials = s.denials := rfl
@[simp] theorem State.modRing_um (s : State) (f : Fn) (k : SetIx) (n : RingIx) (g : Ring → Ring) : (s.modRing f k n g).um = s.um := rfl
@[simp] theorem State.modRing_spdm (s : State) (f : Fn) (k : SetIx) (n : RingIx) (g : Ring → Ring) : (s.modRing f k n g).spdm = s.spdm := rfl
@[simp] theorem State.modRing_flash (s : State) (f : Fn) (k : SetIx) (n : RingIx) (g : Ring → Ring) : (s.modRing f k n g).flash = s.flash := rfl
@[simp] theorem State.modRing_scrubHours (s : State) (f : Fn) (k : SetIx) (n : RingIx) (g : Ring → Ring) : (s.modRing f k n g).scrubHours = s.scrubHours := rfl
@[simp] theorem State.modRing_rateLimit (s : State) (f : Fn) (k : SetIx) (n : RingIx) (g : Ring → Ring) : (s.modRing f k n g).rateLimit = s.rateLimit := rfl
@[simp] theorem State.modRing_swapStat (s : State) (f : Fn) (k : SetIx) (n : RingIx) (g : Ring → Ring) : (s.modRing f k n g).swapStat = s.swapStat := rfl
@[simp] theorem State.modRing_relayStat (s : State) (f : Fn) (k : SetIx) (n : RingIx) (g : Ring → Ring) : (s.modRing f k n g).relayStat = s.relayStat := rfl
@[simp] theorem State.modRing_swapQueue (s : State) (f : Fn) (k : SetIx) (n : RingIx) (g : Ring → Ring) : (s.modRing f k n g).swapQueue = s.swapQueue := rfl
@[simp] theorem State.modRing_specStat (s : State) (f : Fn) (k : SetIx) (n : RingIx) (g : Ring → Ring) : (s.modRing f k n g).specStat = s.specStat := rfl
@[simp] theorem State.modRing_specSource (s : State) (f : Fn) (k : SetIx) (n : RingIx) (g : Ring → Ring) : (s.modRing f k n g).specSource = s.specSource := rfl
@[simp] theorem State.modRing_boot (s : State) (f : Fn) (k : SetIx) (n : RingIx) (g : Ring → Ring) : (s.modRing f k n g).boot = s.boot := rfl
@[simp] theorem State.modRing_pins (s : State) (f : Fn) (k : SetIx) (n : RingIx) (g : Ring → Ring) : (s.modRing f k n g).pins = s.pins := rfl
@[simp] theorem State.modRing_power (s : State) (f : Fn) (k : SetIx) (n : RingIx) (g : Ring → Ring) : (s.modRing f k n g).power = s.power := rfl
@[simp] theorem State.modRing_side (s : State) (f : Fn) (k : SetIx) (n : RingIx) (g : Ring → Ring) : (s.modRing f k n g).side = s.side := rfl
@[simp] theorem State.modRing_out (s : State) (f : Fn) (k : SetIx) (n : RingIx) (g : Ring → Ring) : (s.modRing f k n g).out = s.out := rfl
@[simp] theorem State.modRing_held (s : State) (f : Fn) (k : SetIx) (n : RingIx) (g : Ring → Ring) : (s.modRing f k n g).held = s.held := rfl
@[simp] theorem State.modRing_fresh (s : State) (f : Fn) (k : SetIx) (n : RingIx) (g : Ring → Ring) : (s.modRing f k n g).fresh = s.fresh := rfl

/-! ### modSeq -/

@[simp] theorem State.modSeq_pending (s : State) (h : Key) (g : Seq → Seq) : (s.modSeq h g).pending = s.pending := rfl
@[simp] theorem State.modSeq_fns (s : State) (h : Key) (g : Seq → Seq) : (s.modSeq h g).fns = s.fns := rfl
@[simp] theorem State.modSeq_tiles (s : State) (h : Key) (g : Seq → Seq) : (s.modSeq h g).tiles = s.tiles := rfl
@[simp] theorem State.modSeq_models (s : State) (h : Key) (g : Seq → Seq) : (s.modSeq h g).models = s.models := rfl
@[simp] theorem State.modSeq_seqs (s : State) (h : Key) (g : Seq → Seq) : (s.modSeq h g).seqs = updFirst (fun q => decide (q.handle = h)) g s.seqs := rfl
@[simp] theorem State.modSeq_reuse (s : State) (h : Key) (g : Seq → Seq) : (s.modSeq h g).reuse = s.reuse := rfl
@[simp] theorem State.modSeq_cohorts (s : State) (h : Key) (g : Seq → Seq) : (s.modSeq h g).cohorts = s.cohorts := rfl
@[simp] theorem State.modSeq_nextCohorts (s : State) (h : Key) (g : Seq → Seq) : (s.modSeq h g).nextCohorts = s.nextCohorts := rfl
@[simp] theorem State.modSeq_treeOps (s : State) (h : Key) (g : Seq → Seq) : (s.modSeq h g).treeOps = s.treeOps := rfl
@[simp] theorem State.modSeq_stepCount (s : State) (h : Key) (g : Seq → Seq) : (s.modSeq h g).stepCount = s.stepCount := rfl
@[simp] theorem State.modSeq_cands (s : State) (h : Key) (g : Seq → Seq) : (s.modSeq h g).cands = s.cands := rfl
@[simp] theorem State.modSeq_sampled (s : State) (h : Key) (g : Seq → Seq) : (s.modSeq h g).sampled = s.sampled := rfl
@[simp] theorem State.modSeq_sync (s : State) (h : Key) (g : Seq → Seq) : (s.modSeq h g).sync = s.sync := rfl
@[simp] theorem State.modSeq_ports (s : State) (h : Key) (g : Seq → Seq) : (s.modSeq h g).ports = s.ports := rfl
@[simp] theorem State.modSeq_slices (s : State) (h : Key) (g : Seq → Seq) : (s.modSeq h g).slices = s.slices := rfl
@[simp] theorem State.modSeq_transit (s : State) (h : Key) (g : Seq → Seq) : (s.modSeq h g).transit = s.transit := rfl
@[simp] theorem State.modSeq_inbound (s : State) (h : Key) (g : Seq → Seq) : (s.modSeq h g).inbound = s.inbound := rfl
@[simp] theorem State.modSeq_heldWide (s : State) (h : Key) (g : Seq → Seq) : (s.modSeq h g).heldWide = s.heldWide := rfl
@[simp] theorem State.modSeq_wideSeen (s : State) (h : Key) (g : Seq → Seq) : (s.modSeq h g).wideSeen = s.wideSeen := rfl
@[simp] theorem State.modSeq_inbox (s : State) (h : Key) (g : Seq → Seq) : (s.modSeq h g).inbox = s.inbox := rfl
@[simp] theorem State.modSeq_spans (s : State) (h : Key) (g : Seq → Seq) : (s.modSeq h g).spans = s.spans := rfl
@[simp] theorem State.modSeq_left (s : State) (h : Key) (g : Seq → Seq) : (s.modSeq h g).left = s.left := rfl
@[simp] theorem State.modSeq_msgId (s : State) (h : Key) (g : Seq → Seq) : (s.modSeq h g).msgId = s.msgId := rfl
@[simp] theorem State.modSeq_undelivered (s : State) (h : Key) (g : Seq → Seq) : (s.modSeq h g).undelivered = s.undelivered := rfl
@[simp] theorem State.modSeq_denials (s : State) (h : Key) (g : Seq → Seq) : (s.modSeq h g).denials = s.denials := rfl
@[simp] theorem State.modSeq_um (s : State) (h : Key) (g : Seq → Seq) : (s.modSeq h g).um = s.um := rfl
@[simp] theorem State.modSeq_spdm (s : State) (h : Key) (g : Seq → Seq) : (s.modSeq h g).spdm = s.spdm := rfl
@[simp] theorem State.modSeq_flash (s : State) (h : Key) (g : Seq → Seq) : (s.modSeq h g).flash = s.flash := rfl
@[simp] theorem State.modSeq_scrubHours (s : State) (h : Key) (g : Seq → Seq) : (s.modSeq h g).scrubHours = s.scrubHours := rfl
@[simp] theorem State.modSeq_rateLimit (s : State) (h : Key) (g : Seq → Seq) : (s.modSeq h g).rateLimit = s.rateLimit := rfl
@[simp] theorem State.modSeq_swapStat (s : State) (h : Key) (g : Seq → Seq) : (s.modSeq h g).swapStat = s.swapStat := rfl
@[simp] theorem State.modSeq_relayStat (s : State) (h : Key) (g : Seq → Seq) : (s.modSeq h g).relayStat = s.relayStat := rfl
@[simp] theorem State.modSeq_swapQueue (s : State) (h : Key) (g : Seq → Seq) : (s.modSeq h g).swapQueue = s.swapQueue := rfl
@[simp] theorem State.modSeq_specStat (s : State) (h : Key) (g : Seq → Seq) : (s.modSeq h g).specStat = s.specStat := rfl
@[simp] theorem State.modSeq_specSource (s : State) (h : Key) (g : Seq → Seq) : (s.modSeq h g).specSource = s.specSource := rfl
@[simp] theorem State.modSeq_boot (s : State) (h : Key) (g : Seq → Seq) : (s.modSeq h g).boot = s.boot := rfl
@[simp] theorem State.modSeq_pins (s : State) (h : Key) (g : Seq → Seq) : (s.modSeq h g).pins = s.pins := rfl
@[simp] theorem State.modSeq_power (s : State) (h : Key) (g : Seq → Seq) : (s.modSeq h g).power = s.power := rfl
@[simp] theorem State.modSeq_side (s : State) (h : Key) (g : Seq → Seq) : (s.modSeq h g).side = s.side := rfl
@[simp] theorem State.modSeq_out (s : State) (h : Key) (g : Seq → Seq) : (s.modSeq h g).out = s.out := rfl
@[simp] theorem State.modSeq_held (s : State) (h : Key) (g : Seq → Seq) : (s.modSeq h g).held = s.held := rfl
@[simp] theorem State.modSeq_fresh (s : State) (h : Key) (g : Seq → Seq) : (s.modSeq h g).fresh = s.fresh := rfl

/-! ### modCohort -/

@[simp] theorem State.modCohort_pending (s : State) (m : SlotIx) (c : CohIx) (g : Cohort → Cohort) : (s.modCohort m c g).pending = s.pending := rfl
@[simp] theorem State.modCohort_fns (s : State) (m : SlotIx) (c : CohIx) (g : Cohort → Cohort) : (s.modCohort m c g).fns = s.fns := rfl
@[simp] theorem State.modCohort_tiles (s : State) (m : SlotIx) (c : CohIx) (g : Cohort → Cohort) : (s.modCohort m c g).tiles = s.tiles := rfl
@[simp] theorem State.modCohort_models (s : State) (m : SlotIx) (c : CohIx) (g : Cohort → Cohort) : (s.modCohort m c g).models = s.models := rfl
@[simp] theorem State.modCohort_seqs (s : State) (m : SlotIx) (c : CohIx) (g : Cohort → Cohort) : (s.modCohort m c g).seqs = s.seqs := rfl
@[simp] theorem State.modCohort_reuse (s : State) (m : SlotIx) (c : CohIx) (g : Cohort → Cohort) : (s.modCohort m c g).reuse = s.reuse := rfl
@[simp] theorem State.modCohort_cohorts (s : State) (m : SlotIx) (c : CohIx) (g : Cohort → Cohort) : (s.modCohort m c g).cohorts = updFirst (fun k => decide (k.model = m) && decide (k.index = c)) g s.cohorts := rfl
@[simp] theorem State.modCohort_nextCohorts (s : State) (m : SlotIx) (c : CohIx) (g : Cohort → Cohort) : (s.modCohort m c g).nextCohorts = s.nextCohorts := rfl
@[simp] theorem State.modCohort_treeOps (s : State) (m : SlotIx) (c : CohIx) (g : Cohort → Cohort) : (s.modCohort m c g).treeOps = s.treeOps := rfl
@[simp] theorem State.modCohort_stepCount (s : State) (m : SlotIx) (c : CohIx) (g : Cohort → Cohort) : (s.modCohort m c g).stepCount = s.stepCount := rfl
@[simp] theorem State.modCohort_cands (s : State) (m : SlotIx) (c : CohIx) (g : Cohort → Cohort) : (s.modCohort m c g).cands = s.cands := rfl
@[simp] theorem State.modCohort_sampled (s : State) (m : SlotIx) (c : CohIx) (g : Cohort → Cohort) : (s.modCohort m c g).sampled = s.sampled := rfl
@[simp] theorem State.modCohort_sync (s : State) (m : SlotIx) (c : CohIx) (g : Cohort → Cohort) : (s.modCohort m c g).sync = s.sync := rfl
@[simp] theorem State.modCohort_ports (s : State) (m : SlotIx) (c : CohIx) (g : Cohort → Cohort) : (s.modCohort m c g).ports = s.ports := rfl
@[simp] theorem State.modCohort_slices (s : State) (m : SlotIx) (c : CohIx) (g : Cohort → Cohort) : (s.modCohort m c g).slices = s.slices := rfl
@[simp] theorem State.modCohort_transit (s : State) (m : SlotIx) (c : CohIx) (g : Cohort → Cohort) : (s.modCohort m c g).transit = s.transit := rfl
@[simp] theorem State.modCohort_inbound (s : State) (m : SlotIx) (c : CohIx) (g : Cohort → Cohort) : (s.modCohort m c g).inbound = s.inbound := rfl
@[simp] theorem State.modCohort_heldWide (s : State) (m : SlotIx) (c : CohIx) (g : Cohort → Cohort) : (s.modCohort m c g).heldWide = s.heldWide := rfl
@[simp] theorem State.modCohort_wideSeen (s : State) (m : SlotIx) (c : CohIx) (g : Cohort → Cohort) : (s.modCohort m c g).wideSeen = s.wideSeen := rfl
@[simp] theorem State.modCohort_inbox (s : State) (m : SlotIx) (c : CohIx) (g : Cohort → Cohort) : (s.modCohort m c g).inbox = s.inbox := rfl
@[simp] theorem State.modCohort_spans (s : State) (m : SlotIx) (c : CohIx) (g : Cohort → Cohort) : (s.modCohort m c g).spans = s.spans := rfl
@[simp] theorem State.modCohort_left (s : State) (m : SlotIx) (c : CohIx) (g : Cohort → Cohort) : (s.modCohort m c g).left = s.left := rfl
@[simp] theorem State.modCohort_msgId (s : State) (m : SlotIx) (c : CohIx) (g : Cohort → Cohort) : (s.modCohort m c g).msgId = s.msgId := rfl
@[simp] theorem State.modCohort_undelivered (s : State) (m : SlotIx) (c : CohIx) (g : Cohort → Cohort) : (s.modCohort m c g).undelivered = s.undelivered := rfl
@[simp] theorem State.modCohort_denials (s : State) (m : SlotIx) (c : CohIx) (g : Cohort → Cohort) : (s.modCohort m c g).denials = s.denials := rfl
@[simp] theorem State.modCohort_um (s : State) (m : SlotIx) (c : CohIx) (g : Cohort → Cohort) : (s.modCohort m c g).um = s.um := rfl
@[simp] theorem State.modCohort_spdm (s : State) (m : SlotIx) (c : CohIx) (g : Cohort → Cohort) : (s.modCohort m c g).spdm = s.spdm := rfl
@[simp] theorem State.modCohort_flash (s : State) (m : SlotIx) (c : CohIx) (g : Cohort → Cohort) : (s.modCohort m c g).flash = s.flash := rfl
@[simp] theorem State.modCohort_scrubHours (s : State) (m : SlotIx) (c : CohIx) (g : Cohort → Cohort) : (s.modCohort m c g).scrubHours = s.scrubHours := rfl
@[simp] theorem State.modCohort_rateLimit (s : State) (m : SlotIx) (c : CohIx) (g : Cohort → Cohort) : (s.modCohort m c g).rateLimit = s.rateLimit := rfl
@[simp] theorem State.modCohort_swapStat (s : State) (m : SlotIx) (c : CohIx) (g : Cohort → Cohort) : (s.modCohort m c g).swapStat = s.swapStat := rfl
@[simp] theorem State.modCohort_relayStat (s : State) (m : SlotIx) (c : CohIx) (g : Cohort → Cohort) : (s.modCohort m c g).relayStat = s.relayStat := rfl
@[simp] theorem State.modCohort_swapQueue (s : State) (m : SlotIx) (c : CohIx) (g : Cohort → Cohort) : (s.modCohort m c g).swapQueue = s.swapQueue := rfl
@[simp] theorem State.modCohort_specStat (s : State) (m : SlotIx) (c : CohIx) (g : Cohort → Cohort) : (s.modCohort m c g).specStat = s.specStat := rfl
@[simp] theorem State.modCohort_specSource (s : State) (m : SlotIx) (c : CohIx) (g : Cohort → Cohort) : (s.modCohort m c g).specSource = s.specSource := rfl
@[simp] theorem State.modCohort_boot (s : State) (m : SlotIx) (c : CohIx) (g : Cohort → Cohort) : (s.modCohort m c g).boot = s.boot := rfl
@[simp] theorem State.modCohort_pins (s : State) (m : SlotIx) (c : CohIx) (g : Cohort → Cohort) : (s.modCohort m c g).pins = s.pins := rfl
@[simp] theorem State.modCohort_power (s : State) (m : SlotIx) (c : CohIx) (g : Cohort → Cohort) : (s.modCohort m c g).power = s.power := rfl
@[simp] theorem State.modCohort_side (s : State) (m : SlotIx) (c : CohIx) (g : Cohort → Cohort) : (s.modCohort m c g).side = s.side := rfl
@[simp] theorem State.modCohort_out (s : State) (m : SlotIx) (c : CohIx) (g : Cohort → Cohort) : (s.modCohort m c g).out = s.out := rfl
@[simp] theorem State.modCohort_held (s : State) (m : SlotIx) (c : CohIx) (g : Cohort → Cohort) : (s.modCohort m c g).held = s.held := rfl
@[simp] theorem State.modCohort_fresh (s : State) (m : SlotIx) (c : CohIx) (g : Cohort → Cohort) : (s.modCohort m c g).fresh = s.fresh := rfl

/-! ### modVec -/

@[simp] theorem State.modVec_pending (s : State) (t : TileIx) (g : Vec → Vec) : (s.modVec t g).pending = s.pending := rfl
@[simp] theorem State.modVec_fns (s : State) (t : TileIx) (g : Vec → Vec) : (s.modVec t g).fns = s.fns := rfl
@[simp] theorem State.modVec_tiles (s : State) (t : TileIx) (g : Vec → Vec) : (s.modVec t g).tiles = vmod s.tiles t fun x => { x with vec := g x.vec } := rfl
@[simp] theorem State.modVec_models (s : State) (t : TileIx) (g : Vec → Vec) : (s.modVec t g).models = s.models := rfl
@[simp] theorem State.modVec_seqs (s : State) (t : TileIx) (g : Vec → Vec) : (s.modVec t g).seqs = s.seqs := rfl
@[simp] theorem State.modVec_reuse (s : State) (t : TileIx) (g : Vec → Vec) : (s.modVec t g).reuse = s.reuse := rfl
@[simp] theorem State.modVec_cohorts (s : State) (t : TileIx) (g : Vec → Vec) : (s.modVec t g).cohorts = s.cohorts := rfl
@[simp] theorem State.modVec_nextCohorts (s : State) (t : TileIx) (g : Vec → Vec) : (s.modVec t g).nextCohorts = s.nextCohorts := rfl
@[simp] theorem State.modVec_treeOps (s : State) (t : TileIx) (g : Vec → Vec) : (s.modVec t g).treeOps = s.treeOps := rfl
@[simp] theorem State.modVec_stepCount (s : State) (t : TileIx) (g : Vec → Vec) : (s.modVec t g).stepCount = s.stepCount := rfl
@[simp] theorem State.modVec_cands (s : State) (t : TileIx) (g : Vec → Vec) : (s.modVec t g).cands = s.cands := rfl
@[simp] theorem State.modVec_sampled (s : State) (t : TileIx) (g : Vec → Vec) : (s.modVec t g).sampled = s.sampled := rfl
@[simp] theorem State.modVec_sync (s : State) (t : TileIx) (g : Vec → Vec) : (s.modVec t g).sync = s.sync := rfl
@[simp] theorem State.modVec_ports (s : State) (t : TileIx) (g : Vec → Vec) : (s.modVec t g).ports = s.ports := rfl
@[simp] theorem State.modVec_slices (s : State) (t : TileIx) (g : Vec → Vec) : (s.modVec t g).slices = s.slices := rfl
@[simp] theorem State.modVec_transit (s : State) (t : TileIx) (g : Vec → Vec) : (s.modVec t g).transit = s.transit := rfl
@[simp] theorem State.modVec_inbound (s : State) (t : TileIx) (g : Vec → Vec) : (s.modVec t g).inbound = s.inbound := rfl
@[simp] theorem State.modVec_heldWide (s : State) (t : TileIx) (g : Vec → Vec) : (s.modVec t g).heldWide = s.heldWide := rfl
@[simp] theorem State.modVec_wideSeen (s : State) (t : TileIx) (g : Vec → Vec) : (s.modVec t g).wideSeen = s.wideSeen := rfl
@[simp] theorem State.modVec_inbox (s : State) (t : TileIx) (g : Vec → Vec) : (s.modVec t g).inbox = s.inbox := rfl
@[simp] theorem State.modVec_spans (s : State) (t : TileIx) (g : Vec → Vec) : (s.modVec t g).spans = s.spans := rfl
@[simp] theorem State.modVec_left (s : State) (t : TileIx) (g : Vec → Vec) : (s.modVec t g).left = s.left := rfl
@[simp] theorem State.modVec_msgId (s : State) (t : TileIx) (g : Vec → Vec) : (s.modVec t g).msgId = s.msgId := rfl
@[simp] theorem State.modVec_undelivered (s : State) (t : TileIx) (g : Vec → Vec) : (s.modVec t g).undelivered = s.undelivered := rfl
@[simp] theorem State.modVec_denials (s : State) (t : TileIx) (g : Vec → Vec) : (s.modVec t g).denials = s.denials := rfl
@[simp] theorem State.modVec_um (s : State) (t : TileIx) (g : Vec → Vec) : (s.modVec t g).um = s.um := rfl
@[simp] theorem State.modVec_spdm (s : State) (t : TileIx) (g : Vec → Vec) : (s.modVec t g).spdm = s.spdm := rfl
@[simp] theorem State.modVec_flash (s : State) (t : TileIx) (g : Vec → Vec) : (s.modVec t g).flash = s.flash := rfl
@[simp] theorem State.modVec_scrubHours (s : State) (t : TileIx) (g : Vec → Vec) : (s.modVec t g).scrubHours = s.scrubHours := rfl
@[simp] theorem State.modVec_rateLimit (s : State) (t : TileIx) (g : Vec → Vec) : (s.modVec t g).rateLimit = s.rateLimit := rfl
@[simp] theorem State.modVec_swapStat (s : State) (t : TileIx) (g : Vec → Vec) : (s.modVec t g).swapStat = s.swapStat := rfl
@[simp] theorem State.modVec_relayStat (s : State) (t : TileIx) (g : Vec → Vec) : (s.modVec t g).relayStat = s.relayStat := rfl
@[simp] theorem State.modVec_swapQueue (s : State) (t : TileIx) (g : Vec → Vec) : (s.modVec t g).swapQueue = s.swapQueue := rfl
@[simp] theorem State.modVec_specStat (s : State) (t : TileIx) (g : Vec → Vec) : (s.modVec t g).specStat = s.specStat := rfl
@[simp] theorem State.modVec_specSource (s : State) (t : TileIx) (g : Vec → Vec) : (s.modVec t g).specSource = s.specSource := rfl
@[simp] theorem State.modVec_boot (s : State) (t : TileIx) (g : Vec → Vec) : (s.modVec t g).boot = s.boot := rfl
@[simp] theorem State.modVec_pins (s : State) (t : TileIx) (g : Vec → Vec) : (s.modVec t g).pins = s.pins := rfl
@[simp] theorem State.modVec_power (s : State) (t : TileIx) (g : Vec → Vec) : (s.modVec t g).power = s.power := rfl
@[simp] theorem State.modVec_side (s : State) (t : TileIx) (g : Vec → Vec) : (s.modVec t g).side = s.side := rfl
@[simp] theorem State.modVec_out (s : State) (t : TileIx) (g : Vec → Vec) : (s.modVec t g).out = s.out := rfl
@[simp] theorem State.modVec_held (s : State) (t : TileIx) (g : Vec → Vec) : (s.modVec t g).held = s.held := rfl
@[simp] theorem State.modVec_fresh (s : State) (t : TileIx) (g : Vec → Vec) : (s.modVec t g).fresh = s.fresh := rfl

/-! ### post -/

@[simp] theorem State.post_pending (s : State) (o : HostOut) : (s.post o).pending = s.pending := rfl
@[simp] theorem State.post_fns (s : State) (o : HostOut) : (s.post o).fns = s.fns := rfl
@[simp] theorem State.post_tiles (s : State) (o : HostOut) : (s.post o).tiles = s.tiles := rfl
@[simp] theorem State.post_models (s : State) (o : HostOut) : (s.post o).models = s.models := rfl
@[simp] theorem State.post_seqs (s : State) (o : HostOut) : (s.post o).seqs = s.seqs := rfl
@[simp] theorem State.post_reuse (s : State) (o : HostOut) : (s.post o).reuse = s.reuse := rfl
@[simp] theorem State.post_cohorts (s : State) (o : HostOut) : (s.post o).cohorts = s.cohorts := rfl
@[simp] theorem State.post_stepCount (s : State) (o : HostOut) : (s.post o).stepCount = s.stepCount := rfl
@[simp] theorem State.post_cands (s : State) (o : HostOut) : (s.post o).cands = s.cands := rfl
@[simp] theorem State.post_sampled (s : State) (o : HostOut) : (s.post o).sampled = s.sampled := rfl
@[simp] theorem State.post_sync (s : State) (o : HostOut) : (s.post o).sync = s.sync := rfl
@[simp] theorem State.post_ports (s : State) (o : HostOut) : (s.post o).ports = s.ports := rfl
@[simp] theorem State.post_slices (s : State) (o : HostOut) : (s.post o).slices = s.slices := rfl
@[simp] theorem State.post_transit (s : State) (o : HostOut) : (s.post o).transit = s.transit := rfl
@[simp] theorem State.post_inbound (s : State) (o : HostOut) : (s.post o).inbound = s.inbound := rfl
@[simp] theorem State.post_heldWide (s : State) (o : HostOut) : (s.post o).heldWide = s.heldWide := rfl
@[simp] theorem State.post_inbox (s : State) (o : HostOut) : (s.post o).inbox = s.inbox := rfl
@[simp] theorem State.post_spans (s : State) (o : HostOut) : (s.post o).spans = s.spans := rfl
@[simp] theorem State.post_left (s : State) (o : HostOut) : (s.post o).left = s.left := rfl
@[simp] theorem State.post_msgId (s : State) (o : HostOut) : (s.post o).msgId = s.msgId := rfl
@[simp] theorem State.post_um (s : State) (o : HostOut) : (s.post o).um = s.um := rfl
@[simp] theorem State.post_spdm (s : State) (o : HostOut) : (s.post o).spdm = s.spdm := rfl
@[simp] theorem State.post_flash (s : State) (o : HostOut) : (s.post o).flash = s.flash := rfl
@[simp] theorem State.post_scrubHours (s : State) (o : HostOut) : (s.post o).scrubHours = s.scrubHours := rfl
@[simp] theorem State.post_rateLimit (s : State) (o : HostOut) : (s.post o).rateLimit = s.rateLimit := rfl
@[simp] theorem State.post_swapStat (s : State) (o : HostOut) : (s.post o).swapStat = s.swapStat := rfl
@[simp] theorem State.post_relayStat (s : State) (o : HostOut) : (s.post o).relayStat = s.relayStat := rfl
@[simp] theorem State.post_swapQueue (s : State) (o : HostOut) : (s.post o).swapQueue = s.swapQueue := rfl
@[simp] theorem State.post_specStat (s : State) (o : HostOut) : (s.post o).specStat = s.specStat := rfl
@[simp] theorem State.post_specSource (s : State) (o : HostOut) : (s.post o).specSource = s.specSource := rfl
@[simp] theorem State.post_boot (s : State) (o : HostOut) : (s.post o).boot = s.boot := rfl
@[simp] theorem State.post_pins (s : State) (o : HostOut) : (s.post o).pins = s.pins := rfl
@[simp] theorem State.post_power (s : State) (o : HostOut) : (s.post o).power = s.power := rfl
@[simp] theorem State.post_side (s : State) (o : HostOut) : (s.post o).side = s.side := rfl
@[simp] theorem State.post_out (s : State) (o : HostOut) : (s.post o).out = s.out ++ [o] := rfl
@[simp] theorem State.post_held (s : State) (o : HostOut) : (s.post o).held = s.held := rfl
@[simp] theorem State.post_fresh (s : State) (o : HostOut) : (s.post o).fresh = s.fresh := rfl

/-! ### putWord -/

@[simp] theorem State.putWord_pending (s : State) (w : BitVec 16) (x : BitVec 64) : (s.putWord w x).pending = s.pending := rfl
@[simp] theorem State.putWord_fns (s : State) (w : BitVec 16) (x : BitVec 64) : (s.putWord w x).fns = s.fns := rfl
@[simp] theorem State.putWord_tiles (s : State) (w : BitVec 16) (x : BitVec 64) : (s.putWord w x).tiles = s.tiles := rfl
@[simp] theorem State.putWord_models (s : State) (w : BitVec 16) (x : BitVec 64) : (s.putWord w x).models = s.models := rfl
@[simp] theorem State.putWord_seqs (s : State) (w : BitVec 16) (x : BitVec 64) : (s.putWord w x).seqs = s.seqs := rfl
@[simp] theorem State.putWord_reuse (s : State) (w : BitVec 16) (x : BitVec 64) : (s.putWord w x).reuse = s.reuse := rfl
@[simp] theorem State.putWord_cohorts (s : State) (w : BitVec 16) (x : BitVec 64) : (s.putWord w x).cohorts = s.cohorts := rfl
@[simp] theorem State.putWord_stepCount (s : State) (w : BitVec 16) (x : BitVec 64) : (s.putWord w x).stepCount = s.stepCount := rfl
@[simp] theorem State.putWord_cands (s : State) (w : BitVec 16) (x : BitVec 64) : (s.putWord w x).cands = s.cands := rfl
@[simp] theorem State.putWord_sampled (s : State) (w : BitVec 16) (x : BitVec 64) : (s.putWord w x).sampled = s.sampled := rfl
@[simp] theorem State.putWord_sync (s : State) (w : BitVec 16) (x : BitVec 64) : (s.putWord w x).sync = { s.sync with words := sput 0 s.sync.words w.toNat x } := rfl
@[simp] theorem State.putWord_ports (s : State) (w : BitVec 16) (x : BitVec 64) : (s.putWord w x).ports = s.ports := rfl
@[simp] theorem State.putWord_slices (s : State) (w : BitVec 16) (x : BitVec 64) : (s.putWord w x).slices = s.slices := rfl
@[simp] theorem State.putWord_transit (s : State) (w : BitVec 16) (x : BitVec 64) : (s.putWord w x).transit = s.transit := rfl
@[simp] theorem State.putWord_inbound (s : State) (w : BitVec 16) (x : BitVec 64) : (s.putWord w x).inbound = s.inbound := rfl
@[simp] theorem State.putWord_heldWide (s : State) (w : BitVec 16) (x : BitVec 64) : (s.putWord w x).heldWide = s.heldWide := rfl
@[simp] theorem State.putWord_inbox (s : State) (w : BitVec 16) (x : BitVec 64) : (s.putWord w x).inbox = s.inbox := rfl
@[simp] theorem State.putWord_spans (s : State) (w : BitVec 16) (x : BitVec 64) : (s.putWord w x).spans = s.spans := rfl
@[simp] theorem State.putWord_left (s : State) (w : BitVec 16) (x : BitVec 64) : (s.putWord w x).left = s.left := rfl
@[simp] theorem State.putWord_msgId (s : State) (w : BitVec 16) (x : BitVec 64) : (s.putWord w x).msgId = s.msgId := rfl
@[simp] theorem State.putWord_um (s : State) (w : BitVec 16) (x : BitVec 64) : (s.putWord w x).um = s.um := rfl
@[simp] theorem State.putWord_spdm (s : State) (w : BitVec 16) (x : BitVec 64) : (s.putWord w x).spdm = s.spdm := rfl
@[simp] theorem State.putWord_flash (s : State) (w : BitVec 16) (x : BitVec 64) : (s.putWord w x).flash = s.flash := rfl
@[simp] theorem State.putWord_scrubHours (s : State) (w : BitVec 16) (x : BitVec 64) : (s.putWord w x).scrubHours = s.scrubHours := rfl
@[simp] theorem State.putWord_rateLimit (s : State) (w : BitVec 16) (x : BitVec 64) : (s.putWord w x).rateLimit = s.rateLimit := rfl
@[simp] theorem State.putWord_swapStat (s : State) (w : BitVec 16) (x : BitVec 64) : (s.putWord w x).swapStat = s.swapStat := rfl
@[simp] theorem State.putWord_relayStat (s : State) (w : BitVec 16) (x : BitVec 64) : (s.putWord w x).relayStat = s.relayStat := rfl
@[simp] theorem State.putWord_swapQueue (s : State) (w : BitVec 16) (x : BitVec 64) : (s.putWord w x).swapQueue = s.swapQueue := rfl
@[simp] theorem State.putWord_specStat (s : State) (w : BitVec 16) (x : BitVec 64) : (s.putWord w x).specStat = s.specStat := rfl
@[simp] theorem State.putWord_specSource (s : State) (w : BitVec 16) (x : BitVec 64) : (s.putWord w x).specSource = s.specSource := rfl
@[simp] theorem State.putWord_boot (s : State) (w : BitVec 16) (x : BitVec 64) : (s.putWord w x).boot = s.boot := rfl
@[simp] theorem State.putWord_pins (s : State) (w : BitVec 16) (x : BitVec 64) : (s.putWord w x).pins = s.pins := rfl
@[simp] theorem State.putWord_power (s : State) (w : BitVec 16) (x : BitVec 64) : (s.putWord w x).power = s.power := rfl
@[simp] theorem State.putWord_side (s : State) (w : BitVec 16) (x : BitVec 64) : (s.putWord w x).side = s.side := rfl
@[simp] theorem State.putWord_out (s : State) (w : BitVec 16) (x : BitVec 64) : (s.putWord w x).out = s.out := rfl
@[simp] theorem State.putWord_held (s : State) (w : BitVec 16) (x : BitVec 64) : (s.putWord w x).held = s.held := rfl
@[simp] theorem State.putWord_fresh (s : State) (w : BitVec 16) (x : BitVec 64) : (s.putWord w x).fresh = s.fresh := rfl

/-! ### scrPut -/

@[simp] theorem State.scrPut_pending (s : State) (t : TileIx) (a : Nat) (b : Bytes) : (s.scrPut t a b).pending = s.pending := rfl
@[simp] theorem State.scrPut_fns (s : State) (t : TileIx) (a : Nat) (b : Bytes) : (s.scrPut t a b).fns = s.fns := rfl
@[simp] theorem State.scrPut_tiles (s : State) (t : TileIx) (a : Nat) (b : Bytes) : (s.scrPut t a b).tiles = vmod s.tiles t fun x => { x with scratch := putBytes x.scratch a b } := rfl
@[simp] theorem State.scrPut_models (s : State) (t : TileIx) (a : Nat) (b : Bytes) : (s.scrPut t a b).models = s.models := rfl
@[simp] theorem State.scrPut_seqs (s : State) (t : TileIx) (a : Nat) (b : Bytes) : (s.scrPut t a b).seqs = s.seqs := rfl
@[simp] theorem State.scrPut_reuse (s : State) (t : TileIx) (a : Nat) (b : Bytes) : (s.scrPut t a b).reuse = s.reuse := rfl
@[simp] theorem State.scrPut_cohorts (s : State) (t : TileIx) (a : Nat) (b : Bytes) : (s.scrPut t a b).cohorts = s.cohorts := rfl
@[simp] theorem State.scrPut_stepCount (s : State) (t : TileIx) (a : Nat) (b : Bytes) : (s.scrPut t a b).stepCount = s.stepCount := rfl
@[simp] theorem State.scrPut_cands (s : State) (t : TileIx) (a : Nat) (b : Bytes) : (s.scrPut t a b).cands = s.cands := rfl
@[simp] theorem State.scrPut_sampled (s : State) (t : TileIx) (a : Nat) (b : Bytes) : (s.scrPut t a b).sampled = s.sampled := rfl
@[simp] theorem State.scrPut_sync (s : State) (t : TileIx) (a : Nat) (b : Bytes) : (s.scrPut t a b).sync = s.sync := rfl
@[simp] theorem State.scrPut_ports (s : State) (t : TileIx) (a : Nat) (b : Bytes) : (s.scrPut t a b).ports = s.ports := rfl
@[simp] theorem State.scrPut_slices (s : State) (t : TileIx) (a : Nat) (b : Bytes) : (s.scrPut t a b).slices = s.slices := rfl
@[simp] theorem State.scrPut_transit (s : State) (t : TileIx) (a : Nat) (b : Bytes) : (s.scrPut t a b).transit = s.transit := rfl
@[simp] theorem State.scrPut_inbound (s : State) (t : TileIx) (a : Nat) (b : Bytes) : (s.scrPut t a b).inbound = s.inbound := rfl
@[simp] theorem State.scrPut_heldWide (s : State) (t : TileIx) (a : Nat) (b : Bytes) : (s.scrPut t a b).heldWide = s.heldWide := rfl
@[simp] theorem State.scrPut_inbox (s : State) (t : TileIx) (a : Nat) (b : Bytes) : (s.scrPut t a b).inbox = s.inbox := rfl
@[simp] theorem State.scrPut_spans (s : State) (t : TileIx) (a : Nat) (b : Bytes) : (s.scrPut t a b).spans = s.spans := rfl
@[simp] theorem State.scrPut_left (s : State) (t : TileIx) (a : Nat) (b : Bytes) : (s.scrPut t a b).left = s.left := rfl
@[simp] theorem State.scrPut_msgId (s : State) (t : TileIx) (a : Nat) (b : Bytes) : (s.scrPut t a b).msgId = s.msgId := rfl
@[simp] theorem State.scrPut_um (s : State) (t : TileIx) (a : Nat) (b : Bytes) : (s.scrPut t a b).um = s.um := rfl
@[simp] theorem State.scrPut_spdm (s : State) (t : TileIx) (a : Nat) (b : Bytes) : (s.scrPut t a b).spdm = s.spdm := rfl
@[simp] theorem State.scrPut_flash (s : State) (t : TileIx) (a : Nat) (b : Bytes) : (s.scrPut t a b).flash = s.flash := rfl
@[simp] theorem State.scrPut_scrubHours (s : State) (t : TileIx) (a : Nat) (b : Bytes) : (s.scrPut t a b).scrubHours = s.scrubHours := rfl
@[simp] theorem State.scrPut_rateLimit (s : State) (t : TileIx) (a : Nat) (b : Bytes) : (s.scrPut t a b).rateLimit = s.rateLimit := rfl
@[simp] theorem State.scrPut_swapStat (s : State) (t : TileIx) (a : Nat) (b : Bytes) : (s.scrPut t a b).swapStat = s.swapStat := rfl
@[simp] theorem State.scrPut_relayStat (s : State) (t : TileIx) (a : Nat) (b : Bytes) : (s.scrPut t a b).relayStat = s.relayStat := rfl
@[simp] theorem State.scrPut_swapQueue (s : State) (t : TileIx) (a : Nat) (b : Bytes) : (s.scrPut t a b).swapQueue = s.swapQueue := rfl
@[simp] theorem State.scrPut_specStat (s : State) (t : TileIx) (a : Nat) (b : Bytes) : (s.scrPut t a b).specStat = s.specStat := rfl
@[simp] theorem State.scrPut_specSource (s : State) (t : TileIx) (a : Nat) (b : Bytes) : (s.scrPut t a b).specSource = s.specSource := rfl
@[simp] theorem State.scrPut_boot (s : State) (t : TileIx) (a : Nat) (b : Bytes) : (s.scrPut t a b).boot = s.boot := rfl
@[simp] theorem State.scrPut_pins (s : State) (t : TileIx) (a : Nat) (b : Bytes) : (s.scrPut t a b).pins = s.pins := rfl
@[simp] theorem State.scrPut_power (s : State) (t : TileIx) (a : Nat) (b : Bytes) : (s.scrPut t a b).power = s.power := rfl
@[simp] theorem State.scrPut_side (s : State) (t : TileIx) (a : Nat) (b : Bytes) : (s.scrPut t a b).side = s.side := rfl
@[simp] theorem State.scrPut_out (s : State) (t : TileIx) (a : Nat) (b : Bytes) : (s.scrPut t a b).out = s.out := rfl
@[simp] theorem State.scrPut_held (s : State) (t : TileIx) (a : Nat) (b : Bytes) : (s.scrPut t a b).held = s.held := rfl
@[simp] theorem State.scrPut_fresh (s : State) (t : TileIx) (a : Nat) (b : Bytes) : (s.scrPut t a b).fresh = s.fresh := rfl

/-! ### Elements -/

@[simp] theorem vmod_get_val {α : Type} {n : Nat} (v : Vector α n) (i : Fin n) (f : α → α) : (vmod v i f)[i.val] = f v[i.val] := by
  simp [vmod]

theorem vmod_get_self {α : Type} {n : Nat} (v : Vector α n) (i : Fin n) (f : α → α) : (vmod v i f)[i] = f v[i] := vmod_get_val v i f

theorem vmod_get_ne {α : Type} {n : Nat} (v : Vector α n) (i j : Fin n) (f : α → α) (h : j ≠ i) : (vmod v i f)[j] = v[j] := by
  have : i.val ≠ j.val := fun e => h (Fin.ext e.symm)
  simp [vmod, this]

theorem vmod_get {α : Type} {n : Nat} (v : Vector α n) (i j : Fin n) (f : α → α) :
    (vmod v i f)[j] = if j = i then f v[i] else v[j] := by
  by_cases h : j = i
  · subst h; rw [vmod_get_self, if_pos rfl]
  · rw [vmod_get_ne v i j f h, if_neg h]

/-- The first match of an update that keeps the property, when the property picks the same elements. -/
theorem find_updFirst {α : Type} (p : α → Bool) (f : α → α) (hf : ∀ x, p x = true → p (f x) = true) :
    ∀ l : List α, (updFirst p f l).find? p = (l.find? p).map f
  | [] => rfl
  | x :: r => by
    unfold updFirst
    by_cases h : p x = true
    · simp [h, hf x h]
    · simp [h, find_updFirst p f hf r]

/-- A match for another property that the updated elements do not have. -/
theorem find_updFirst_ne {α : Type} (p q : α → Bool) (f : α → α) (h1 : ∀ x, p x = true → q x = false)
    (h2 : ∀ x, p x = true → q (f x) = false) : ∀ l : List α, (updFirst p f l).find? q = l.find? q
  | [] => rfl
  | x :: r => by
    unfold updFirst
    by_cases h : p x = true
    · simp [h, h1 x h, h2 x h]
    · simp only [h]
      by_cases g : q x = true
      · simp [g]
      · simp [g, find_updFirst_ne p q f h1 h2 r]

/-- A sequence read after an update that keeps its handle. -/
theorem State.seq_modSeq (s : State) (h : Key) (g : Seq → Seq) (hg : ∀ q, q.handle = h → (g q).handle = h) :
    (s.modSeq h g).seq? h = (s.seq? h).map g :=
  find_updFirst _ g (fun q hq => decide_eq_true (hg q (of_decide_eq_true hq))) s.seqs

/-- Another sequence is as it was. -/
theorem State.seq_modSeq_ne (s : State) (h h' : Key) (g : Seq → Seq) (hg : ∀ q, q.handle = h → (g q).handle = h) (hn : h' ≠ h) :
    (s.modSeq h g).seq? h' = s.seq? h' := by
  refine find_updFirst_ne _ _ g ?_ ?_ s.seqs
  · intro q hq
    have := of_decide_eq_true hq
    exact decide_eq_false fun e => hn (e.symm.trans this)
  · intro q hq
    have := hg q (of_decide_eq_true hq)
    exact decide_eq_false fun e => hn (e.symm.trans this)

/-- A cohort read after an update that keeps its model and number. -/
theorem State.cohort_modCohort (s : State) (m : SlotIx) (c : CohIx) (g : Cohort → Cohort)
    (hg : ∀ k, k.model = m → k.index = c → (g k).model = m ∧ (g k).index = c) :
    (s.modCohort m c g).cohort? m c = (s.cohort? m c).map g := by
  refine find_updFirst _ g ?_ s.cohorts
  intro k hk
  simp only [Bool.and_eq_true, decide_eq_true_eq] at hk ⊢
  exact hg k hk.1 hk.2

/-- The word just written, and every other. -/
theorem State.word_putWord (s : State) (w w' : BitVec 16) (x : BitVec 64) :
    (s.putWord w x).word w' = if w' = w then x else s.word w' := by
  simp only [State.word, State.putWord_sync, sget_sput, BitVec.toNat_inj]

@[simp] theorem done_next (s t : State) : done s t = .next { t with pending := s.pending } := rfl

end Sys2Proof.Machine
end

