-- ==== Sys2Proof/Laws/Vec.lean ====
section
/-!
SUPPORT. Sys2Proof/Laws/Vec.lean: lanes, predicates and flags of the vector engine after they are written.
-/
set_option Elab.async false

namespace Sys2Proof.Machine

theorem laneKey_inj {c c' : BitVec 8} {l l' : Nat} (h : l < 1024) (h' : l' < 1024) :
    laneKey c l = laneKey c' l' ↔ c = c' ∧ l = l' := by
  unfold laneKey
  constructor
  · intro e
    have : c.toNat = c'.toNat := by omega
    exact ⟨BitVec.eq_of_toNat_eq this, by omega⟩
  · rintro ⟨rfl, rfl⟩; rfl

/-- A lane read after a lane is written. -/
theorem Vec.lane_setLane (v : Vec) (c c' : BitVec 8) (l l' : Nat) (x : BitVec 32) (h : l < 1024) (h' : l' < 1024) :
    (v.setLane c l x).lane c' l' = if c' = c ∧ l' = l then x else v.lane c' l' := by
  have hk := laneKey_inj (c := c') (c' := c) h' h
  unfold Vec.setLane Vec.lane
  by_cases hc : c < 0x38 <;> by_cases hc' : c' < 0x38 <;> simp only [hc, hc', if_true, if_false, sget_sput, hk]
  · by_cases e : c' = c ∧ l' = l
    · rw [e.1] at hc'; exact absurd hc hc'
    · simp [e]
  · by_cases e : c' = c ∧ l' = l
    · rw [e.1] at hc'; exact absurd hc' hc
    · simp [e]
  · by_cases e : c' = c ∧ l' = l <;> simp [e]

/-- What writing a lane leaves. -/
theorem Vec.setLane_frame (v : Vec) (c : BitVec 8) (l : Nat) (x : BitVec 32) :
    v.setLane c l x = { v with v := (v.setLane c l x).v, hi := (v.setLane c l x).hi } := by
  unfold Vec.setLane; split <;> rfl

@[simp] theorem Vec.setLane_p (v : Vec) (c : BitVec 8) (l : Nat) (x : BitVec 32) : (v.setLane c l x).p = v.p := by
  unfold Vec.setLane; split <;> rfl
@[simp] theorem Vec.setLane_vl (v : Vec) (c : BitVec 8) (l : Nat) (x : BitVec 32) : (v.setLane c l x).vl = v.vl := by
  unfold Vec.setLane; split <;> rfl
@[simp] theorem Vec.setLane_stack (v : Vec) (c : BitVec 8) (l : Nat) (x : BitVec 32) : (v.setLane c l x).stack = v.stack := by
  unfold Vec.setLane; split <;> rfl
@[simp] theorem Vec.setLane_flags (v : Vec) (c : BitVec 8) (l : Nat) (x : BitVec 32) : (v.setLane c l x).flags = v.flags := by
  unfold Vec.setLane; split <;> rfl
@[simp] theorem Vec.setLane_c (v : Vec) (c : BitVec 8) (l : Nat) (x : BitVec 32) : (v.setLane c l x).c = v.c := by
  unfold Vec.setLane; split <;> rfl
@[simp] theorem Vec.setLane_opc (v : Vec) (c : BitVec 8) (l : Nat) (x : BitVec 32) : (v.setLane c l x).opc = v.opc := by
  unfold Vec.setLane; split <;> rfl
@[simp] theorem Vec.setLane_first (v : Vec) (c : BitVec 8) (l : Nat) (x : BitVec 32) : (v.setLane c l x).first = v.first := by
  unfold Vec.setLane; split <;> rfl
@[simp] theorem Vec.setLane_ctx (v : Vec) (c : BitVec 8) (l : Nat) (x : BitVec 32) : (v.setLane c l x).ctx = v.ctx := by
  unfold Vec.setLane; split <;> rfl
@[simp] theorem Vec.setLane_hiMark (v : Vec) (c : BitVec 8) (l : Nat) (x : BitVec 32) : (v.setLane c l x).hiMark = v.hiMark := by
  unfold Vec.setLane; split <;> rfl
@[simp] theorem Vec.setLane_tMark (v : Vec) (c : BitVec 8) (l : Nat) (x : BitVec 32) : (v.setLane c l x).tMark = v.tMark := by
  unfold Vec.setLane; split <;> rfl

/-- The lanes of one register written in turn. -/
def Vec.setLanes (v : Vec) (c : BitVec 8) (l : List (Nat × BitVec 32 × BitVec 5)) : Vec :=
  l.foldl (fun a e => a.setLane c e.1 e.2.1) v

theorem Vec.setLanes_frame (v : Vec) (c : BitVec 8) (l : List (Nat × BitVec 32 × BitVec 5)) :
    v.setLanes c l = { v with v := (v.setLanes c l).v, hi := (v.setLanes c l).hi } := by
  induction l generalizing v with
  | nil => rfl
  | cons e r ih =>
    simp only [Vec.setLanes, List.foldl_cons] at ih ⊢
    rw [ih]
    simp

/-- A lane read after a list of lanes of one register is written, each lane at most once. -/
theorem Vec.lane_setLanes (v : Vec) (c c' : BitVec 8) (l' : Nat) (h' : l' < 1024) :
    ∀ (l : List (Nat × BitVec 32 × BitVec 5)), (∀ e ∈ l, e.1 < 1024) → (l.map (·.1)).Nodup →
    (v.setLanes c l).lane c' l' =
      if c' = c then (match l.find? (fun e => decide (e.1 = l')) with | some e => e.2.1 | none => v.lane c' l')
      else v.lane c' l' := by
  intro l
  induction l generalizing v with
  | nil => intros; simp [Vec.setLanes]
  | cons e r ih =>
    intro hl hn
    simp only [List.map_cons, List.nodup_cons] at hn
    have := ih (v.setLane c e.1 e.2.1) (fun x hx => hl x (List.mem_cons_of_mem _ hx)) hn.2
    simp only [Vec.setLanes, List.foldl_cons] at this ⊢
    rw [this, Vec.lane_setLane _ _ _ _ _ _ (hl e (List.mem_cons_self ..)) h']
    by_cases hc : c' = c
    · by_cases he : e.1 = l'
      · subst he
        have hf : r.find? (fun x => decide (x.1 = e.1)) = none := by
          rw [List.find?_eq_none]; intro x hx h
          exact hn.1 (by simp only [decide_eq_true_eq] at h; rw [← h]; exact List.mem_map_of_mem hx)
        simp [hc, hf]
      · simp [hc, he, Ne.symm he]
    · simp [hc]

/-- What raising flags leaves. -/
theorem Vec.raise_frame (v : Vec) (l : List (Nat × BitVec 5)) :
    v.raise l = { v with flags := (v.raise l).flags, first := (v.raise l).first } := by
  unfold Vec.raise; dsimp only; split <;> rfl

theorem sget_foldl_or (l : List (Nat × BitVec 5)) (m : Sparse (BitVec 5)) (k : Nat) :
    sget 0 (l.foldl (fun a e => sput 0 a e.1 (sget 0 a e.1 ||| e.2)) m) k =
      (l.filter fun e => decide (e.1 = k)).foldl (fun a e => a ||| e.2) (sget 0 m k) := by
  induction l generalizing m with
  | nil => rfl
  | cons e r ih =>
    simp only [List.foldl_cons, ih, sget_sput]
    by_cases h : k = e.1
    · subst h; simp
    · simp [h, Ne.symm h]

/-! ## Lists of lanes -/

theorem active_lt (v : Vec) (f : VF) : ∀ l ∈ v.active f, l < 1024 := by
  intro l hl; simp [Vec.active] at hl; have := v.vl.isLt; omega

theorem active_nodup (v : Vec) (f : VF) : (v.active f).Nodup := List.nodup_range.filter _

theorem find_map (ls : List Nat) (g : Nat → BitVec 32 × BitVec 5) (l : Nat) :
   (ls.map (fun l => (l, g l))).find? (fun e => decide (e.1 = l)) = if l ∈ ls then some (l, g l) else none := by
  induction ls with
  | nil => rfl
  | cons x r ih => 
    by_cases h : x = l 
    · subst h; simp
    · have : ¬ l = x := fun e => h e.symm
      simp only [List.map_cons, List.find?_cons, h, decide_false, ih, List.mem_cons, this, false_or]

theorem filter_nodup (ls : List Nat) (hn : ls.Nodup) (l : Nat) : ls.filter (fun x => decide (x = l)) = if l ∈ ls then [l] else [] := by
  induction ls with
  | nil => rfl
  | cons x r ih =>
    simp only [List.nodup_cons] at hn
    by_cases h : x = l
    · subst h; simp [ih hn.2, hn.1]
    · have : ¬ l = x := fun e => h e.symm
      simp only [List.filter_cons, h, decide_false, ih hn.2, List.mem_cons, this, false_or]; rfl

theorem raise_flags_eq (v : Vec) (l : List (Nat × BitVec 5)) :
    (v.raise l).flags = (l.filter fun e => decide (e.2 ≠ 0)).foldl (fun a e => sput 0 a e.1 (sget 0 a e.1 ||| e.2)) v.flags := by
  unfold Vec.raise
  generalize hh : (l.filter fun e => decide (e.2 ≠ 0)) = hit
  cases hit <;> rfl

theorem raise_flags (v : Vec) (ls : List Nat) (hn : ls.Nodup) (g : Nat → BitVec 5) (l : Nat) :
   sget 0 (v.raise (ls.map fun l => (l, g l))).flags l = if l ∈ ls then sget 0 v.flags l ||| g l else sget 0 v.flags l := by
  rw [raise_flags_eq, sget_foldl_or, List.filter_filter, List.filter_map]
  have h2 : (ls.filter ((fun a : Nat × BitVec 5 => decide (a.1 = l) && decide (a.2 ≠ 0)) ∘ fun l => (l, g l))) =
      if l ∈ ls ∧ g l ≠ 0 then [l] else [] := by
    have : ((fun a : Nat × BitVec 5 => decide (a.1 = l) && decide (a.2 ≠ 0)) ∘ fun l => (l, g l)) =
        fun x => decide (g l ≠ 0) && decide (x = l) := by
      funext x; by_cases hx : x = l
      · subst hx; simp
      · simp [hx]
    rw [this, ← List.filter_filter, filter_nodup _ hn]
    by_cases hm : l ∈ ls <;> by_cases hg : g l = 0 <;> simp_all
  rw [h2]
  by_cases hm : l ∈ ls <;> by_cases hg : g l = 0
  · simp [hm, hg]
  · rw [if_pos ⟨hm, hg⟩, if_pos hm]; rfl
  · simp [hm]
  · simp [hm]


/-! ## The shapes of instruction -/

/-- What writing lanes does: each listed lane takes its value, flags rise, and the rest of the engine is as it was. -/
theorem laneWrite_of (v : Vec) (dst : BitVec 8) (ls : List Nat) (g : Nat → BitVec 32 × BitVec 5) (hlt : ∀ l ∈ ls, l < 1024)
    (hnd : ls.Nodup) :
    LaneWrite v ((v.setLanes dst (ls.map fun l => (l, g l))).raise ((ls.map fun l => (l, g l)).map fun e => (e.1, e.2.2)))
      dst ls (fun l => (g l).1) (fun l => (g l).2) := by
  have he : (ls.map fun l => (l, g l)).map (fun e => (e.1, e.2.2)) = ls.map fun l => (l, (g l).2) := by simp [Function.comp_def]
  rw [he]
  refine ⟨?_, ?_, ?_⟩
  · intro c l hl
    rw [Vec.raise_frame]
    show Vec.lane (Vec.setLanes _ _ _) c l = _
    rw [Vec.lane_setLanes _ _ _ _ hl _ (by simpa using hlt) (by simpa [Function.comp_def] using hnd)]
    simp only [find_map]
    by_cases hc : c = dst <;> by_cases hm : l ∈ ls <;> simp [hc, hm]
  · intro l
    rw [raise_flags _ _ hnd]
    rw [Vec.setLanes_frame]
  · rw [Vec.raise_frame, Vec.setLanes_frame]
    simp

/-- A command that writes the lanes of a list and counts one instruction. -/
theorem lanesRun_writeLanes (i : Instr) (s : State) (t : TileIx) (dst : BitVec 8) (ls : List Nat)
    (g : Nat → BitVec 32 × BitVec 5) (hlt : ∀ l ∈ ls, l < 1024) (hnd : ls.Nodup)
    (h : exec i s = done s ((s.writeLanes t dst (ls.map fun l => (l, g l))).vecNext t)) : LanesRun i s t dst ls g := by
  refine ⟨_, _, h, ?_, laneWrite_of _ dst ls g hlt hnd⟩
  unfold VecStep State.writeLanes State.vecNext State.modVec State.modTile vmod Vec.setLanes
  simp

/-- A command of State.laneOp. -/
theorem lanesRun_laneOp (i : Instr) (s : State) (t : TileIx) (f : VF) (g : Nat → BitVec 32 × BitVec 5)
    (h : exec i s = done s (s.laneOp t f g)) :
    LanesRun i s t f.dst ((s.tiles[t].vec).active f) g :=
  lanesRun_writeLanes i s t f.dst _ g (active_lt _ f) (active_nodup _ f) h

theorem getElem_set_fin {α : Type} {n : Nat} (v : Vector α n) (i j : Fin n) (x : α) :
    (v.set i x)[j] = if j = i then x else v[j] := by
  by_cases h : j = i
  · subst h; simp
  · have : i.val ≠ j.val := fun e => h (Fin.ext e.symm)
    simp [h, this]

theorem setBit_getLsbD {n : Nat} (x : BitVec n) (i j : Nat) (hi : i < n) :
    (setBit x i).getLsbD j = (decide (j = i) || x.getLsbD j) := by
  unfold setBit
  rw [BitVec.getLsbD_or, BitVec.getLsbD_ofNat, Nat.testBit_two_pow]
  by_cases h : j = i
  · subst h; simp [hi]
  · simp [h, Ne.symm h]

theorem clrBit_getLsbD {n : Nat} (x : BitVec n) (i j : Nat) (hi : i < n) :
    (clrBit x i).getLsbD j = (!decide (j = i) && x.getLsbD j) := by
  unfold clrBit
  rw [BitVec.getLsbD_and, BitVec.getLsbD_not, BitVec.getLsbD_ofNat, Nat.testBit_two_pow]
  by_cases h : j = i
  · subst h; simp [hi]
  · by_cases hj : j < n
    · simp [h, Ne.symm h, hj]
    · have : x.getLsbD j = false := BitVec.getLsbD_of_ge x j (by omega)
      simp [this]

/-- A predicate bit read after one is written. -/
theorem Vec.predBit_setPredBit (v : Vec) (c c' : BitVec 8) (l l' : Nat) (b : Bool) (hc : codePredDst c = true)
    (h : l < 1024) :
    (v.setPredBit c l b).predBit c' l' = if c' = c ∧ l' = l then b else v.predBit c' l' := by
  have hc1 : 0x51 ≤ c ∧ c ≤ 0x57 := by simpa [codePredDst] using hc
  have hn : c.toNat - 0x50 < 8 ∧ 81 ≤ c.toNat := by
    have h1 := BitVec.le_def.mp hc1.1; have h2 := BitVec.le_def.mp hc1.2
    simp at h1 h2; omega
  have hfin : (Fin.ofNat 8 (c.toNat - 0x50)).val = c.toNat - 0x50 := Nat.mod_eq_of_lt hn.1
  unfold Vec.predBit Vec.setPredBit
  by_cases h0 : c' = 0x50
  · have : ¬(c' = c) := by rintro rfl; subst h0; simp at hn
    subst h0
    simp only [if_true]
    rw [if_neg fun e => this e.1]
  · by_cases hp : codePred c' = true
    · simp only [h0, hp, if_true, if_false, vmod]
      have hp' : 0x50 ≤ c' ∧ c' ≤ 0x57 := by simpa [codePred] using hp
      have hn' : c'.toNat - 0x50 < 8 ∧ 80 ≤ c'.toNat := by
        have h1 := BitVec.le_def.mp hp'.1; have h2 := BitVec.le_def.mp hp'.2
        simp at h1 h2; omega
      rw [Vector.getElem?_eq_getElem hn'.1, Vector.getElem?_eq_getElem hn'.1]
      simp only [Option.getD_some, Vector.getElem_set, hfin]
      by_cases e : c' = c
      · subst e
        simp only [if_true, true_and, Fin.getElem_fin, hfin]
        by_cases el : l' = l
        · subst el
          cases b
          · rw [if_neg (by simp), clrBit_getLsbD _ _ _ h]; simp
          · rw [if_pos rfl, setBit_getLsbD _ _ _ h]; simp
        · cases b
          · rw [if_neg (by simp), clrBit_getLsbD _ _ _ h]; simp [el]
          · rw [if_pos rfl, setBit_getLsbD _ _ _ h]; simp [el]
      · have : ¬(c.toNat - 80 = c'.toNat - 80) := fun e' => e (BitVec.eq_of_toNat_eq (by omega))
        simp [this, e]
    · have : ¬(c' = c) := by
        rintro rfl
        exact hp (by
          have h1 := BitVec.le_def.mp hc1.1
          simp [codePred, BitVec.le_def]; simp at h1; omega)
      simp [hp, this]

/-- A command of State.predOp. -/
theorem predRun_predOp (i : Instr) (s : State) (t : TileIx) (f : VF) (g : Nat → Bool)
    (hd : codePredDst f.dst = true) (h : exec i s = done s (s.predOp t f g)) :
    PredRun i s t f.dst ((s.tiles[t].vec).active f) g := by
  have hlt := active_lt s.tiles[t].vec f
  refine ⟨_, (((s.tiles[t].vec).active f).map fun l => (l, g l)).foldl (fun a e => a.setPredBit f.dst e.1 e.2) s.tiles[t].vec,
    h, ?_, ?_⟩
  · unfold VecStep State.predOp State.vecNext State.modVec State.modTile vmod
    simp
  · revert hlt
    generalize (s.tiles[t].vec).active f = ls
    generalize s.tiles[t].vec = v
    induction ls generalizing v with
    | nil => intro _; simp
    | cons x r ih =>
      intro hlt
      simp only [List.map_cons, List.foldl_cons]
      obtain ⟨h1, h2⟩ := ih (v.setPredBit f.dst x (g x)) (fun l hl => hlt l (List.mem_cons_of_mem _ hl))
      refine ⟨fun c l hl => ?_, ?_⟩
      · rw [h1 c l hl, Vec.predBit_setPredBit _ _ _ _ _ _ hd (hlt x (List.mem_cons_self ..))]
        by_cases hc : c = f.dst <;> by_cases hx : l = x <;> by_cases hr : l ∈ r <;> simp [hc, hx, hr]
        all_goals simp_all
      · rw [h2]; rfl

/-! ## Predicates as masks, and instructions that write one engine -/

theorem setBits_getLsbD {n : Nat} (ls : List Nat) (h : ∀ l ∈ ls, l < n) (m : BitVec n) (j : Nat) :
    (ls.foldl (fun m l => setBit m l) m).getLsbD j = (decide (j ∈ ls) || m.getLsbD j) := by
  induction ls generalizing m with
  | nil => simp
  | cons x r ih =>
    simp only [List.foldl_cons]
    rw [ih (fun l hl => h l (List.mem_cons_of_mem _ hl)), setBit_getLsbD _ _ _ (h x (List.mem_cons_self ..))]
    by_cases h1 : j = x <;> by_cases h2 : j ∈ r <;> simp [h1, h2]

theorem predMask_bit (v : Vec) (c : BitVec 8) (l : Nat) :
    (v.predMask c).getLsbD l = (decide (l < v.vl.val) && v.predBit c l) := by
  unfold Vec.predMask
  rw [setBits_getLsbD _ (by intro l hl; simp at hl; have := v.vl.isLt; omega)]
  by_cases h1 : l < v.vl.val <;> by_cases h2 : v.predBit c l <;> simp [h1, h2]

theorem popcount_predMask (v : Vec) (c : BitVec 8) :
    popcount (v.predMask c) = ((List.range v.vl.val).filter fun l => v.predBit c l).length := by
  unfold popcount
  have hv := v.vl.isLt
  have h : 1024 = v.vl.val + (1024 - v.vl.val) := by omega
  have h2 : (List.range 1024).filter (fun i => (v.predMask c).getLsbD i) = (List.range v.vl.val).filter fun l => v.predBit c l := by
    rw [show List.range 1024 = List.range v.vl.val ++ (List.range (1024 - v.vl.val)).map (v.vl.val + ·) by rw [← List.range_add, ← h], List.filter_append]
    have e1 : (List.map (fun x => v.vl.val + x) (List.range (1024 - v.vl.val))).filter (fun i => (v.predMask c).getLsbD i) = [] := by
      rw [List.filter_eq_nil_iff]
      intro x hx
      rw [predMask_bit v c]
      simp only [List.mem_map, List.mem_range] at hx
      obtain ⟨y, hy, rfl⟩ := hx
      simp <;> omega
    rw [e1, List.append_nil]
    apply List.filter_congr
    intro x hx
    rw [predMask_bit v c]
    simp only [List.mem_range] at hx
    simp [hx]
  rw [h2]

theorem vecRun_self (i : Instr) (s : State) (t : TileIx) (h : exec i s = done s (s.vecNext t)) : VecRun i s t s.tiles[t].vec := by
  refine ⟨_, h, ?_⟩
  unfold VecStep State.vecNext State.modVec State.modTile vmod
  simp

theorem vecRun_mod (i : Instr) (s : State) (t : TileIx) (g : Vec → Vec) (h : exec i s = done s ((s.modVec t g).vecNext t)) : VecRun i s t (g s.tiles[t].vec) := by
  refine ⟨_, h, ?_⟩
  unfold VecStep State.vecNext State.modVec State.modTile vmod
  simp

end Sys2Proof.Machine
end

