-- ==== Sys2Proof/Tests/Slice0.lean ====
section
/-!
SUPPORT. Sys2Proof/Tests/Slice0.lean: ill-formed operands that the checks refuse, values taken from the examples of spec/, and a
state and operands that meet the hypotheses of each statement.
-/
set_option Elab.async false

namespace Sys2Proof.Tests
open Sys2Proof Sys2Proof.Machine

/-! ## Ill-formed operands (R30, R141 to R144) -/

/-- A vector instruction's fields, all unused but those named. -/
def vf (dst sa sb sc : BitVec 8) (pred : BitVec 3 := 0) (mod : BitVec 4 := 0) (imm : BitVec 16 := 0) : VF :=
  { dst := dst, sa := sa, sb := sb, sc := sc, pred := pred, pneg := false, mod := mod, imm := imm }

theorem test_wf_good : vfOk 0x10 (vf 1 2 3 0xFF) = true ∧ vfOk 0x01 (vf 1 0x80 0 0xFF) = true ∧ vfOk 0x02 (vf 0xFF 0x80 0 1) = true ∧
    vfOk 0x4B (vf 0xFF 0xFF 0xFF 0xFF) = true := by decide
theorem test_wf_dst : vfOk 0x10 (vf 0x80 2 3 0xFF) = false := by decide
theorem test_wf_source : vfOk 0x10 (vf 1 0x58 3 0xFF) = false := by decide
theorem test_wf_unused : vfOk 0x10 (vf 1 2 3 4) = false := by decide
theorem test_wf_mod : vfOk 0x10 (vf 1 2 3 0xFF 0 2) = false := by decide
theorem test_wf_fp_only : vfOk 0x18 (vf 1 2 3 0xFF 0 1) = false := by decide
theorem test_wf_base : vfOk 0x01 (vf 1 2 0 0xFF) = false := by decide
theorem test_wf_rows : vfOk 0x01 (vf 1 0x80 2 0xFF) = false := by decide
theorem test_wf_load_form : vfOk 0x01 (vf 1 0x80 0 0xFF 0 4) = false := by decide
theorem test_wf_store_form : vfOk 0x02 (vf 0xFF 0x80 0 1 0 5) = false := by decide
theorem test_wf_ploryn_rows : vfOk 0x02 (vf 0xFF 0x80 1 1 0 2) = false := by decide
theorem test_wf_p0 : vfOk 0x20 (vf 0x50 2 3 0xFF) = false := by decide
theorem test_wf_sel : vfOk 0x23 (vf 1 2 3 4) = false := by decide
theorem test_wf_bits : vfOk 0x38 (vf 1 2 3 0xFF 0 0 1) = false ∧ vfOk 0x38 (vf 1 2 3 0xFF 0 0 9) = false := by decide
theorem test_wf_shift : vfOk 0x41 (vf 1 2 0xFF 0xFF) = false ∧ vfOk 0x42 (vf 1 2 0xFF 0xFF 0 0 1024) = false := by decide
theorem test_wf_movc : vfOk 0x46 (vf 0x8F 2 0xFF 0xFF) = false := by decide
theorem test_wf_pred : vfOk 0x4C (vf 0xFF 2 0xFF 0xFF 1) = false := by decide
theorem test_wf_opcode : vfOk 0x03 (vf 0xFF 0xFF 0xFF 0xFF) = false := by decide
theorem test_wf_descriptor : Instr.wellFormed (.arrayMatmul ⟨0, 0, 0⟩ 0x0102) = false ∧ Instr.wellFormed (.loopStepEnd ⟨0, 0, 0⟩ 0x0507) = false ∧
    Instr.wellFormed (.arrayMatmul ⟨0, 0, 0⟩ 0x0101) = true := by decide +kernel
theorem test_wf_policy : Instr.wellFormed (.admitSeq ⟨0, 0, 0⟩ 0 0 0 [] [] [] true) = false ∧
    Instr.wellFormed (.setPolicy ⟨0, 0, 0⟩ 0 false [] [] []) = false := by decide
theorem test_wf_wrapped : Instr.wellFormed (.keyInstall ⟨0, 0, 0⟩ 0 false []) = false := by decide
theorem test_wf_list : Instr.wellFormed (.sliceDefine ⟨0, 0, 0⟩ 1 0 1 0 0 0 []) = false := by decide
theorem test_wf_entry : Instr.wellFormed (.takeEntry 0 0 false ⟨true, [], [], true, []⟩) = false := by decide
theorem test_refused_by_name : exec (.vAdd 0 (vf 1 2 3 4)) State.reset = .refused .illFormed := rfl

/-! ## Values of the spec's examples -/

/-- R54: the block of five BF16 values of the chapter's example. -/
theorem test_a16 : toA16 ([0x4040, 0xBF80, 0x3C00, 0x3B41, 0x3800] ++ List.replicate 11 0) =
    .block 128 ([24576, -8192, 64, 24, 0] ++ List.replicate 11 0) := by decide

/-- R59: the link group of the example, with 5.3 and −0.7: scale byte 0x81, codes 85 and −11. -/
theorem test_link_group : (narrowMx ([fp32 0x40A9999A, fp32 0xBF333333] ++ List.replicate 30 .zero)).scale = 0x81 ∧
    (narrowMx ([fp32 0x40A9999A, fp32 0xBF333333] ++ List.replicate 30 .zero)).codes.take 3 = [85, 256 - 11, 0] := by decide

/-- R60: the key group of the example, with 0.9: scale byte 0x77, E4M3 code 0x76. -/
theorem test_key_group : (narrowK8 ([fp32 0x3F666666] ++ List.replicate 31 .zero)).scale = 0x77 ∧
    (narrowK8 ([fp32 0x3F666666] ++ List.replicate 31 .zero)).codes.take 2 = [0x76, 0] := by decide

/-- R111: a four-bit channel of 0.3: parameter word 0x0000_007B, code 5 in every lane. -/
theorem test_qparam : alQparam 4 0x3E99999A 0x3E99999A = (0x7B, 0) := by decide
theorem test_qcode : (alQcode 4 0x3E99999A 0x7B).1 = 5 := by decide

/-- R60: the code S.1111.111 is NaN in a key group too. -/
theorem test_e4m3_nan : ofE4M3 0x7F = .nan false ∧ ofE4M3 0xFF = .nan false ∧ ofE4M3 0x7E ≠ .nan false := by decide

/-- R118: codes read from ascending bit positions, the value most significant bit first. -/
theorem test_ploryn_codes : deltaCode 1 = (2, 0b10) ∧ deltaCode 2 = (3, 0b001) ∧ deltaCode 6 = (7, 0b0000111) ∧ deltaCode 10 = (8, 0b00010111) ∧
    deltaCode 18 = (13, 0b0100100001111) ∧ runCode 1 = (11, 0b00000011111) ∧ runCode 2 = (11, 0b10000011111) := by decide

/-- R120, R121: a block whose fractions fit in full comes back as it was: deltas 1, 0, a run of two, 4, 13, and a run to the end. -/
theorem test_ploryn_block : let xs : List (BitVec 16) := [0x3F80, 0xC055, 0, 0, 0x3E12, 0xB9AB] ++ List.replicate 58 0
    (match plorynDecode (plorynEncode xs).1 with | .ok flat _ ys => !flat && decide (ys = xs) | _ => false) = true := by decide +kernel

/-- R159: key and value of layer 40 at page position 128 of RM-10T's frame, and their sidecars; R158: frames of the two formats. -/
theorem test_page_layout : let g : Geometry := { layersP := 96, groupsP := 1, headDim := 128, kvFmt := 0 }
    codeAddr g 40 0 0 128 = 0x284000 ∧ codeAddr g 40 0 1 128 = 0x28C000 ∧ sideAddr g 40 0 0 128 = 0x614200 ∧
    sideAddr g 40 0 1 128 = 0x614600 ∧ geoFrame g = 6488064 ∧ geoFrame { g with kvFmt := 1 } = 3473408 := by decide

/-- R333: the example's route from (1, 4) to (3, 4): candidate 2 by M8 through (0, 4), candidate 1 by M7 through (2, 4). -/
theorem test_route : candidate 0x14 0x34 1 = [0x04, 0x34] ∧ candidate 0x14 0x34 0 = [0x24, 0x34] ∧ portTo 0x14 0x04 = 8 ∧
    portTo 0x14 0x24 = 7 := by decide

/-! ## Small states -/

def sub : Sub := { fn := 0, set := 0, tag := 7 }

/-- The package at READY, the PF enabled and a bus master. -/
def ready : State := { State.reset with
  boot := { stage := .ready }
  pins := { pcieUp := true }
  fns := State.reset.fns.set 0 { present := true, enabled := true, bme := true, mse := true } }

def progs : Programs :=
  { lists := Vector.replicate 4 [], elem := Vector.replicate 4 [], rsSpan := Vector.replicate 4 8, rsResident := Vector.replicate 4 0
    opcSpan := Vector.replicate 4 1, progSpan := Vector.replicate 4 0, spSpan := Vector.replicate 4 65536
    syncSpan := Vector.replicate 5 2, windowSlots := 1 }

/-- A section of this package's part. -/
def sect (off : BitVec 64) (kind : BitVec 8) (tier : BitVec 2) (layer : BitVec 8) (body : SecBody) : Section :=
  { imageOff := off, length := 4096, kind := kind, tier := tier, mirror := false, ploryn := false, layer := layer, part := 255
    reserved := 0, body := body }

def geom : Geometry := { layersP := 1, groupsP := 1, headDim := 64, kvFmt := 0 }

def shape : Shape :=
  { decoderOnly := true, preNorm := true, rotary := true, layers := 1, hidden := 1024, kvGroups := 1, queryHeads := 1, headDim := 64
    routedExperts := 0, topK := 0, sharedExperts := 0, vocab := 256, formatsListed := true, kvK8 := true, kvK4 := true }

def image : Image :=
  { magic := 0x4F51494D, format := 1, sectionCount := 3, parts := 1, reservedAt := none, length := 20480, shape := shape
    sections := [sect 8192 1 0 0 (.programs progs), sect 12288 4 0 255 (.geometry geom), sect 16384 0 1 0 (.bytes [(0, 5)])], tensors := [] }

def load : Load :=
  { sliceId := 1, owner := 0, done := true, sub := sub, spBase := Vector.replicate 4 0, rsBase := Vector.replicate 4 0
    opcBase := Vector.replicate 4 0, progBase := Vector.replicate 4 0, syncBase := #v[0, 0x4000, 0x7000, 0xA000, 0xD000], prefixKey := 0
    monitors := [], window := [none], nextFill := 0, lateCount := 0, lateTime := none, costs := [], lost := false }

def slice : Slice :=
  { id := 1, fn := 0, members := [0], ring := [], relaySpan := 0, state := .active, digest := 0, agreed := [], sub := none
    memberLost := false }

def tenant : Tenant := { pfx := 0, classMap := 0, relayEn := false, loupeAllow := true }

def model : Model :=
  { state := .loaded, image := some image, load := some load
    pool := { frames := 4, maxSeq := 2, limit := Vector.replicate 16 4, free := [0, 1, 2, 3] } }

/-- A model LOADED in slot 0, in a slice of this package alone, for the PF as tenant. -/
def running : State := { ready with
  models := ready.models.set 0 model
  slices := [slice]
  um := { live := { tenants := (Vector.replicate 16 none).set 0 (some tenant) } } }

def seq0 : Seq :=
  { handle := .own 0, model := 0, state := .running, full := true, relay := false, emitSet := 0, policy := {}, written := 1, matching := false
    tokens := [some 5], pages := [0], chain := [], gen := some { sub := sub, opcode := 2 } }

def row0 : Row := { handle := .own 0, position := 0, token := 5, kind := 1, sample := true }

def coh0 : Cohort :=
  { model := 0, index := 0, step := 1, mask := 1, rows := (Vector.replicate 32 {}).set 0 row0, blocked := 0, stall := none, doneCount := []
    opsDone := Vector.replicate 4 (Vector.replicate 8 0)
    abandoned := 0, prismIn := [], prismPages := Vector.replicate 4 (0, 0), stepEnd := false, cutNow := false }

/-- A sequence of slot 0 outside any cohort. -/
def withSeq (q : Seq) : State := { running with seqs := [q] }

/-- The sequence in a cohort whose step is under way. -/
def inStep : State := { running with seqs := [seq0], cohorts := [coh0] }

def ctx : DCtx := ⟨0, 0, 0⟩

/-! ## States that meet the hypotheses: vector instructions -/

/-- A tile engine of slot 0 with VL lanes. -/
def vecAt (n : VLen) : Vec := { vl := n, ctx := { model := some 0, iter := 2 } }

/-- The running package with tile 0's vector engine v. -/
def vecRun (v : Vec) : State := running.modTile 0 fun x => { x with vec := v }

theorem witness_VecArithLanes : vfOk 0x10 (vf 1 2 0xFF 0xFF) = true ∧ vfOk 0x11 (vf 1 2 3 0xFF) = true ∧ vfOk 0x12 (vf 0x4F 0xBF 3 0xFF) = true ∧
    vfOk 0x13 (vf 1 2 3 4) = true ∧ vfOk 0x14 (vf 1 2 3 0xFF 7 1) = true ∧ vfOk 0x15 (vf 1 2 3 0xFF) = true ∧ vfOk 0x16 (vf 1 2 0xFF 0xFF) = true ∧
    vfOk 0x17 (vf 1 0xFE 0xFF 0xFF) = true := by decide

theorem witness_VecMathLanes : vfOk 0x18 (vf 1 2 3 0xFF) = true ∧ vfOk 0x19 (vf 1 2 0xFF 0xFF) = true ∧ vfOk 0x1A (vf 1 2 0xFF 0xFF) = true ∧
    vfOk 0x1B (vf 1 2 0xFF 0xFF) = true ∧ vfOk 0x1C (vf 1 2 0xFF 0xFF) = true ∧ vfOk 0x1D (vf 1 2 0xFF 0xFF) = true ∧
    vfOk 0x30 (vf 1 2 0xFF 0xFF) = true ∧ vfOk 0x31 (vf 1 2 0xFF 0xFF) = true ∧ vfOk 0x32 (vf 1 2 0xFF 0xFF) = true ∧
    vfOk 0x38 (vf 1 2 3 0xFF 0 0 2) = true ∧ vfOk 0x3A (vf 1 2 3 0xFF 0 0 8) = true ∧ vfOk 0x39 (vf 1 2 3 0xFF 0 0 4) = true := by decide

theorem witness_VecLogicLanes : vfOk 0x28 (vf 1 2 3 0xFF) = true ∧ vfOk 0x29 (vf 1 2 3 0xFF) = true ∧ vfOk 0x2A (vf 1 2 3 0xFF) = true ∧
    vfOk 0x2B (vf 1 2 3 0xFF) = true ∧ vfOk 0x2C (vf 1 2 3 0xFF) = true ∧ vfOk 0x2D (vf 1 2 3 0xFF) = true ∧ vfOk 0x23 (vf 1 2 3 0x57) = true ∧
    vfOk 0x40 (vf 1 0xFF 0xFF 0xFF) = true := by decide

theorem witness_VecMoveLanes : vfOk 0x41 (vf 1 2 0xFF 0xFF 0 0 1) = true ∧ vfOk 0x42 (vf 1 2 0xFF 0xFF 0 0 1023) = true ∧
    vfOk 0x43 (vf 1 2 3 0xFF) = true ∧ vfOk 0x44 (vf 1 2 0xFF 0xFF) = true ∧ vfOk 0x45 (vf 1 2 0xFF 0xFF) = true ∧
    vfOk 0x4D (vf 1 0x50 0xFF 0xFF) = true := by decide

theorem witness_VecPredicates : vfOk 0x20 (vf 0x51 2 3 0xFF) = true ∧ vfOk 0x21 (vf 0x57 2 3 0xFF) = true ∧ vfOk 0x22 (vf 0x51 2 3 0xFF) = true ∧
    vfOk 0x50 (vf 0x51 0x50 0x57 0xFF) = true ∧ vfOk 0x51 (vf 0x51 0x50 0x57 0xFF) = true ∧ vfOk 0x52 (vf 0x51 0x50 0x57 0xFF) = true ∧
    vfOk 0x53 (vf 0x51 0xFF 0xFF 0xFF) = true := by decide

theorem witness_VecControl : vfOk 0x4C (vf 0xFF 2 0xFF 0xFF) = true ∧ vfOk 0x46 (vf 0x90 2 0xFF 0xFF) = true ∧ vfOk 0x48 (vf 0xFF 0x51 0xFF 0xFF) = true ∧
    vfOk 0x4B (vf 0xFF 0xFF 0xFF 0xFF) = true ∧ vfOk 0x49 (vf 1 2 0xFF 0xFF) = true ∧ vfOk 0x4A (vf 1 2 3 0xFF) = true ∧
    vfOk 0x00 (vf 0xFF 0xFF 0xFF 0xFF) = true ∧ (vecAt 0).vl = 0 ∧ (vecAt 4).vl ≠ 0 ∧ (vecAt 0).stack = [] ∧
    2 ≤ { vecAt 4 with stack := [(3, 4), (15, 4)] }.stack.length ∧ { vecAt 4 with stack := [(3, 4)] }.stack.length < 2 ∧
    (vecAt 4).ctx.cur + 1 < (vecAt 4).ctx.iter ∧
    (vecAt 4).ctx.iter ≤ { vecAt 4 with ctx := { (vecAt 4).ctx with cur := 1 } }.ctx.cur + 1 := by decide

theorem witness_VecLoad : let s := vecRun (vecAt 32)
    let f := fun (mod : BitVec 4) (imm : BitVec 16) => vf 1 0x60 0 0xFF 0 mod imm
    vfOk 0x01 (f 0 1022) = true ∧ vfOk 0x01 (f 2 1010) = true ∧ (vecAt 0).touching (f 0 0) false = [] ∧
    (vecAt 32).touching (f 0 0) false ≠ [] ∧ inSpan (s.vecSpan 0 false).2 (s.vecAddr 0 (f 0 1022)) 0 0 false ((vecAt 32).touching (f 0 1022) false) = true ∧
    inSpan (s.vecSpan 0 false).2 (s.vecAddr 0 (f 0 1023)) 0 0 false ((vecAt 32).touching (f 0 1023) false) = false ∧
    s.vecAddr 0 (f 2 1010) + 896 ≤ (s.vecSpan 0 false).2 ∧ (s.vecSpan 0 false).2 < s.vecAddr 0 (f 2 1011) + 896 := by decide +kernel

theorem witness_VecStore : let s := vecRun (vecAt 32)
    let f := fun (mod : BitVec 4) (imm : BitVec 16) => vf 0xFF 0x60 0 1 0 mod imm
    vfOk 0x02 (f 0 1022) = true ∧ vfOk 0x02 (f 8 0) = true ∧ vfOk 0x02 (f 2 1023) = true ∧ (vecAt 0).touching (f 0 0) false = [] ∧
    (vecAt 32).touching (f 0 0) false ≠ [] ∧ inSpan (s.vecSpan 0 false).2 (s.vecAddr 0 (f 0 1022)) 0 0 false ((vecAt 32).touching (f 0 1022) false) = true ∧
    inSpan (s.vecSpan 0 false).2 (s.vecAddr 0 (f 0 1023)) 0 0 false ((vecAt 32).touching (f 0 1023) false) = false ∧
    inSpan (s.vecSpan 0 true).2 (s.vecAddr 0 (f 8 62)) 0 0 false ((vecAt 32).touching (f 8 62) false) = true ∧
    s.vecAddr 0 (f 2 1023) + 56 * cdiv 32 64 ≤ (s.vecSpan 0 false).2 ∧ (s.vecSpan 0 false).2 < s.vecAddr 0 (f 2 1024) + 56 * cdiv 32 64 := by
  decide +kernel

/-! ## Sync words -/

/-- The running package with word 5 of the hub, and watches on it. -/
def wordAt (x : BitVec 64) (ws : List Watch := []) : State := { running with sync := { words := if x = 0 then [] else [(5, x)], watches := ws } }

def fullWord : BitVec 64 := 0x8000000000000009
def poisoned : BitVec 64 := 0x4000000000000000

def watch (n : Nat) (observe : Bool) : Watch :=
  { id := n, observe := observe, word := 5, tenant := 0, unitHome := 1, engine := 0, registered := 0, limit := 2000, hung := false }

theorem witness_SyncFillEffect : wPoisoned ((wordAt poisoned).word 5) = true ∧
    (wPoisoned ((wordAt fullWord).word 5) = false ∧ wFull ((wordAt fullWord).word 5) = true) ∧
    wPoisoned ((wordAt 0 [watch 1024 true, watch 1025 false]).word 5) = false ∧ wFull ((wordAt 0 [watch 1024 true, watch 1025 false]).word 5) = false := by
  decide +kernel

theorem witness_SyncTakePeek : wPoisoned ((wordAt poisoned).word 5) = true ∧
    (wPoisoned ((wordAt fullWord).word 5) = false ∧ wFull ((wordAt fullWord).word 5) = true ∧ wValue ((wordAt fullWord).word 5) = 9) ∧
    (wPoisoned ((wordAt 0).word 5) = false ∧ wFull ((wordAt 0).word 5) = false ∧ ∀ k ∈ (wordAt 0).sync.watches, k.id ≠ 1024) := by
  decide +kernel

theorem witness_SyncClearPoison : wPoisoned ((wordAt poisoned).word 5) = true ∧ (wPoisoned ((wordAt 0).word 5) = false ∧ wFull ((wordAt 0).word 5) = false) ∧
    wPoisoned ((wordAt fullWord).word 5) = false ∧ wFull ((wordAt fullWord).word 5) = true := by decide +kernel

def retry (op : Nat) : Retry := { op := op, word := 5, v := 3, unitHome := 1, engine := 0, limit := 2000, hung := false }
def heldFill (v : BitVec 48) : HeldFill := { word := 5, v := v, model := 0, cohort := 0, port := 0, tenant := 0, limit := 2000, hung := false }

theorem witness_SyncWaits :
    let s := fun (x : BitVec 64) => { wordAt x with sync := { (wordAt x).sync with retries := [retry 0, retry 1], held := [heldFill 0, heldFill 1] } }
    (s fullWord).sync.retries[0]? = some (retry 0) ∧ (retry 0).op = 0 ∧ (s fullWord).sync.retries[1]? = some (retry 1) ∧ (retry 1).op = 1 ∧
    wPoisoned ((s fullWord).word 5) = false ∧ wFull ((s fullWord).word 5) = true ∧ wPoisoned ((s 0).word 5) = false ∧ wFull ((s 0).word 5) = false ∧
    ((s 0).stepOf 0 0).extractLsb' 0 48 = (heldFill 0).v ∧ ((s 0).stepOf 0 0).extractLsb' 0 48 < (heldFill 1).v ∧
    (s 0).sync.held[0]? = some (heldFill 0) ∧ (s 0).sync.held[1]? = some (heldFill 1) ∧
    (wordAt 0 [watch 1024 false]).sync.watches[0]? = some (watch 1024 false) ∧ (watch 1024 false).limit.toNat < (2001 : BitVec 64).toNat := by
  decide +kernel

/-! ## Rings and registers -/

/-- The running package with the rings of set 0 of the PF enabled, 16 entries each, and one entry to be taken. -/
def rings : State := { running with fns := running.fns.set 0 { running.fns[(0 : Fin 16)] with
  rings := running.fns[(0 : Fin 16)].rings.set 0
    #v[{ enable := true, log2 := 4, doorbell := 1 }, { enable := true, log2 := 4, doorbell := 1 }, { enable := true, log2 := 4 },
       { enable := true, log2 := 4 }, { enable := true, log2 := 4 }] } }

/-- An entry of opcode op, all else zero. -/
def entry (op : BitVec 8) : Fetch :=
  { ok := true, entry := op :: List.replicate 63 0, sealEntry := List.replicate 64 0, copiesOk := true, bufs := [] }

theorem witness_DoorbellTaken : State.reset.isReady = false ∧ rings.isReady = true ∧ rings.fns[(0 : Fin 16)].disabling = false ∧
    rings.fns[(0 : Fin 16)].present = true ∧ (rings.ring 0 0 1).enable = true ∧ (15 : BitVec 32).toNat < 2 ^ (rings.ring 0 0 1).log2.toNat ∧
    2 ^ (rings.ring 0 0 1).log2.toNat ≤ (16 : BitVec 32).toNat ∧ (rings.ring 0 1 1).enable = false ∧
    (rings.modFn 0 fun x => { x with disabling := true }).fns[(0 : Fin 16)].disabling = true := by decide +kernel

theorem witness_EntryTaken : rings.mayTake 0 0 false = true ∧ rings.mayTake 0 0 true = true ∧ isCritical 9 = false ∧
    entryFault false (entry 9).entry (entry 9).sealEntry = none ∧ (rings.tenant? 0).isSome = true ∧
    isCritical 0x43 = false ∧ entryFault true (entry 0x43).entry (entry 0x43).sealEntry = none := by decide +kernel

theorem witness_Rings : ready.isReady = true ∧ ready.fns[(0 : Fin 16)].present = true ∧ ready.fns[(0 : Fin 16)].enabled = true ∧
    ready.fns[(0 : Fin 16)].disabling = false ∧ ready.held = [] ∧ (ready.ring 0 0 0).enable = false ∧
    (4 ≤ fld (0x80040000 : BitVec 64) 16 5 ∧ fld (0x80040000 : BitVec 64) 16 5 ≤ 16) ∧ fld (0x80100000 : BitVec 64) 16 5 = 16 ∧
    fld (0x80030000 : BitVec 64) 16 5 < 4 ∧ 16 < fld (0x80110000 : BitVec 64) 16 5 ∧ (rings.ring 0 0 1).enable = true ∧
    (rings.modFn 0 fun x => { x with openReqs := [⟨sub, false, 9, 0⟩] }).ringBusy 0 0 1 = true ∧ rings.ringBusy 0 0 1 = false ∧
    (rings.modRing 0 0 2 fun r => { r with irqEn := true, unsignalled := 1 }).ring 0 0 2 =
      { enable := true, log2 := 4, irqEn := true, unsignalled := 1 } ∧ (rings.ring 0 0 2).unsignalled = 0 := by decide +kernel

theorem witness_Reads : ready.isReady = true ∧
    { ready with boot := { ready.boot with errLatch := some 5 } }.boot.errLatch = some 5 := by decide +kernel

theorem witness_RegisterWrites : ready.isReady = true ∧ (10 ≤ fld (10 : BitVec 64) 0 20 ∧ fld (1000000 : BitVec 64) 0 20 ≤ 1000000) ∧
    ¬ (10 ≤ fld (9 : BitVec 64) 0 20) ∧ 600 ≤ (600 : BitVec 12).toNat := by decide +kernel

/-! ## PCIe, resets and bring-up -/

/-- The state at another stage of bring-up. -/
def atStage (s : State) (x : Stage) : State := { s with boot := { s.boot with stage := x } }

def heldOne : State := { rings with held := [.completion 0 0 5] }

/-- VF 1 present, with nothing in progress. -/
def vfThere : State := ready.modFn 1 fun x => { x with present := true }

theorem witness_PcieEnables : rings.fns[(0 : Fin 16)].present = true ∧ rings.held = [] ∧ heldOne.held = [.completion 0 0 5] ∧
    (heldOne.ring 0 0 2).room = true ∧ (heldOne.ring 0 0 2).irqEn = false ∧ rings.isReady = true ∧ rings.pins.pcieUp = true ∧
    rings.fns[(3 : Fin 16)].disabling = false ∧ ∀ g : Fn, g ≠ 0 → vfThere.fns[g].enabled = false ∧ vfThere.fns[g].disabling = false := by
  decide +kernel

theorem witness_FunctionReset : ready.fns[(2 : Fin 16)].present = false ∧ vfThere.fns[(1 : Fin 16)].present = true ∧
    (atStage vfThere .linkTrain).isReady = false ∧ vfThere.isReady = true ∧ vfThere.fns[(1 : Fin 16)].disabling = false ∧ vfThere.quietFor 1 ∧
    vfThere.fns[(0 : Fin 16)].disabling = false ∧ vfThere.fns[(0 : Fin 16)].flrActive = false ∧ ready.fns[(0 : Fin 16)].present = true ∧
    ready.quietFor 0 ∧ (∀ g : Fn, g ≠ 0 → ready.fns[g].present = false ∧ ready.fns[g].disabling = false) ∧
    let s := vfThere.modFn 1 fun x => { x with disabling := true }
    s.fns[(1 : Fin 16)].disabling = true ∧ s.fns[(1 : Fin 16)].present = true ∧ s.fns[(1 : Fin 16)].flrActive = false ∧ s.quietFor 1 := by
  unfold State.quietFor; decide +kernel

theorem witness_LinkLost : State.reset.pins.pcieUp = false ∧
    (let s := ready.modFn 0 fun x => { x with enabled := false }
     s.pins.pcieUp = true ∧ (∀ g : Fn, s.fns[g].enabled = false ∧ s.fns[g].disabling = false) ∧ s.pins.perstN = true ∧ s.isReady = true) ∧
    State.reset.isReady = false := by decide +kernel

theorem witness_PackageReset : ready.pins.powered = true ∧ { ready.pins with rails := 0x3FE }.powered = false := by decide +kernel

theorem witness_BringupStages : State.reset.boot.stage = .aon ∧ State.reset.pins.perstN = true ∧ State.reset.power.tripped = false ∧
    ready.boot.stage ≠ .aon ∧ (atStage State.reset .dramTrain).boot.failed = false ∧ (atStage State.reset .dramTrain).boot.stage = .dramTrain ∧
    State.reset.flash.catalogueSeq = 0 ∧ { State.reset.flash with catalogueSeq := 1 }.catalogueSeq ≠ 0 ∧
    (atStage State.reset .linkTrain).boot.stage = .linkTrain ∧ { (atStage State.reset .linkTrain).boot with trained := true }.trained = true ∧
    ready.boot.stage ≠ .linkTrain ∧ ready.boot.stage ≠ .dramTrain := by decide +kernel

/-- SECURE_BOOT with slot A as given. -/
def boots (m : Mirror) : State := { atStage State.reset .secureBoot with um := { slotA := some m } }

theorem witness_SecureBoot : (boots {}).boot.stage = .secureBoot ∧ (boots {}).boot.failed = false ∧ (boots {}).um.slotB = none ∧
    (boots {}).um.slotA = some {} ∧ (boots {}).um.slotValid (some {}) = true ∧ (boots {}).um.bankFor {} = some {} ∧
    (boots {}).um.bankOk {} = true ∧ ({} : Mirror).state = 0 ∧
    (let m : Mirror := { state := 1, boots := 2 }
     (boots m).um.slotValid (some m) = true ∧ (boots m).um.bankFor m = some {} ∧ m.boots ≠ 3) ∧
    (let m : Mirror := { state := 1, boots := 3 }
     (boots m).um.slotValid (some m) = true ∧ ((boots m).um.banks[(0 : Fin 2)].any (boots m).um.bankOk) = true) ∧
    (let m : Mirror := { state := 2 }
     (boots m).um.slotValid (boots m).um.slotA = false ∧ (boots m).um.slotValid (boots m).um.slotB = false ∧
     ((boots m).um.banks[(0 : Fin 2)].any (boots m).um.bankOk) = true) ∧
    (let u : Umathal := { slotA := none, banks := #v[none, none] }
     u.slotValid u.slotA = false ∧ (u.banks[(0 : Fin 2)].any u.bankOk) = false) := by decide +kernel

/-! ## Power, temperature, clocks and fatal errors -/

/-- Every sensor at x. -/
def temps (x : BitVec 16) : Vector (BitVec 16) 13 := Vector.replicate 13 x

/-- Tiles and hub at x, stacks at y. -/
def temps2 (x y : BitVec 16) : Vector (BitVec 16) 13 := Vector.ofFn fun i => if i.val < 5 then x else y

/-- R401, the example: at 1,385 W under a CAP of 1,200 P_k goes from 16 to 15; at 1,175 W it holds. -/
theorem test_power_interval :
    (match exec (.powerInterval 1385 true) (ready.modPower fun x => { x with cap := 1200 }) with
      | .next u => decide (u.power.pk = 15 ∧ u.power.k = 15)
      | _ => false) = true ∧
    (match exec (.powerInterval 1175 true) (ready.modPower fun x => { x with cap := 1200, pk := 8 }) with
      | .next u => decide (u.power.pk = 8 ∧ u.power.k = 8)
      | _ => false) = true := by decide +kernel

theorem witness_PowerAndClocks : ready.boot.stage ≠ .aon ∧
    (ready.power.cap.toNat < (1501 : BitVec 12).toNat ∧ (1500 : BitVec 12).toNat ≤ ready.power.cap.toNat ∧
      ready.power.cap.toNat ≤ (1450 : BitVec 12).toNat + 50 ∧ (1449 : BitVec 12).toNat + 50 < ready.power.cap.toNat) ∧
    ready.power.below < 9 ∧ 9 ≤ { ready.power with below := 9 }.below ∧ ready.partK ≤ ready.power.k ∧ ready.power.lastEvent = none ∧
    (trips (temps2 1839 1679) = false ∧ trips (temps2 1840 0) = true ∧ trips (temps2 0 1680) = true) ∧
    (∃ i : Fin 13, 16 * (if i.val < 5 then ready.power.logicThrottle.toNat else ready.power.dramThrottle.toNat) ≤ ((temps2 1600 0)[i]).toNat) ∧
    (∀ i : Fin 13, ((temps2 1552 1472)[i]).toNat + 48 ≤ 16 * (if i.val < 5 then ready.power.logicThrottle.toNat else ready.power.dramThrottle.toNat)) ∧
    ¬ (∀ i : Fin 13, ((temps2 1553 0)[i]).toNat + 48 ≤ 16 * (if i.val < 5 then ready.power.logicThrottle.toNat else ready.power.dramThrottle.toNat)) ∧
    ready.power.cool < 9 ∧ ready.power.tripped = false ∧ ready.pins.powered = true ∧
    (∀ i : Fin 13, ((temps2 1600 1440)[i]).toNat + 240 ≤ if i.val < 5 then 1840 else 1680) ∧
    (∃ i : Fin 13, (if i.val < 5 then 1840 else 1680) < ((temps2 1601 0)[i]).toNat + 240) ∧
    { ready.power with tripped := true }.tripped = true ∧ { ready.power with tripCool := 98 }.tripCool < 99 ∧
    99 ≤ { ready.power with tripCool := 99 }.tripCool ∧
    ready.loadedCount = 0 ∧ ready.power.pllOffDelay ≠ 0 ∧ running.loadedCount ≠ 0 ∧ fld (0xAA : BitVec 8) (2 * (3 : Fin 4).val) 2 = 2 ∧
    ready.sync.watches = [] ∧ (watch 1024 true).unitHome.toNat = (0 : Fin 4).val + 1 ∧ (watch 1024 true).engine = 0 ∧
    (∀ p : PortIx, portState ready.ports[p] = 0) ∧ portState ({ reg := 4 } : Port) ≠ 0 ∧ (atStage ready .dramTrain).boot.stage ≠ .linkTrain := by
  decide +kernel

def sramAt (x : SramWhere) : SramRead := { tile := 1, model := 0, cohort := 0, layer := 0, place := x }

theorem witness_FatalErrors : ready.boot.stage ≠ .aon ∧ ready.boot.stage ≠ .secureBoot ∧ State.reset.boot.stage = .aon ∧
    (sramAt .hub).place = .hub ∧ wordHome 0x3FFF = 0 ∧ wordHome 0x4000 ≠ 0 ∧ ready.cohort? 0 0 = none := by decide +kernel

/-! ## Sideband and test port -/

def negotiated : State := { ready with spdm := { phase := #v[3, 3] } }

def session (x : BitVec 32) (on : Bool) : Session := { id := x, transport := .doe, established := on, keyUpdates := 0 }

theorem witness_SpdmNegotiation : ready.reaches .mctp = true ∧ ready.reaches .doe = true ∧ ready.phaseOf .mctp < 1 ∧
    negotiated.phaseOf .mctp = 3 ∧ (1 : BitVec 3) ≠ 0 ∧ negotiated.um.banks[Fin.ofNat 2 (b2n negotiated.um.activeBank)] = some {} := by
  decide +kernel

theorem witness_SpdmSessions : negotiated.reaches .doe = true ∧ 3 ≤ negotiated.phaseOf .doe ∧ negotiated.spdm.sessions.length < 4 ∧
    (let s := { negotiated with spdm := { negotiated.spdm with sessions := [session 1 true, session 2 false, session 3 true, session 4 true] } }
     4 ≤ s.spdm.sessions.length ∧ s.session? 1 = some (session 1 true) ∧ s.session? 2 = some (session 2 false) ∧
     s.reaches (session 1 true).transport = true) := by decide +kernel

theorem witness_TestPort : ready.pins.powered = true ∧ ready.pins.rails.getLsbD 1 = true ∧
    { ready.pins with resetN := false, perstN := false }.resetN = false ∧ ready.pins.resetN = true := by decide +kernel

/-! ## Requests -/

/-- A policy block within R35: TOP_P 1.0, MAX_NEW 1, all else zero. -/
def goodPolicy : Bytes := List.replicate 6 0 ++ [0x80, 0x3F] ++ List.replicate 16 0 ++ [1] ++ List.replicate 231 0

theorem witness_CompletionRecord : rings.fns[(0 : Fin 16)].bme = true ∧ (rings.ring 0 0 2).room = true ∧ ready.fns[(1 : Fin 16)].bme = false ∧
    (ready.ring 0 0 2).room = false := by decide +kernel

theorem witness_Admission : slotOf 0 = some 0 ∧ ready.tenant? 0 = none ∧ rings.tenant? 0 = some tenant ∧ rings.load? 1 = none ∧ slotOf 63 = some 63 ∧
    slotOf 64 = none ∧ rings.load? 0 = some load ∧ { load with owner := 1 }.owner ≠ sub.fn ∧ load.owner = sub.fn ∧ rings.loaded 0 = true ∧
    load.lost = false ∧ (rings.ring 0 0 3).enable = true ∧ rings.sliceOf 0 = some slice ∧ slice.state = .active ∧
    rings.models[(0 : Fin 64)].degraded = false ∧ policyAllOk goodPolicy [] [] = true ∧ policyAllOk [] [] [] = false ∧
    ready.models[(0 : Fin 64)].pool.frames = 0 ∧ rings.models[(0 : Fin 64)].pool.frames ≠ 0 ∧
    (rings.seqsOf 0).length < rings.models[(0 : Fin 64)].pool.maxSeq ∧ rings.freeSlot 0 = some 0 ∧ (rings.growGuard 0 0).isSome = true := by
  decide +kernel

/-- The sequence in another state, its next chunk to be matched no more. -/
def seqIn (x : SeqState) : Seq := { seq0 with state := x, gen := none }

theorem names_seq0 (q : Seq) (h : q.handle = .own 0) : (withSeq q).names sub 0 q := by
  refine ⟨(by decide +kernel : (running.tenant? 0).isSome = true), by decide +kernel, ?_⟩
  simp [withSeq, State.seq?, h]

theorem witness_RequestsOnHandles : badCount 1 = false ∧ badCount 1048576 = false ∧ badCount 1048577 = true ∧ handleFn 0x10000000 ≠ sub.fn ∧
    handleFn 0 = sub.fn ∧ (running.tenant? sub.fn).isSome = true ∧ running.seq? (.own 0) = none ∧
    [(5 : BitVec 32)].any (running.badToken 0) = false ∧ (withSeq (seqIn .admitted)).tooLong (seqIn .admitted) (seqIn .admitted).endPos 1 = false ∧
    (seqIn .admitted).matching = false ∧ (seqIn .ingesting).gen = none ∧ (seqIn .running).state ≠ .admitted ∧
    (let q := { seqIn .ended with endStatus := 1 }
     q.swappedPages = [] ∧ (withSeq q).tooLong q q.written (q.carried.length + 1) = false ∧ ((withSeq q).growGuard 0 0).isSome = true ∧
     ((withSeq q).modPool 0 fun p => { p with free := [] }).growGuard 0 0 = none) ∧
    policyState (seqIn .running) = true ∧ policyAllOk goodPolicy [] [] = true ∧ policyAllOk [] [] [] = false ∧ inStep.inCohort seq0 = true ∧
    (withSeq seq0).inCohort seq0 = false ∧ seq0.newPolicy = [] := by decide +kernel

theorem names_witness : (withSeq (seqIn .ended)).names sub 0 (seqIn .ended) := names_seq0 _ rfl

/-- Swap buffers of 1 MiB and of 4 KiB at 4 KiB. -/
def buffer : BitVec 128 := 0x00000000001000000000000000001000
def smallBuffer : BitVec 128 := 0x00000000000010000000000000001000

def swapOf (op : BitVec 8) : Swap :=
  { sub := sub, opcode := op, buf := 4096, next := 0, frames := [(0, 2), (1, 3)], stop := [], old := [0x2000000, 0x2000001], mine := false
    failed := none }

def swapping (x : SeqState) (op : BitVec 8) : Seq := { seqIn x with pages := [0, 1], swap := some (swapOf op) }

theorem witness_SuspendAndEnd : (seqIn .running).pendPreempt = none ∧ [buffer].any misaligned = false ∧ (seqIn .running).relayMap = [] ∧
    (seqIn .running).pageCount = 1 ∧ (withSeq (seqIn .running)).swapHolds 0 1 [buffer] = true ∧
    (withSeq (seqIn .running)).swapHolds 0 1 [smallBuffer] = false ∧ inStep.inCohort seq0 = true ∧
    (withSeq (seqIn .running)).inCohort (seqIn .running) = false ∧
    ((withSeq (seqIn .swapped)).takeBack (seqIn .swapped)).isSome = true ∧
    ((withSeq (seqIn .swapped)).modPool 0 fun p => { p with free := [] }).takeBack (seqIn .swapped) = none := by decide +kernel

/-- The swap of the sequence with handle 0 at the head of the queue. -/
def swapState (q : Seq) : State := { withSeq q with swapQueue := [.own 0] }

/-- The slice of slot 0 with package 5 as its first member. -/
def withMember (s : State) : State := { s with slices := [{ slice with members := [5, 0] }] }

theorem witness_SwapRecords : (swapState (swapping .preempting 6)).activeSwap true = some (.own 0) ∧
    (swapState (swapping .preempting 6)).seq? (.own 0) = some (swapping .preempting 6) ∧ (swapping .preempting 6).page? 0 = some 0 ∧
    0 + 1 < (swapping .preempting 6).pageCount ∧ { swapping .preempting 6 with pages := [0] }.pageCount ≤ 0 + 1 ∧
    (withSeq (swapping .preempting 6)).activeSwap true ≠ some (.own 0) ∧
    (swapState (swapping .resuming 7)).activeSwap false = some (.own 0) ∧ (swapState (swapping .resuming 7)).alone 0 = true ∧
    (withMember (swapState (swapping .resuming 7))).alone 0 = false ∧ (Key.own 0).isOwn = true ∧ (Key.far 0 3 0).isOwn = false ∧
    (withSeq (seqIn .ended)).swapQueue = [] ∧
    (swapState (swapping .resuming 7)).recordOk (swapping .resuming 7) 0 [] = false ∧
    ([(0, 2), (1, 3)] : List (Nat × Nat)).find? (fun y => decide (y.1 = 0)) = some (0, 2) := by decide +kernel

theorem witness_KvImport : (let q := { seqIn .admitted with tokens := [], pages := [], written := 0 }
     q.endPos % 256 = 0 ∧ (1 : BitVec 25) ≠ 0 ∧ (16777216 : BitVec 25).toNat ≤ 16777216 ∧
     (withSeq q).importOk 0 1 [buffer] = true ∧ (withSeq q).tooLong q q.endPos 256 = false ∧ ((withSeq q).takeImport q sub 256).isSome = true ∧
     (withSeq q).takeImport q sub 1280 = none ∧
     (let s := (withSeq q).modPool 0 fun p => { p with limit := Vector.replicate 16 0 }
      s.models[q.model].pool.limit[(0 : Fin 16)] = 0 ∧ s.models[q.model].pool.free.Nodup ∧ cdiv 256 256 ≤ s.models[q.model].pool.free.length ∧
      s.listFull q (cdiv 256 256) = false)) ∧
    { seqIn .admitted with imps := [⟨sub, 0, 1, [0]⟩] }.imps = [⟨sub, 0, 1, [0]⟩] := by decide +kernel

/-! ## Admin commands -/

/-- An image that every check passes: four lists of one STEP_END, a geometry, a RESIDENT section. -/
def goodImage : Image := { image with
  sections := [sect 8192 1 0 0 (.programs { progs with lists := Vector.replicate 4 [0x80607] }), sect 12288 4 0 255 (.geometry geom),
    sect 16384 0 0 0 (.bytes [(0, 5)])] }

/-- The package with slot 1 in a state, its image in flash, and room there. -/
def slotIn (x : MState) : State := { running with
  models := running.models.set 1 { state := x, image := some goodImage, claim := if x = .incomplete then some sub else none }
  flash := { targets := Vector.replicate 32 8 } }

/-- A command of the PF and one of VF 1. -/
def sub1 : Sub := { fn := 1, set := 0, tag := 8 }

theorem witness_InstallAndErase : slotOf 1 = some 1 ∧ sub1.fn ≠ 0 ∧ (slotIn .empty).models[(1 : Fin 64)].claim = none ∧
    (slotIn .empty).models[(1 : Fin 64)].state = .empty ∧ (slotIn .installed).models[(1 : Fin 64)].state ≠ .empty ∧
    installCheck { goodImage with magic := 0 } 20480 ((slotIn .empty).ownPart goodImage) = some (0x22, 0xFFFF, some 0) ∧
    installCheck goodImage 20480 ((slotIn .empty).ownPart goodImage) = none ∧ writeCheck goodImage ((slotIn .empty).ownPart goodImage) = none ∧
    running.flash.freeMiB < imageMiB goodImage (inPart (running.ownPart goodImage)) ∧
    imageMiB goodImage (inPart ((slotIn .empty).ownPart goodImage)) ≤ (slotIn .empty).flash.freeMiB ∧
    (slotIn .incomplete).models[(1 : Fin 64)].claim = some sub ∧ (slotIn .incomplete).models[(1 : Fin 64)].state = .incomplete := by
  decide +kernel

theorem witness_LoadAndUnload : (slotIn .erasing).models[(1 : Fin 64)].state ≠ .installed ∧ (slotIn .installed).models[(1 : Fin 64)].state = .installed ∧
    (slotIn .installed).models[(1 : Fin 64)].degraded = false ∧ (slotIn .installed).loadedCount < 16 ∧
    (let s := { slotIn .installed with models := Vector.replicate 64 { model with state := .installed } }
     s.models[(1 : Fin 64)].state = .installed ∧ s.models[(1 : Fin 64)].degraded = false ∧ 16 ≤ s.loadedCount) ∧
    (slotIn .installed).slices.find? (fun y => decide (y.id = 1)) = some slice ∧ (slotIn .installed).image? 1 = some goodImage ∧
    ((slotIn .installed).programs? 1).isSome = true ∧ { slice with state := .pending }.state ≠ .active ∧
    slice.members.length = goodImage.parts.toNat ∧
    ((slotIn .installed).carveLoad goodImage 0 progs).toOption.isSome = true ∧
    (match (slotIn .installed).carveLoad goodImage 0 { progs with spSpan := Vector.replicate 4 (192 * 2 ^ 20) } with
      | .error x => decide (x = 0x29)
      | _ => false) = true ∧
    running.load? 0 = some load ∧ load.done = true ∧ { load with done := false }.done = false ∧ (running.programs? 0).isSome = true ∧
    running.models[(0 : Fin 64)].claim = none ∧ running.models[(0 : Fin 64)].state = .loaded ∧ running.seqsOf 0 = [] ∧
    ((withSeq seq0).seqsOf 0).isEmpty = false := by decide +kernel

/-- VF 1 present, with a tenant. -/
def vfTenant : State := { vfThere with um := { live := { tenants := (Vector.replicate 16 none).set 1 (some tenant) } } }

theorem witness_TenantsAndPools : sub.fn = 0 ∧ sub1.fn ≠ 0 ∧ vfThere.fns[(2 : Fin 16)].present = false ∧ vfThere.fns[(1 : Fin 16)].present = true ∧
    (vfTenant.tenant? 1).isSome = true ∧ vfThere.tenant? 1 = none ∧ (sub1.fn ≠ 0 ∧ sub1.fn ≠ (2 : Fn)) ∧ vfTenant.fns[(1 : Fin 16)].disabling = false ∧
    vfTenant.fns[(1 : Fin 16)].flrActive = false ∧ vfTenant.fns[(1 : Fin 16)].openReqs = [] ∧ vfTenant.quietFor 1 ∧
    vfTenant.fns[(0 : Fin 16)].disabling = false ∧ vfTenant.unwrapKey [] 1 false = none ∧ vfTenant.keyDenied sub 1 = false ∧
    vfTenant.keyDenied sub1 2 = true ∧ vfTenant.holdsSwapped 1 = false ∧
    (withSeq { seq0 with pages := [0x2000000] }).holdsSwapped 0 = true ∧
    (4 : BitVec 24).toNat % 4 = 0 ∧ (5 : BitVec 24).toNat % 4 ≠ 0 ∧ 262144 < (262145 : BitVec 20).toNat ∧ (262144 : BitVec 20).toNat ≤ 262144 ∧
    running.models[(0 : Fin 64)].claim = none ∧ running.models[(0 : Fin 64)].state = .loaded ∧ running.models[(1 : Fin 64)].state ≠ .loaded ∧
    running.poolFits 0 8 2 = true ∧ running.poolFits 0 0xFFFFFC 2 = false := by
  unfold State.quietFor; decide +kernel

/-- A staged configuration. -/
def staged (u : Umathal) : State := { running with um := { u with staged := some {} } }

theorem witness_Configuration : running.um.staged = none ∧ (staged {}).um.staged = some {} ∧ (staged {}).um.unconfirmed = false ∧
    (staged {}).um.bootedVersion < 0xFFFFFFFF ∧ (1 : BitVec 64) ≠ (staged {}).um.stagedDigest ∧ running.um.bootedSlot = some {} ∧
    ({} : Mirror).state = 0 ∧ (staged { slotA := some { state := 1 } }).um.bootedSlot = some { state := 1 } ∧ ({ state := 1 } : Mirror).state ≠ 0 ∧
    (let u : Umathal := { slotB := some {} }
     u.slotValid (if u.booted then u.slotA else u.slotB) = true) ∧
    running.um.slotValid (if running.um.booted then running.um.slotA else running.um.slotB) = false ∧
    running.um.fwVerifies [] = false ∧ running.um.banks[Fin.ofNat 2 (b2n !running.um.activeBank)] = none ∧
    (let u : Umathal := { banks := #v[some {}, some {}] }
     u.banks[Fin.ofNat 2 (b2n !u.activeBank)] = some {} ∧ u.bankOk {} = true) ∧ ∀ x ∈ running.slices, x.members.length ≤ 1 := by
  decide +kernel

/-- A slice that waits for the agreement. -/
def pendingSlice (n : List Nat) : Slice := { slice with state := .pending, sub := some sub, members := [0, 1], agreed := n }

theorem witness_SlicesAndRoutes : (1 : BitVec 16) ≠ 0xFFFF ∧ listMembers 1 (List.replicate 528 0) = [ready.address] ∧
    ready.sliceOk 1 0 [0] 0 [] 0 = true ∧ ready.sliceOk 1 0 [1] 0 [] 0 = false ∧ listMembers 2 ([0, 0, 1, 0] ++ List.replicate 524 0) = [0, 1] ∧
    (let s := { ready with ports := ready.ports.set 0 { reg := 4 } }
     s.sliceOk 1 0 [0, 1] 0 [] 0 = true) ∧
    (∀ m : SlotIx, ((slotIn .empty).load? m).all (fun l => decide (l.sliceId ≠ 2)) = true) ∧ ready.slices = [] ∧
    (let s := { ready with slices := [{ slice with id := 2 }] }
     (∀ m : SlotIx, (s.load? m).isNone = true) ∧ ∃ x ∈ s.slices, x.id = 2 ∧ x.fn = 0) ∧ (∀ x ∈ running.slices, ¬(x.id = 2 ∧ x.fn = 0)) ∧
    (pendingSlice []).state = .pending ∧ (1 : BitVec 8).toNat < (pendingSlice [0]).members.length ∧ 1 ∉ (pendingSlice [0]).agreed ∧
    (pendingSlice [0]).agreed.length + 1 = (pendingSlice [0]).members.length ∧ (pendingSlice []).agreed.length + 1 ≠ (pendingSlice []).members.length ∧
    (1 : BitVec 512) ≠ (pendingSlice []).digest ∧ bit (1 : BitVec 16) ready.boot.boardId.toNat = true ∧
    bit (1 : BitVec 8) ready.boot.slotId.toNat = true ∧ (0 : BitVec 8) ≠ 0xFF := by decide +kernel

/-- LOUPE_MODE READ_WRITE, and word 5 of the hub. -/
def loupe (x : BitVec 64) : State := { wordAt x with um := { running.um with live := { running.um.live with loupeMode := 2 } } }

/-- The body of a LOUPE_READ of 64 bytes at 0x40 of tile 1's scratchpad. -/
def readBody : BitVec 384 := 4 ||| (1 <<< 8) ||| (0x40 <<< 32) ||| (64 <<< 192)

theorem witness_Loupe : sub1.fn ≠ 0 ∧ running.um.live.loupeMode ≠ 2 ∧ (loupe 0).um.live.loupeMode = 2 ∧
    (loupe 0).loupeBars (wTenant ((loupe 0).word 5)) = false ∧ wFull ((loupe 0).word 5) = false ∧ wPoisoned ((loupe 0).word 5) = false ∧
    wFull ((loupe fullWord).word 5) = true ∧ wPoisoned ((loupe poisoned).word 5) = true ∧ (0 : BitVec 28).toNat % 64 = 0 ∧
    (0xBFFFFC0 : BitVec 28).toNat + (List.replicate 64 (0 : Byte)).length ≤ 192 * 2 ^ 20 ∧ (loupe 0).scratchBarred 0 0 64 = false ∧
    lField readBody 0x20 0 6 = 0 ∧ lField readBody 0x10 0 8 = 4 ∧ lField readBody 0x10 8 2 = (1 : Fin 4).val ∧ lField readBody 0x14 0 28 % 64 = 0 ∧
    lField readBody 0x14 0 28 = 64 ∧ lField readBody 0x28 0 32 = 64 ∧ running.um.live.loupeMode = 1 ∧
    { running.um.live with loupeMode := 0 }.loupeMode ≠ 1 ∧ running.scratchBarred 1 64 64 = false := by decide +kernel

/-! ## Malny -/

/-- READY with the wiring plan of one full board, so that M0 to M6 are expected. -/
def wired : State := { ready with um := { live := { plan := some { rackId := 0, slotMask := 0xFF, boardMask := 1, uplink := none } } } }

def lane (on drives : Bool) (bad : BitVec 32) : LaneReport := { signal := on, facingTx := drives, badLanes := bad, polFixed := false, orderFixed := false }

/-- The peer of M0: slot 1 of the board, its M6. -/
def peer : Discovery := { address := 1, port := 6, device := 9 }

def report (rx tx : LaneReport) (ok : Bool) : PortReport :=
  { rx := rx, tx := tx, authOk := ok, ownSecret := [], peerSecret := [], peer := some peer }

def goodOne : PortReport := report (lane true false 0) (lane true false 0) true

/-- The wired package with M0 in a state. -/
def portIn (n : BitVec 64) : State := { wired with ports := wired.ports.set 0 { reg := n } }

theorem witness_PortTraining : wired.malnyRuns = true ∧ goodReport goodOne peer ∧ wired.expected 0 = some (1, 6) ∧ peer.address = 1 ∧
    peer.port.toNat = 6 ∧ wired.expected 1 ≠ some (peer.address, peer.port.toNat) ∧
    ((report (lane false true 0) (lane true false 0) true).rx.signal = false ∧ (report (lane false true 0) (lane true false 0) true).rx.facingTx = true) ∧
    ((report (lane false false 0) (lane true false 0) true).rx.facingTx = false) ∧
    ((report (lane true false 0) (lane true false 0) false).authOk = false) ∧
    (portState (portIn 1).ports[(0 : Fin 12)] = 1 ∧ 3 ≤ portState (portIn 3).ports[(0 : Fin 12)]) ∧
    (portState (portIn 0).ports[(0 : Fin 12)] = 0 ∧ portState (portIn 2).ports[(0 : Fin 12)] = 2) ∧
    (Vector.replicate 12 goodOne)[(0 : Fin 12)] = goodOne := by unfold goodReport; decide +kernel

theorem witness_PortLoss : portState (portIn 4).ports[(0 : Fin 12)] = 4 ∧ goodReport goodOne peer ∧
    (portIn 4).expected 0 = some (peer.address, peer.port.toNat) ∧
    ((portIn 4).ports[(0 : Fin 12)].retrainTimes.filter fun t => decide ((portIn 4).now.toNat - t.toNat < oneSecond)).length < 3 ∧
    3 ≤ (([0, 0, 0] : List (BitVec 64)).filter fun t => decide ((portIn 4).now.toNat - t.toNat < oneSecond)).length ∧
    portState (portIn 2).ports[(0 : Fin 12)] < 3 ∧ 3 ≤ portState (portIn 3).ports[(0 : Fin 12)] ∧ portState (portIn 5).ports[(0 : Fin 12)] ≤ 5 := by
  unfold goodReport; decide +kernel

def packet (h : BitVec 256) : Packet := { hdr := h, data := List.replicate 33 0 }

def frame (seq : BitVec 24) (errs : List Nat) : Frame :=
  { hdr := seq.zeroExtend 64, symErrs := errs, crcOk := true, tagOk := true, packet := some (packet 0) }

def queued : Queued := { vc := 2, cls := false, packet := packet 0 }

/-- M0 UP with a packet waiting for the allowance, and credits. -/
def forwarding : State := { wired with ports := wired.ports.set 0 { reg := 4, transit := [queued], credits := Vector.replicate 4 1 } }

theorem witness_Frames : (portState (portIn 2).ports[(0 : Fin 12)] ≠ 3 ∧ portState (portIn 2).ports[(0 : Fin 12)] ≠ 4) ∧
    portState (portIn 4).ports[(0 : Fin 12)] = 4 ∧ (∀ n ∈ (frame 0 [12]).symErrs, n ≤ 12) ∧ fld (frame 0 [12]).hdr 49 2 < 2 ∧
    (frame 0 [12]).packet = some (packet 0) ∧ (frame 0 [12]).hdr.extractLsb' 0 24 = (portIn 4).ports[(0 : Fin 12)].expect ∧
    (headOf (packet 0).hdr).dest = (portIn 4).address ∧ (frame 1 [12]).hdr.extractLsb' 0 24 ≠ (portIn 4).ports[(0 : Fin 12)].expect ∧
    (∃ n ∈ (frame 0 [13]).symErrs, 12 < n) ∧ (portIn 4).ports[(0 : Fin 12)].failures < 3 ∧ portState (portIn 3).ports[(0 : Fin 12)] = 3 ∧
    forwarding.ports[(0 : Fin 12)].transit = [queued] ∧ packetBytes (packet 0) ≤ min 3584 (forwarding.ports[(0 : Fin 12)].allowance + 112 * (1 : BitVec 32).toNat) ∧
    forwarding.maySend 0 2 = true ∧ (portIn 4).maySend 0 2 = false := by decide +kernel

/-- The header of a packet of slice 1 to slot 0's model, cohort 0, word 3 of the hub. -/
def head : Head :=
  { dest := 0, src := 1, slice := 1, tenant := 0, typ := 0, last := true, signal := true, discard := false, msg := 7, index := 0, count := 1
    addr := 64, tile := 0, len := 33, model := 0, cohort := 0, word := 1, value := 0 }

/-- The record of that message. -/
def inbound (mark whole : Bool) : Inbound :=
  { src := 1, msg := 7, written := 0, mark := mark, narrow := true, whole := whole, signal := true, bad := false }

/-- The running package with that record, and cohort 0 at a step. -/
def receiving (x : Inbound) (step : BitVec 64) : State :=
  { running with inbound := [x], sync := { steps := if step = 0 then [] else [(0, step)] } }

theorem witness_MessagesIn : headOf head.bits = head ∧ running.packetModel head = some 0 ∧ running.packetModel { head with slice := 2 } = none ∧
    (((receiving (inbound true false) 0).inbound? head).any fun x => x.mark) = true ∧ ((running.inbound? head).any fun x => x.mark) = false ∧
    head.discard = false ∧ running.heldWide = [] ∧
    (((receiving (inbound false false) 0).inbound? head).any fun x => x.narrow && !x.mark) = true ∧
    ((running.inbound? head).any fun x => x.narrow && !x.mark) = false ∧ running.modelWord 0 0 head.word = some 1 ∧
    (receiving (inbound false true) 0).packetModel head = some 0 ∧ (receiving (inbound false true) 0).signalDue head = true ∧
    (receiving (inbound false false) 0).signalDue head = false ∧ head.signal = true ∧
    (wTenant ((receiving (inbound false true) 0).word 1)).val = head.tenant ∧
    (wTenant ((receiving (inbound false true) 0).word 1)).val ≠ { head with tenant := 1 }.tenant ∧
    ((receiving (inbound false true) 0).stepOf 0 0).extractLsb' 0 48 = BitVec.ofNat 48 head.value ∧
    wFull ((receiving (inbound false true) 0).word 1) = false ∧
    BitVec.ofNat 48 head.value < ((receiving (inbound false true) 5).stepOf 0 0).extractLsb' 0 48 ∧
    ((receiving (inbound false true) 0).stepOf 0 0).extractLsb' 0 48 < BitVec.ofNat 48 { head with value := 1 }.value := by decide +kernel

/-- A cohort record of slot 0, cohort 0, step 1, row 0. -/
def record : BitVec 4608 := pack 4608 [(0, 64, 1), (64, 16, 0), (80, 8, 0), (96, 32, 1)]

theorem witness_StepsFromPeers : fld record 64 16 = (0 : Fin 64).val ∧ fld record 80 8 = (0 : Fin 8).val ∧ running.load? 0 = some load ∧
    running.isReady = true ∧ running.loaded 0 = true ∧ load.lost = false ∧ inStep.cohort? 0 0 = some coh0 ∧ load.sliceId = 1 ∧
    ((3 : BitVec 16), (7 : BitVec 32)) ∉ running.left ∧ (3 : BitVec 16) ≠ running.address ∧ running.address = 0 ∧
    ((3 : BitVec 16), (7 : BitVec 32)) ∈ { running with left := [(3, 7)] }.left ∧
    (let x := { slice with members := [0, 3] }
     x ∈ { running with slices := [x] }.slices ∧ (3 : BitVec 16) ∈ x.members ∧ x.id = load.sliceId) := by decide +kernel

/-- A span of one page held for package 3. -/
def span : Span := { model := 0, handle := 0, home := 3, pages := [(0, 2)] }

/-- A pool with the 256 free frames a span takes. -/
def roomy : State := running.modPool 0 fun p => { p with free := List.range 256, limit := Vector.replicate 16 0 }

theorem witness_RelayTraffic : ready.geometry? 0 = none ∧ running.geometry? 0 = some geom ∧ { running with spans := [span] }.spans = [span] ∧
    span.model = 0 ∧ span.pages = [(0, 2)] ∧ running.cohorts = [] ∧ (withSeq { seq0 with spill := some 1 }).seq? (.own 0) = some { seq0 with spill := some 1 } ∧
    { seq0 with spill := some 1 }.spill.isSome = true ∧ seq0.relayMap.length = 0 ∧ seq0.spill = none := by decide +kernel

theorem witness_RelayTraffic_target : roomy.geometry? 0 = some geom ∧
    ((roomy.takeFrames 0 (handleFn 0) (handleSlot 0) (List.range 256)).map fun r => r.1.length) = some 256 := by decide +kernel

/-! ## Steps and engines -/

/-- A descriptor of a class and op with further fields: (bit, width, value). -/
def desc (cls op : Nat) (fields : List (Nat × Nat × Nat) := []) : BitVec 512 :=
  pack 512 ([(0, 8, cls), (8, 8, op), (96, 32, 0xFFFFFFFF)] ++ fields)

/-- The cohort's step over: STEP_END was reached. -/
def ended : State := { inStep with cohorts := [{ coh0 with stepEnd := true }] }

/-- A sequence with a full page, and one whose page 0 is to be copied into frame 2. -/
def fullPage : Seq := { seq0 with written := 256 }
def copied : Seq := { seq0 with cow := [(0, 2)] }

/-- The sequence q, with a Lens section in the image. -/
def lensed (q : Seq) : State := { withSeq q with
  models := running.models.set 0 { model with image := some { image with sections := image.sections ++ [sect 20480 6 0 255 (.lens [0])] } } }

theorem witness_StepsAndPages : running.load? 1 = none ∧ (atStage running .linkTrain).isReady = false ∧ (slotIn .installed).loaded 1 = false ∧
    inStep.cohort? 0 0 = some coh0 ∧ coh0.stepEnd = false ∧ coh0.cutNow = false ∧ running.load? 0 = some load ∧ running.isReady = true ∧
    running.loaded 0 = true ∧ load.lost = false ∧ ended.cohort? 0 0 = some { coh0 with stepEnd := true } ∧ running.ownMember 0 = 0 ∧
    (let s := { ended with slices := [{ slice with members := [5, 0] }] }
     s.ownMember 0 ≠ 0) ∧
    (running.seq? (.own 0) = none ∧ seq0.cow.find? (fun y => decide (y.1 = 0)) = none) ∧ (withSeq copied).seq? (.own 0) = some copied ∧
    copied.cow.find? (fun y => decide (y.1 = 0)) = some (0, 2) ∧ copied.page? 0 = some 0 ∧ Memory.wf (withSeq copied).models[copied.model].pool.data = true ∧
    running.lens? 0 = none ∧ seq0.summarisable 0 = false ∧ ((lensed fullPage).lens? fullPage.model).isSome = true ∧ fullPage.summarisable 0 = true ∧
    (lensed fullPage).geometry? fullPage.model = some geom := by decide +kernel

/-- A descriptor that waits by TAKE on word 1 of the hub. -/
def waiting (cls op : Nat) : BitVec 512 := desc cls op [(32, 16, 1), (48, 2, 1)]

/-- The cohort's step with word 1 of the hub at x. -/
def stepWord (x : BitVec 64) : State := { inStep with sync := { words := if x = 0 then [] else [(1, x)] } }

theorem witness_Descriptors : descOf (.appendKv ctx (waiting 6 1)) = some (ctx, waiting 6 1, 4) ∧ running.running? 0 0 = none ∧
    inStep.running? 0 0 = some coh0 ∧ bit { coh0 with abandoned := 0x10 }.abandoned (8 * (0 : Fin 4).val + (4 : BitVec 3).toNat) = true ∧
    (stepWord 0).takesUp ctx (waiting 6 1) 4 coh0 ∧ inStep.takesUp ctx (desc 6 1) 4 coh0 ∧ inStep.waitWord ctx (desc 6 1) = none ∧
    inStep.waitWord ctx (waiting 6 1) = some 1 ∧ descData (.appendKv ctx (desc 6 1)) inStep coh0 ∧
    ((inStep.wake 0 4).waitFor 1 1 (tileHome 0) 4).1 = .waiting ∧ (((stepWord fullWord).wake 0 4).waitFor 1 1 (tileHome 0) 4).1 = .ready ∧
    (((stepWord poisoned).wake 0 4).waitFor 1 1 (tileHome 0) 4).1 = .abandoned := by
  unfold State.takesUp descData; decide +kernel

/-- FETCH of one page of section 2, and an ARRAY operation of one column on stream 5. -/
def fetch : BitVec 512 := desc 4 1 [(128, 13, 5), (160, 16, 2), (224, 32, 1)]
def stage : BitVec 512 := desc 4 2 [(160, 16, 2), (224, 32, 1)]
def matmul : BitVec 512 := desc 1 1 [(128, 13, 5), (8 * 0x1C, 24, 32), (8 * 0x20, 13, 1), (8 * 0x20 + 16, 5, 1), (8 * 0x24 + 16, 3, 4)]

/-- The model's window slot filled with layer 0, and streams bound on tile 0. -/
def filled (ss : List Stream) : State := { inStep with
  models := running.models.set 0 { model with load := some { load with window := [some 0] } }
  tiles := inStep.tiles.set 0 { inStep.tiles[(0 : Fin 4)] with streams := ss } }

def stream (kind : Nat) : Stream :=
  { id := 5, model := 0, sec := 2, start := 0, len := 4096, staged := 0, spAddr := 0, rsLoad := false, kind := kind, layer := 0
    rsPending := decide (kind = 3), rsIndex := 0, rsCount := 2 }

theorem witness_StreamsAndArray : (filled []).starts ctx fetch 3 coh0 ∧ descData (.fetchStream ctx fetch) (filled []) coh0 ∧
    (filled [stream 0]).starts ctx fetch 3 coh0 ∧ (filled [stream 0]).fetchReady ctx (fetchOf fetch) = none ∧
    ((filled [stream 0]).tiles[(0 : Fin 4)].streams.any fun x => decide (x.id = (fetchOf fetch).stream)) = true ∧
    inStep.starts ctx fetch 3 coh0 ∧ inStep.fetchReady ctx (fetchOf fetch) = some 0 ∧ coh0.stall = none ∧
    (filled []).fetchReady ctx (fetchOf stage) = none ∧ (filled []).fetchEmpty 0 (fetchOf stage) = false ∧
    (filled []).fetchOutside 0 0 (fetchOf stage) = false ∧
    (let own (s : State) := s.tiles[(0 : Fin 4)].streams.find? fun x => decide (x.id = (arrayOf matmul).stream) && decide (x.model = 0)
     own (filled []) = none ∧ own (filled [stream 0]) = some (stream 0) ∧ own (filled [stream 1]) = some (stream 1)) ∧
    { stream 0 with len := 64 }.len < (arrayOf matmul).streamBytes false ∧ (arrayOf matmul).streamBytes false ≤ (stream 0).len ∧
    (filled [stream 0]).starts ctx matmul 0 coh0 ∧ (∀ x ∈ [stream 0], x.id = (arrayOf matmul).stream → x = stream 0) ∧
    (filled [stream 0]).tiles[(0 : Fin 4)].chunks = [] ∧ dChain matmul = false ∧ (arrayOf matmul).imp = false ∧ (arrayOf matmul).fold = 1 ∧
    (arrayOf matmul).epi ≠ 0 ∧
    (let own (s : State) := s.tiles[(0 : Fin 4)].streams.find? fun x => decide (x.id = (5 : Fin 8192).val)
     own (filled []) = none ∧ own (filled [stream 3]) = some (stream 3)) ∧
    (stream 0).rsPending = false ∧ (stream 3).rsPending = true ∧ (filled [stream 3]).load? 0 = some { load with window := [some 0] } := by
  unfold State.starts State.takesUp descData; decide +kernel

/-- A sampled row with a token, and its candidates. -/
def sampledRow : Sampled :=
  { model := 0, cohort := 0, row := 0, kept := [(9, 0)], sum := 0, token := some 9, logits := [], lse := 0, fault := 0 }

def candidates : Cand := { model := 0, cohort := 0, row := 0, cands := [(9, 0x3F800000)], lse := 0, nan := 0 }

def sampling : State := { inStep with sampled := [sampledRow], cands := [candidates] }

theorem witness_VectorAndLoop : sampling.starts ctx (desc 2 1) 1 coh0 ∧ dField (desc 2 1) 0x14 0 16 = 0 ∧ sampling.starts ctx (desc 7 1) 1 coh0 ∧
    coh0.rows[(0 : Fin 32)].sample = true ∧ sampling.homeRow coh0 0 = true ∧
    sampling.cands.find? (fun x => decide (x.model = 0) && decide (x.cohort = 0) && decide (x.row = 0)) = some candidates ∧
    sampling.seq? coh0.rows[(0 : Fin 32)].handle = some seq0 ∧ polGreedy seq0.policy = true ∧
    (∀ y ∈ candidates.cands, (fp32 y.2).isNan = false) ∧ hasTree coh0 seq0.handle = false ∧ sampling.rootRows coh0 [0] = [0] ∧
    sampling.sampled? 0 0 0 = some sampledRow ∧ sampledRow.fault = 0 ∧ sampledRow.token = some 9 ∧ seq0.causes = [] ∧ seq0.stopped = none ∧
    sampling.sliceOf 0 = some slice ∧ slice.members = [0] ∧ sampling.address = 0 := by
  unfold State.starts State.takesUp; decide +kernel

/-- The cohort with the sets of three tiles come to Prism. -/
def three : Cohort := { coh0 with prismIn := [(1, desc 3 1), (2, desc 3 1), (3, desc 3 1)] }
def prismStep (k : Cohort) : State := { inStep with cohorts := [k] }

theorem witness_PrismSets : (prismStep coh0).starts ctx (desc 3 1) 2 coh0 ∧ (prismStep three).starts ctx (desc 3 1) 2 three ∧
    (prismStep three).starts ⟨1, 0, 0⟩ (desc 3 1) 2 three ∧ (three.prismIn.any fun e => decide (e.1 = 1)) = true ∧
    (three.prismIn.any fun e => decide (e.1 = 0)) = false ∧ coh0.prismIn.length < 3 ∧ three.prismIn.length = 3 ∧
    (prismStep three).relayMissing three (desc 3 1) = false ∧ ((three.prismIn ++ [((0 : Fin 4), desc 3 1)]).map (·.1)).Nodup ∧
    (let s := { prismStep three with seqs := [{ seq0 with relayMap := [1] }] }
     s.starts ctx (desc 3 1) 2 three ∧ s.relayMissing three (desc 3 1) = true) := by
  unfold State.starts State.takesUp; decide +kernel

/-- EXCHANGE of 64 bytes a row to this package itself, with its FILL. -/
def exch (op : Nat) : BitVec 512 := desc 5 op [(80, 2, 2), (8 * 0x18, 20, 64)]

/-- A drift monitor judged for the cohort's step. -/
def judged : State := { inStep with
  models := running.models.set 0 { model with load := some { load with monitors := [{ last := [(0, 1, true)] }] } } }

theorem witness_Exchanges : inStep.starts ctx (exch 3) 5 coh0 ∧ inStep.exchDest 0 (exchOf (desc 5 3 [(8 * 0x1C, 16, 1)])) = none ∧
    inStep.starts ctx (desc 5 3 [(8 * 0x1C, 16, 1)]) 5 coh0 ∧ inStep.exchDest 0 (exchOf (exch 3)) = some (slice, 0) ∧ inStep.address = 0 ∧
    judged.starts ctx (exch 1) 5 coh0 ∧ judged.exchDest 0 (exchOf (exch 1)) = some (slice, 0) ∧ judged.judged? ctx coh0 0 = some true ∧
    dDoneMode (exch 3) = 2 := by unfold State.starts State.takesUp; decide +kernel

/-- APPEND of one group. -/
def append : BitVec 512 := desc 6 1 [(8 * 0x1C + 8, 8, 1)]

theorem witness_Appends : inStep.starts ctx append 4 coh0 ∧ (liveRows coh0 (effMask coh0 append)).any (inStep.copying coh0) = false ∧
    inStep.geometry? 0 = some geom ∧ geom.headDim % 64 = 0 ∧ (dLayer append).toNat < geom.layersP ∧
    (appendOf append).gFirst + (appendOf append).gCount ≤ geom.groupsP ∧ geoFrame geom < 2 ^ 40 ∧ seq0.page? (row0.position.toNat / 256) = some 0 ∧
    (let s := { inStep with seqs := [copied] }
     s.starts ctx append 4 coh0 ∧ (liveRows coh0 (effMask coh0 append)).any (s.copying coh0) = true) := by
  unfold State.starts State.takesUp; decide +kernel

/-! ## The tiers -/

/-- A cohort stalled on layer 0, and the window free. -/
def stalled : Cohort := { coh0 with stall := some (0, 0) }

theorem witness_Tiers : running.load? 1 = none ∧ running.load? 0 = some load ∧
    ((running.windowLayers 0)[load.nextFill % max 1 (running.windowLayers 0).length]? = some 0) ∧ load.window.contains (some 0) = false ∧
    load.window.contains none = true ∧ (filled []).load? 0 = some { load with window := [some 0] } ∧
    { load with window := [some 0] }.window.contains (some 0) = true ∧ inStep.cohort? 0 0 = some coh0 ∧ coh0.stall = none ∧
    (prismStep stalled).cohort? 0 0 = some stalled ∧ stalled.stall = some (0, 0) ∧ Key.own 0 ∈ rowHandles stalled 0xFFFFFFFF ∧
    (prismStep stalled).seq? (.own 0) = some seq0 ∧ seq0.state ≠ .ended ∧ seq0.causes = [] ∧
    (let s := slotIn .installed
     s.load? 1 = none ∧ (s.windowLayers 1) = []) := by decide +kernel

def block (n : Nat) (erase : Nat) (us : List FlashUnit) : Block :=
  { id := n, target := 0, erase := erase, reads := 3, bad := false, erased := us.isEmpty, erasing := none, units := us }

def unit : FlashUnit := { model := 0, sec := 2, idx := 0, mirror := false }

/-- Flash with a block in use, an erased one and one long worn. -/
def flashed : State := { running with
  flash := { targets := Vector.replicate 32 8, blocks := [block 0 1 [unit], block 1 0 [], block 2 300 []], refreshQueue := [0] }
  models := running.models.set 0 { model with quarantine := [(2, 0)] } }

theorem witness_FlashTier : flashed.flash.unitBlock 0 2 0 false = some 0 ∧ flashed.mirrored 0 2 = false ∧
    flashed.models[(0 : Fin 64)].quarantine.contains (2, 0) = true ∧ flashed.models[(0 : Fin 64)].quarantine.contains (2, 1) = false ∧
    flashed.flash.block? 0 = some (block 0 1 [unit]) ∧ (block 0 1 [unit]).held = true ∧ (block 1 0 []).held = false ∧
    flashed.flash.refreshQueue.contains 0 = true ∧ flashed.flash.canTake 0 1 = true ∧ flashed.flash.canTake 0 0 = false ∧
    flashed.flash.refreshQueue.contains 1 = false ∧
    256 < (flashed.flash.eraseCounts 0).foldl max 0 - (flashed.flash.eraseCounts 0).foldl min ((flashed.flash.eraseCounts 0).headD 0) ∧
    (running.flash.eraseCounts 0).foldl max 0 - (running.flash.eraseCounts 0).foldl min ((running.flash.eraseCounts 0).headD 0) ≤ 256 ∧
    (block 0 1 [unit]).target = 0 ∧
    (∀ x ∈ flashed.flash.blocks, x.target = 0 → x.held = true → x.erasing = none → (block 0 1 [unit]).erase ≤ x.erase) ∧
    (∀ x ∈ flashed.flash.blocks, x.target = 0 → x.erased = true → x.bad = false → x.erase ≤ (flashed.flash.blockOr 2).erase) ∧
    flashed.flash.canTake 0 2 = true ∧ { block 0 1 [unit] with erasing := some 1 }.erasing = some 1 ∧
    (slotIn .erasing).models[(1 : Fin 64)].state = .erasing := by decide +kernel

/-! ## The whole block -/

theorem witness_StepRunsTheFront : running.pending = [] ∧ running.pins.aonRefclk = true ∧ bit running.pins.rails 0 = true := by decide +kernel

theorem test_step_runs_front : step { running with pending := [.pldmCapSet 700, .bmeClear 0] } =
    exec (.pldmCapSet 700) { running with pending := [.bmeClear 0] } := rfl

theorem witness_Completion : Instr.wellFormed (.vAdd 0 (vf 1 2 3 0xFF)) = true ∧ vfOk 0x10 (vf 1 2 3 4) = false ∧
    vfOk 0x01 (vf 1 2 0 0xFF) = false ∧ vfOk 0x02 (vf 0 0x80 0 1) = false ∧ vfOk 0x20 (vf 0x50 2 3 0xFF) = false ∧ (vf 1 2 3 0xFF).sb ≠ 0xFF ∧
    (vf 0x50 0x50 0x50 0xFF).dst = 0x50 ∧ (vf 0x8F 2 0xFF 0xFF).dst < 0x90 := by decide

theorem witness_Frame : ∃ t, exec (.bmeClear 0) running = .next t ∧ step { running with pending := [.bmeClear 0] } = .next t :=
  ⟨_, rfl, rfl⟩

theorem witness_StepKeepsInv : running.Inv ∧ ∃ t, step { running with pending := [.bmeClear 0] } = .next t := by
  refine ⟨?_, ⟨_, rfl⟩⟩
  unfold State.Inv; decide +kernel

/-! ## Further clauses -/

theorem witness_VecBlocks : let v := vecAt 32
    let f := vf 1 0x60 0 0xFF 1 2 0
    v.touching f false = [] ∧ v.vl ≠ 0 ∧ v.rowMasked = false ∧ vfOk 0x01 f = true ∧ vfOk 0x02 (vf 0xFF 0x60 0 1 1 2 0) = true := by
  decide +kernel

theorem noFree (ws : List Watch) (h : ∀ id, id < 16384 → watch id false ∈ ws) :
    ¬∃ id, 1024 ≤ id ∧ id < 16384 ∧ ∀ k ∈ (wordAt 0 ws).sync.watches, k.id ≠ id := by
  rintro ⟨id, _, hi, g⟩
  exact g (watch id false) (h id hi) rfl

/-- Every watch entry taken. -/
theorem witness_SyncNoWatch : ∃ s : State, wPoisoned (s.word 5) = false ∧ wFull (s.word 5) = false ∧
    ¬∃ id, 1024 ≤ id ∧ id < 16384 ∧ ∀ k ∈ s.sync.watches, k.id ≠ id :=
  ⟨wordAt 0 ((List.range 16384).map fun n => watch n false), rfl, rfl,
    noFree _ fun _ hi => List.mem_map.2 ⟨_, List.mem_range.2 hi, rfl⟩⟩

theorem witness_SyncRetries :
    let s := fun (x : BitVec 64) => { wordAt x with sync := { (wordAt x).sync with retries := [retry 0, retry 1], held := [heldFill 0, heldFill 1] } }
    wPoisoned ((s poisoned).word 5) = true ∧ (∃ id, 1024 ≤ id ∧ id < 16384 ∧ ∀ k ∈ (s 0).sync.watches, k.id ≠ id) ∧
    (retry 1).hung = false ∧ (retry 1).limit.toNat < (2001 : BitVec 64).toNat ∧ (heldFill 0).hung = false ∧
    (heldFill 0).limit.toNat < (2001 : BitVec 64).toNat ∧ (s 0).sync.held[2]? = none ∧
    (heldFill 0).v < (({ s 0 with sync := { (s 0).sync with steps := [(0, 1)] } } : State).stepOf 0 0).extractLsb' 0 48 ∧
    (∀ r, [retry 1][0]? = some r → r.op ≠ 0) ∧ ∀ r, [retry 0][0]? = some r → r.op = 0 := by
  refine ⟨by decide +kernel, ⟨1024, by decide +kernel⟩, by decide +kernel, by decide +kernel, by decide +kernel, by decide +kernel,
    by decide +kernel, by decide +kernel, ?_, ?_⟩ <;> simp [retry]

theorem witness_Rings_quiet : rings.held = [] ∧ rings.seqs = [] ∧ ∀ (k : SetIx) (n : RingIx), (4 : BitVec 12).toNat ≠ 64 * k.val + 8 * n.val := by
  decide +kernel

theorem witness_LinkLost_enabled : ready.pins.pcieUp = true ∧ ready.fns[(0 : Fin 16)].enabled = true ∧ ready.fns[(0 : Fin 16)].disabling = false ∧
    ready.fns[(0 : Fin 16)].flrActive = false ∧ ready.quietFor 0 ∧
    ∀ g : Fn, g ≠ 0 → ready.fns[g].enabled = false ∧ ready.fns[g].disabling = false := by unfold State.quietFor; decide +kernel

/-- A record of size bytes with its header and its tag. -/
def sealedRecord (s : State) (q : Seq) (page : Nat) : Bytes :=
  let size := s.frameSize q.model
  let head := swapHeader q page (s.ownMember q.model) (q.counter0 + BitVec.ofNat 64 page) size
  head ++ List.replicate size 0 ++ (gcmTag (s.swapKeyBytes q.handle.fn) (s.swapIv (q.counter0 + BitVec.ofNat 64 page)) head
    (List.replicate size 0) ++ List.replicate 48 0)

theorem length_toLE (n x : Nat) : (toLE n x).length = n := by
  induction n generalizing x <;> simp [toLE, *]

theorem recordOk_sealed (s : State) (q : Seq) (page : Nat)
    (h : ∀ k iv a c, (k = s.swapKeyBytes q.handle.fn ∧ iv = s.swapIv (q.counter0 + BitVec.ofNat 64 page)) → (gcmTag k iv a c).length = 16) :
    s.recordOk q page (sealedRecord s q page) = true := by
  have hh : (swapHeader q page (s.ownMember q.model) (q.counter0 + BitVec.ofNat 64 page) (s.frameSize q.model)).length = 64 := by
    simp [swapHeader, length_toLE]
  simp [State.recordOk, sealedRecord, hh, h, List.take_append, List.drop_append] <;> omega

theorem witness_RecordOk : ∃ r, (swapState (swapping .resuming 7)).recordOk (swapping .resuming 7) 0 r = true := by
  refine ⟨_, recordOk_sealed _ _ 0 ?_⟩
  rintro k iv a c ⟨rfl, rfl⟩
  have e : (aesBlock (aesKeys ((swapState (swapping .resuming 7)).swapKeyBytes (swapping .resuming 7).handle.fn))
      ((swapState (swapping .resuming 7)).swapIv ((swapping .resuming 7).counter0 + BitVec.ofNat 64 0) ++ [0, 0, 0, 1])).length = 16 := by
    decide +kernel
  rw [gcmTag, List.length_zipWith, e]
  simp [toBE, length_toLE]

/-- R380: the key of 32 bytes 5 for VF 1, sealed with OAEP under an exponent of 1, which leaves the encoded message as it is. The
bytes come from PKCS #1 v2.2 with another program's SHA-512. -/
def sealedKey : Bytes := toBE 64 0x001B25F8538F44971A4E42057C967B6F622300F548BF194CF1728C797B9E49B0939061C7BE04B088626D19517631BDD7D560B780EF814AC56EE957B34F49C5F6 ++
  toBE 64 0xB623AB41963C464CA1DB25FB79820EE124AF7AEB15C7CFBA0EAECD28678A45987D15439F18FDCB82E146C122C0996D151A2AC8E02397979348F6C76B9E19741A ++
  toBE 64 0x51EE8C9DF03622746AFB105B4D2EC95D2D0A23A9797D4D07441BB91623E6D0B2994FACDF623899A455557259DF13873A707A6D0C333DDBA0031A3A365E15F07F ++
  toBE 64 0xD0312F734B28D14353D9BD30532B54178BFAA194485254CFE86022C3231276E493DBC9C11922F6E5025403E2364D449CE4208D53E90016F0FA71BA17A15E512F ++
  toBE 64 0x04AE317B3F3D506322A13620A718D0E2C0171BB5225CAD7FA6EA4756332D176CB9B159E8C8C9F1A6C5ACFB70063FC5FA290C836626EFBC65A65B7E6176215CED ++
  toBE 64 0x2465EE9C23ED430AC7CC83F9E07F37A5C33A2466407362CE608BB536B71540010EC6E15BF17A7B5317C446CA185611FF84B33E873796686EA89F045A8F820318 ++
  toBE 64 0x7155F75B04AECC30BC3E07872B96403461A5C0FC394CEC51066D1E21DE4FC3F14901FDCEF77C54A922DDF4A5E2819DB8AD4D13F6E9AAC85061FF5A5D196D7398 ++
  toBE 64 0xE0BB79AD922213CDAE8BBB6BDA94304E769403AD0BD7C74A2F1372283530CB5464A385AA31323CC84E395FBE59079AFFED3BD51E25CB1400061F641294206312

def keyed : State := { vfTenant with um := { vfTenant.um with wrapN := 2 ^ 4096 - 1, wrapD := 1 } }

theorem witness_KeyInstall : keyed.unwrapKey sealedKey 1 false = some (BitVec.ofNat 256 (leNat (List.replicate 32 5))) := by decide +kernel

/-- R366: a firmware image of 8 KiB signed with PSS under an exponent of 1. -/
def fwSig : Bytes := toBE 64 0x164C10476065BE10551D2251000796E65488CA797926171B5438FA48D5F9661C31CBB55A25A1D9E1F5B69C08AC3C933181AD3DA69A081412B19B61C347E79C32 ++
  toBE 64 0xA8C076965C3136CF4A9535DE7B23CE67B69E03CA6455A3F071A69D43AF28C7DA82F3E17719074CBB9271EDB5C9D021A730B624C23364235FF9F85A705DF258C5 ++
  toBE 64 0x4FB3CA9EC9803F8C5314856130B6F50BF99803881C8CEECB146A61E7419E3AC3B52B5FC532CEDFF3B90A3652B47AA932AB5E095F660922EFB79D241F855991EA ++
  toBE 64 0xC578E4AF2B4E5ED9E9DEAB63785957AFFA386352879E2D63D5A7C21D79473EE45A1D9C80221103C2BAECB8A588B48434BDC9B050990314B05F7736A3E79B94AB ++
  toBE 64 0x19E2EB008AD9EAD0CF61A6AD5FC38C3B84A961C50B18EC7885ABBDC290CFD6C5777B8C32C1288D97DAD58A11F4F3025817737007D84EB1E298E945099D0F8AAE ++
  toBE 64 0xB7150CD6141BF6FFC290E0B9595B43B59C4CDC7A878AEA6CFF52FEB4356187AADFFDEB7A4CB00D897E9BADFB20610454780086F23A22D8A5D1477EFF2894758B ++
  toBE 64 0x703A465392EB4A4F6CFAD1C92CEC3AAB254AA10C5EC1EED12BEDA8E47CE2ABDED2669C85E6987EA947725F31925047BE0EAB26D0DF7321D2ECA11EC2725FBE2D ++
  toBE 64 0x49B19B83E182B30CBC0B9E0467C5C172B64B90F775D5B39678A09E07CECEB9FD16D7DEEEE7FE438AC4E50F2BFC1018E83B3C28BC5DC805064D941E7155CEC4BC

def fwImage : Bytes := toLE 4 0x4F514657 ++ (List.replicate 12 0 ++ (toLE 4 8192 ++ (List.replicate 1004 0 ++ (List.replicate 512 0xFF ++ ([0, 0, 0, 1] ++
  (List.replicate 508 0 ++ (fwSig ++ (List.replicate 1536 0 ++ List.replicate 4096 0))))))))

def fwKey : BitVec 512 := 0xA2F447A0C4F5D6B93B2EBA250AFCA2A97C43D41CE3A924ABF29166DE41FC84A7B6C343730BB1381F9566358BFABF081E8E85D9C15135FB34D9A0CCC21AB113E8

/-- The signed part of the image, and the same as SHA-512 pads it: 49 blocks. -/
def fwMsg : Bytes := fwImage.take 0x800 ++ (fwImage.take (leAt fwImage 0x10 4)).drop 0x1000

def fwPad : Bytes := fwMsg ++ [0x80] ++ List.replicate ((239 - fwMsg.length % 128) % 128) 0 ++ toBE 16 (8 * fwMsg.length)

/-- The hash values after 17, 33 and 49 blocks. -/
def fwMid1 : List (BitVec 64) := [0xE3961BBF2E855C8C, 0x51A305095F0E6B68, 0xA3663A6E89D46E8C, 0x2FEB461B79EF579C, 0x7711A0CD7941E292, 0xAC2470DD45E05B56, 0xD42FA9BEB27192D0, 0xD942D26B25E6EA7B]

def fwMid2 : List (BitVec 64) := [0xD1B330BB17FFDD94, 0xABA27DEC348A7726, 0x3EB0E56371F0314F, 0x8BD9EF79AC5C390C, 0x18A4841A65FD5A98, 0x7F5D35F2DB45D86A, 0x59EA60B503F7D152, 0x1770324027138F32]

def fwEnd : List (BitVec 64) := [0xAF0E2239FB6A2FF9, 0xE5AEF69CD6EB9912, 0x71B77E0F268B50C2, 0xEF101A34C296015A, 0x10539980963FA781, 0x80636AB6B15A61BF, 0xB8C856A55D25FA9B, 0x32DE824A21D4726B]

theorem shaBlocks_add (a b : Nat) (h : List (BitVec 64)) (x : Bytes) :
    shaBlocks (a + b) h x = shaBlocks b (shaBlocks a h x) (x.drop (128 * a)) := by
  induction a generalizing h x with
  | zero => simp [shaBlocks]
  | succ n ih => rw [Nat.succ_add, shaBlocks, ih, shaBlocks, List.drop_drop]; congr 2; omega

theorem fwBlocks1 : shaBlocks 17 shaInit fwPad = fwMid1 := by decide +kernel

theorem fwBlocks2 : shaBlocks 16 fwMid1 (fwPad.drop (128 * 17)) = fwMid2 := by decide +kernel

theorem fwBlocks3 : shaBlocks 16 fwMid2 (fwPad.drop (128 * 33)) = fwEnd := by decide +kernel

theorem sha512_padded (m p : Bytes) (h : p = m ++ [0x80] ++ List.replicate ((239 - m.length % 128) % 128) 0 ++ toBE 16 (8 * m.length)) :
    sha512 m = (shaBlocks (p.length / 128) shaInit p).flatMap fun w => toBE 8 w.toNat := by
  subst h; rfl

theorem fwHash : sha512 fwMsg = fwEnd.flatMap fun w => toBE 8 w.toNat := by
  have h : fwPad.length / 128 = 17 + 16 + 16 := by decide +kernel
  rw [sha512_padded fwMsg fwPad (by rw [fwPad]), h, shaBlocks_add, shaBlocks_add, fwBlocks1, fwBlocks2, fwBlocks3]

theorem fwVerifies_of {u : Umathal} {b m key : Bytes} (hk : (b.drop 0x400).take 516 = key)
    (hm : b.take 0x800 ++ (b.take (leAt b 0x10 4)).drop 0x1000 = m) (h : (fwHeaderOk b && decide (digestOf key = u.keyHash)) = true)
    (v : decide (u.fusedSvn ≤ leAt b 8 4 % 64) = true)
    (p : pssVerify (beNat (key.take 512)) (beNat (key.drop 512)) ((b.drop 0x800).take 512) m = true) : u.fwVerifies b = true := by
  subst hk hm
  simp only [Umathal.fwVerifies, h, v, p, Bool.and_self]

/-- The embedded key: a modulus of 2^4096 - 1 and an exponent of 1. -/
def fwKeyBytes : Bytes := List.replicate 512 0xFF ++ [0, 0, 0, 1]

theorem witness_Firmware : ({ keyHash := fwKey } : Umathal).fwVerifies fwImage = true := by
  refine fwVerifies_of (key := fwKeyBytes) (m := fwMsg) (by decide +kernel) (by rw [fwMsg]) (by decide +kernel) (by decide +kernel) ?_
  unfold pssVerify
  rw [fwHash]
  decide +kernel

theorem witness_Install_refusals :
    installCheck { goodImage with shape := { shape with headDim := 7 } } 20480 0 = some (0x20, 0xFFFF, none) ∧
    (let im := { goodImage with tensors := [{ sec := 2, offset := 0, fmt := 9, group := 32, zp := false, cells := 1, beats := 1 }] }
     installCheck im 20480 0 = none ∧ writeCheck im 0 = some 2 ∧ imageMiB im (inPart 0) ≤ (slotIn .empty).flash.freeMiB) ∧
    (slotIn .empty).ownPart goodImage = 0 := by decide +kernel

theorem witness_Requests_more : (withSeq seq0).names sub 0 seq0 ∧ seq0.pendCancel = [] ∧ (seqIn .running).pendPreempt = none ∧
    (withSeq (seqIn .ended)).seq? (.own 0) = some (seqIn .ended) ∧ (running.prefixKey? 0 0).isSome = false ∧
    (seqIn .running).chunks = [] := ⟨names_seq0 _ rfl, by decide +kernel, by decide +kernel, by decide +kernel, by decide +kernel, by decide +kernel⟩

theorem witness_MessagesIn_wideFirst : let s := { running with wideSeen := [(1, 7)] }
    s.wideFirst head = true ∧ running.wideFirst head = false ∧ running.wideFirst { head with discard := true } = false ∧
    ((s.inbound? head).any fun x => x.mark) = false ∧ s.wideFirst { head with discard := true } = true ∧
    (let u := { s with inbound := [inbound false false] }
     (u.inbound? { head with discard := true }).isSome = true ∧ u.wideFirst { head with discard := true } = true) ∧
    ({ head with src := 0, dest := 3 } : Head).src = running.address ∧ ({ head with src := 0, dest := 3 } : Head).dest ≠ running.address := by
  decide +kernel

/-- The sequence of package 3, homed there, in a slice that it leads. -/
def peerSeq : Seq := { seq0 with handle := .far 0 1 5 }

def withPeer : State := { inStep with slices := [{ slice with members := [0, 3] }], seqs := [seq0, peerSeq] }

def node : Node := { id := 4, hash := 0, parent := none, frame := 0, tenant := 0, cross := false, lastUse := 0, tokens := [] }

theorem witness_StepsFromPeers_more : running.cohort? 0 0 = none ∧ (withPeer.keyOf 0 1 5).isOwn = false ∧
    withPeer.seq? (withPeer.keyOf 0 1 5) = some peerSeq ∧ (inStep.modPool 0 fun p => { p with nodes := [node] }).node? 0 4 = some node ∧
    (inStep.modPool 0 fun p => { p with nodes := [node] }).cohort? 0 0 = some coh0 ∧
    { inStep with cohorts := [], nextCohorts := [coh0] }.nextCohorts = [coh0] ∧ coh0.model = 0 ∧ coh0.index = 0 ∧
    (∀ x ∈ inStep.nextCohorts, ¬(x.model = (0 : SlotIx) ∧ x.index = (0 : CohIx))) := by decide +kernel

theorem witness_RelayTraffic_more : running.spans = [] ∧ running.undelivered = [] ∧ running.cohorts = [] ∧ (∀ k ∈ inStep.cohorts, k.prismIn.length ≠ 4) ∧
    running.seq? (.own 0) = none ∧ running.takeFrames 0 0 0 (List.range 256) = none ∧
    { seq0 with spill := some 1 }.relayMap.length = 0 := by decide +kernel

/-- The step of a member that is not the leader over, and the record of the next one there. -/
def member : State := { ended with slices := [{ slice with members := [5, 0] }], nextCohorts := [{ coh0 with step := 2 }] }

theorem witness_StepsAndPages_member : member.ownMember 0 ≠ 0 ∧ member.load? 0 = some load ∧ member.isReady = true ∧ member.loaded 0 = true ∧
    (member.nextCohorts.find? fun k => decide (k.model = 0) && decide (k.index = 0)) = some { coh0 with step := 2 } ∧
    { member with nextCohorts := [] }.nextCohorts = [] ∧ { ended with slices := [] }.slices = [] ∧
    { ended with slices := [] }.loaded 0 = true := by decide +kernel

/-- Engine 4 of tile 0 held by a DONE that is repeated, and by another descriptor at its front. -/
def heldBack : State := { inStep with
  tiles := inStep.tiles.set 0 { inStep.tiles[(0 : Fin 4)] with front := Vector.replicate 8 (some (0, 0, 1, desc 6 1 [(88, 8, 1)])) } }

theorem witness_Descriptors_held : heldBack.frontHeld ctx (desc 6 1) 4 = true ∧ inStep.frontHeld ctx (desc 6 1) 4 = false ∧
    { inStep with sync := { inStep.sync with retries := [{ retry 0 with unitHome := tileHome 0, engine := 4 }] } }.engineHeld 0 4 none = true ∧
    descHere (.appendKv ctx (desc 6 1)) inStep ∧ descHere (.prismAttend ctx (desc 3 1)) (prismStep coh0) := by
  refine ⟨by decide +kernel, by decide +kernel, by decide +kernel, trivial, ?_⟩
  intro k h
  have e : (prismStep coh0).cohort? 0 0 = some coh0 := by decide +kernel
  cases Option.some.inj (h.symm.trans e)
  decide +kernel

/-- An operation of another cohort at the array's front whose epilogue reads the first rescale entry. -/
def reading : State := { inStep with
  tiles := inStep.tiles.set 0 { inStep.tiles[(0 : Fin 4)] with
    front := Vector.replicate 8 (some (0, 3, 1, desc 1 1 [(8 * 0x20, 13, 1), (8 * 0x24 + 16, 3, 1)])), streams := [stream 3] } }

theorem witness_Streams_more : reading.rescaleHeld 0 (stream 3) = true ∧ (filled [stream 0]).boundStream ctx (arrayOf matmul) = some (stream 0) ∧
    (filled []).boundStream ctx (arrayOf matmul) = none ∧ (filled [stream 1]).boundStream ctx (arrayOf matmul) = some (stream 1) ∧
    (filled [stream 3]).rescaleHeld 0 (stream 3) = false ∧ descData (.fetchStage ctx stage) (filled []) coh0 ∧
    ((filled [stream 0]).activations ctx matmul (arrayOf matmul) (maskRows (effMask coh0 matmul)) false).1 ≠ [] := by
  unfold descData; decide +kernel

theorem routesOpen_of {s : State} {m : SlotIx} {x : Slice} (h : s.undelivered = []) (hx : s.sliceOf m = some x)
    (ha : ∀ a ∈ x.members, a = s.address ∨ (s.nextHop a x.members).isSome = true) : s.routesOpen m := by
  refine ⟨h, fun y hy => ?_⟩
  rw [hx] at hy
  cases hy
  exact ha

theorem witness_RoutesOpen : sampling.routesOpen 0 ∧ inStep.routesOpen 0 := by
  have h (a : BitVec 16) (ha : a ∈ slice.members) : a = sampling.address ∧ a = inStep.address := by
    rw [List.mem_singleton.1 ha]; decide +kernel
  exact ⟨routesOpen_of (x := slice) (by decide +kernel) (by decide +kernel) fun a ha => .inl (h a ha).1,
    routesOpen_of (x := slice) (by decide +kernel) (by decide +kernel) fun a ha => .inl (h a ha).2⟩

theorem witness_Loop_more : seq0.causes = [] ∧
    (sampleRow seq0.policy 0 0 0 0 false { candidates with nan := 1 } []).1.fault ≠ 0 ∧
    { seq0 with causes := [(0x10, 0)] }.causes ≠ [] ∧ coh0.rows[(0 : Fin 32)].handle = .own 0 := by
  decide +kernel

theorem witness_Exchanges_more : inStep.judged? ctx coh0 0 = none ∧
    ({ inStep with models := judged.models.set 0 { model with load := some { load with monitors := [{}] } } } : State).judged? ctx coh0 0 = none ∧
    ({ inStep with models := judged.models.set 0 { model with load := some { load with monitors := [{}] } } } : State).monitor? 0 0 = some {} := by
  decide +kernel

theorem witness_Prism_empty : ∃ p : PRow, p.nan = false ∧ p.inf = false ∧ p.seen = false := ⟨{ row := 0, head := 0, q := [] }, by decide +kernel⟩

theorem none_of {α : Type} {o : Option α} {p : α → Prop} (h : o = none) : ∀ k, o = some k → p k := by
  subst h
  rintro _ ⟨⟩

theorem witness_Tiers_more : (∀ k, running.cohort? 0 0 = some k → k.stall = none) ∧ (Key.own 0).isOwn = true ∧ seq0.state ≠ .ending ∧
    seq0.lastOut = false ∧ seq0.pages = [0] ∧ peSwapped 0 = false ∧ seq0.model = 0 := by
  refine ⟨none_of ?_, ?_⟩ <;> decide +kernel

end Sys2Proof.Tests
end

section
/-!
PROOFS. The stages of bring-up from AON to READY (R4, R393, R395): what each stage's command leaves, and O22.
-/
namespace Sys2Proof.Machine

/-! ## Loops that visit each element of a vector once -/

/-- A loop over indices leaves an element whose index it does not visit. -/
theorem foldl_get_of_not_mem {α : Type} {n : Nat} {f : State → Fin n → State} {v : State → Vector α n}
    (other : ∀ (x : State) (i j : Fin n), j ≠ i → (v (f x i))[j] = (v x)[j]) {i : Fin n} :
    ∀ (r : List (Fin n)) (x : State), i ∉ r → (v (r.foldl f x))[i] = (v x)[i]
  | [], _, _ => rfl
  | j :: r, x, h => by
    obtain ⟨hij, hr⟩ := not_or.1 (mt List.mem_cons.2 h)
    exact (foldl_get_of_not_mem other r (f x j) hr).trans (other x j i hij)

/-- In a loop that visits each index once and changes only the element it visits, what a visit makes of an element as it stood at
the start holds of it at the end. -/
theorem foldl_finRange_get {α : Type} {n : Nat} {l : List Piece} {s : State} {f : State → Fin n → State} {v : State → Vector α n}
    {P : Fin n → α → Prop} (keep : ∀ (x : State) (i : Fin n), Same l x (f x i))
    (other : ∀ (x : State) (i j : Fin n), j ≠ i → (v (f x i))[j] = (v x)[j])
    (own : ∀ (x : State) (i : Fin n), Same l s x → (v x)[i] = (v s)[i] → P i (v (f x i))[i]) (i : Fin n) :
    P i (v ((List.finRange n).foldl f s))[i] := by
  obtain ⟨before, after, hsplit⟩ := List.append_of_mem (List.mem_finRange i)
  have hnodup := List.nodup_finRange n
  rw [hsplit, List.nodup_append] at hnodup
  obtain ⟨-, hafter, hbefore⟩ := hnodup
  have hb : i ∉ before := fun h => hbefore i h i List.mem_cons_self rfl
  rw [hsplit, List.foldl_append, List.foldl_cons, foldl_get_of_not_mem other _ _ (List.nodup_cons.1 hafter).1]
  exact own _ i (Same.foldl keep (Same.refl _ _)) (foldl_get_of_not_mem other _ _ hb)

/-! ## What the plan expects -/

/-- What the plan expects on a port hangs on Umathal and the straps alone (R312 to R314). -/
theorem State.expected_congr {s t : State} (hum : t.um = s.um) (hboard : t.boot.boardId = s.boot.boardId)
    (hslot : t.boot.slotId = s.boot.slotId) (p : PortIx) : t.expected p = s.expected p := by
  unfold State.expected State.masks State.rackId
  rw [hum, hboard, hslot]

/-- Marking the ports trained leaves which of them are UP (R320). -/
theorem State.allExpectedUp_done_trained (s t : State) (g : Boot → Bool) :
    ({ t.modBoot fun b => { b with trained := g b } with pending := s.pending } : State).allExpectedUp = t.allExpectedUp := by
  unfold State.allExpectedUp
  congr 1

/-! ## AON -/

/-- R393, R438: AON with PERST_N high and no trip's hold. -/
theorem exec_aon_of_released {s : State} (hstage : s.boot.stage = .aon) (hperst : s.pins.perstN = true)
    (htrip : s.power.tripped = false) (a : BitVec 3) (b : BitVec 4) :
    exec (.aon a b) s = .next { s with
      boot := { s.boot with stage := .secureBoot, slotId := a, boardId := b }
      pins := { s.pins with rails := 0x3FF, aonRefclk := true, resetN := true, thermAlertN := true,
                            pcieUp := s.pins.pcieUp || s.pins.refclk } } := by
  change execAon a b s = _
  rw [execAon, if_pos ⟨hstage, hperst, by simp [htrip]⟩]
  rfl

theorem exec_aon_of_held {s : State} (h : s.boot.stage ≠ .aon ∨ s.pins.perstN = false ∨ s.power.tripped = true)
    (a : BitVec 3) (b : BitVec 4) : exec (.aon a b) s = .next s := by
  change execAon a b s = _
  rw [execAon, if_neg]
  · rfl
  · rintro ⟨hstage, hperst, htrip⟩
    rcases h with h | h | h
    · exact h hstage
    · simp [h] at hperst
    · simp [h] at htrip

/-! ## DRAM_TRAIN -/

/-- A flash channel has at most 8 targets (R256). -/
def atMostEight (tg : Vector (BitVec 4) 32) : Vector (BitVec 4) 32 := tg.map fun n => if n ≤ 8 then n else 8

/-- The flash tier as DRAM_TRAIN finds it, LINK_DEGRADED raised for the channels that are not at full width (R256, R260). -/
def State.flashTrained (s : State) (ch : Vector (BitVec 2) 32) (tg : Vector (BitVec 4) 32) : State :=
  (s.modFlash fun f => { f with chan := ch, targets := atMostEight tg }).flashDegraded

theorem State.flashTrained_boot (s : State) (ch : Vector (BitVec 2) 32) (tg : Vector (BitVec 4) 32) :
    (s.flashTrained ch tg).boot = s.boot :=
  State.flashDegraded_same .boot (by decide)

theorem State.flashTrained_flash (s : State) (ch : Vector (BitVec 2) 32) (tg : Vector (BitVec 4) 32) :
    (s.flashTrained ch tg).flash = { s.flash with chan := ch, targets := atMostEight tg } :=
  State.flashDegraded_same .flash (by decide)

theorem exec_dramTrain_of_other {s : State} (h : s.boot.stage ≠ .dramTrain) (p : Option (BitVec 11)) (u : Bool)
    (ch : Vector (BitVec 2) 32) (tg : Vector (BitVec 4) 32) (ok : Bool) : exec (.dramTrain p u ch tg ok) s = .next s := by
  change execDramTrain p u ch tg ok s = _
  rw [execDramTrain.eq_def, if_pos (.inl h)]
  rfl

section
variable {s : State} (hstage : s.boot.stage = .dramTrain) (hfailed : s.boot.failed = false)
include hstage hfailed

/-- R395: a pseudo-channel that fails stops bring-up. -/
theorem exec_dramTrain_failed (pc : BitVec 11) (u : Bool) (ch : Vector (BitVec 2) 32) (tg : Vector (BitVec 4) 32) (ok : Bool) :
    exec (.dramTrain (some pc) u ch tg ok) s = done s
      ((if u then s.logError 0x02 15 5 0 pc.toNat 0xFF 0 else s).bringupFails (if u then 0x11 else 0x10) (pc.setWidth 12)) := by
  change execDramTrain (some pc) u ch tg ok s = _
  rw [execDramTrain.eq_def, if_neg (by simp [hstage, hfailed])]

/-- R266, R395: with every pseudo-channel trained the catalogue decides. -/
theorem exec_dramTrain_trained (ch : Vector (BitVec 2) 32) (tg : Vector (BitVec 4) 32) (ok : Bool) :
    exec (.dramTrain none false ch tg ok) s = done s
      (if !ok && s.flash.catalogueSeq ≠ 0 then (s.flashTrained ch tg).bringupFails 0x12 0
       else (s.flashTrained ch tg).modBoot fun b => { b with stage := .linkTrain }) := by
  change execDramTrain none false ch tg ok s = _
  rw [execDramTrain, if_neg (by simp [hstage, hfailed])]
  rfl

theorem exec_dramTrain_ends (ch : Vector (BitVec 2) 32) (tg : Vector (BitVec 4) 32) (ok : Bool)
    (h : ok = true ∨ s.flash.catalogueSeq = 0) :
    ∃ u, exec (.dramTrain none false ch tg ok) s = .next u ∧ u.boot = { s.boot with stage := .linkTrain } ∧
      u.flash = { s.flash with chan := ch, targets := atMostEight tg } := by
  have hkept : ¬ (!ok && s.flash.catalogueSeq ≠ 0) = true := by
    rcases h with h | h <;> simp [h]
  rw [exec_dramTrain_trained hstage hfailed, if_neg hkept]
  have hboot := State.flashTrained_boot s ch tg
  have hflash := State.flashTrained_flash s ch tg
  generalize s.flashTrained ch tg = t at hboot hflash ⊢
  exact ⟨_, done_next _ _, congrArg (fun b : Boot => { b with stage := .linkTrain }) hboot, hflash⟩

theorem exec_dramTrain_catalogueLost (ch : Vector (BitVec 2) 32) (tg : Vector (BitVec 4) 32) (h : s.flash.catalogueSeq ≠ 0) :
    ∃ u, exec (.dramTrain none false ch tg false) s = .next u ∧
      u.boot = { s.boot with failed := true, failCode := 0x12, failArg := 0 } := by
  rw [exec_dramTrain_trained hstage hfailed, if_pos (by simp [h])]
  have hboot := State.flashTrained_boot s ch tg
  generalize s.flashTrained ch tg = t at hboot ⊢
  exact ⟨_, done_next _ _, congrArg (fun b : Boot => { b with failed := true, failCode := 0x12, failArg := 0 }) hboot⟩

end

/-! ## LINK_TRAIN -/

/-- R316, R320: the stage ends when every expected port is UP; without MREFCLK no port trains (R442). -/
theorem exec_linkTrain {s : State} (hstage : s.boot.stage = .linkTrain) (r : Vector PortReport 12) :
    ∃ u, exec (.linkTrain r) s = .next u ∧ u.boot = { s.boot with trained := s.boot.trained || u.allExpectedUp } ∧
      (s.pins.mrefclk = false → u.ports = s.ports) := by
  change ∃ u, execLinkTrain r s = .next u ∧ _
  rw [execLinkTrain, if_neg (not_not_intro hstage)]
  extract_lets t
  have hsame : Same [.fns, .ports, .slices, .out] s t := Same.ite State.trainAll_same (Same.refl _ _)
  have hboot : t.boot = s.boot := hsame .boot (by decide)
  have hports (hclk : s.pins.mrefclk = false) : t.ports = s.ports := by simp [t, hclk]
  clear_value t
  refine ⟨_, done_next _ _, ?_, hports⟩
  rw [State.allExpectedUp_done_trained]
  exact congrArg (fun b : Boot => { b with trained := b.trained || t.allExpectedUp }) hboot

theorem exec_linkTrain_of_other {s : State} (h : s.boot.stage ≠ .linkTrain) (r : Vector PortReport 12) :
    exec (.linkTrain r) s = .next s := by
  change execLinkTrain r s = _
  rw [execLinkTrain, if_pos h]
  rfl

/-- What the end of LINK_TRAIN's second makes of one port (R320). -/
def State.missedAtTimeout (s : State) (p : PortIx) : State :=
  if (s.expected p).isNone || s.portUp p || s.ports[p].missingSent then s
  else (s.modPort p fun x => { x with missingSent := true }).event 0 0x08 4
    (s.neighbourArgs p (foundPeer s.ports[p]) (missingCause s.ports[p]))

theorem State.missedAtTimeout_same {s : State} {p : PortIx} : Same [.fns, .ports, .out] s (s.missedAtTimeout p) :=
  Same.ite (Same.refl _ _) (Same.andThen State.event_same (by decide) (Same.mono State.modPort_same (by decide)))

theorem State.missedAtTimeout_ports (s : State) (p : PortIx) : (s.missedAtTimeout p).ports =
    vmod s.ports p fun x => { x with missingSent := x.missingSent || ((s.expected p).isSome && !s.portUp p) } := by
  unfold State.missedAtTimeout
  split
  next h =>
    have hkept : (s.ports[p].missingSent || ((s.expected p).isSome && !s.portUp p)) = s.ports[p].missingSent := by
      rw [Bool.or_eq_true, Bool.or_eq_true, Option.isNone_iff_eq_none] at h
      rcases h with (hnone | hup) | hsent
      · simp [hnone]
      · simp [hup]
      · rw [hsent, Bool.true_or]
    rw [vmod, hkept]
    exact (Vector.set_getElem_self ..).symm
  next h =>
    have hsent : (s.ports[p].missingSent || ((s.expected p).isSome && !s.portUp p)) = true := by
      rw [Bool.or_eq_true, Bool.or_eq_true, not_or, not_or] at h
      obtain ⟨⟨hsome, hup⟩, -⟩ := h
      rw [Option.isSome_iff_ne_none.2 fun e => hsome (Option.isNone_iff_eq_none.2 e)]
      simp [hup]
    rw [State.event_same .ports (by decide), State.modPort_ports, vmod, vmod, hsent]

theorem exec_linkTrainTimeout {s : State} (hstage : s.boot.stage = .linkTrain) :
    exec .linkTrainTimeout s = done s
      (((List.finRange 12).foldl State.missedAtTimeout s).modBoot fun b => { b with trained := true }) := by
  change execLinkTrainTimeout s = _
  rw [execLinkTrainTimeout, if_neg (not_not_intro hstage)]
  rfl

/-- R320: after its second LINK_TRAIN ends, and NEIGHBOUR_MISSING has been raised for each expected port that is not UP. -/
theorem exec_linkTrainTimeout_ends {s : State} (hstage : s.boot.stage = .linkTrain) :
    ∃ u, exec .linkTrainTimeout s = .next u ∧ u.boot = { s.boot with trained := true } ∧
      ∀ p : PortIx, u.ports[p] = { s.ports[p] with
        missingSent := s.ports[p].missingSent || ((s.expected p).isSome && !s.portUp p) } := by
  rw [exec_linkTrainTimeout hstage]
  refine ⟨_, done_next _ _, ?_, fun p => ?_⟩
  · have hboot : ((List.finRange 12).foldl State.missedAtTimeout s).boot = s.boot :=
      Same.foldl (fun _ _ => State.missedAtTimeout_same) (Same.refl _ _) .boot (by decide)
    rw [← hboot]
    rfl
  · refine foldl_finRange_get (f := State.missedAtTimeout) (v := State.ports) (P := fun p x => x = { s.ports[p] with
        missingSent := s.ports[p].missingSent || ((s.expected p).isSome && !s.portUp p) })
      (fun _ _ => State.missedAtTimeout_same) (fun x i j hj => ?_) (fun x i hx hi => ?_) p
    · rw [State.missedAtTimeout_ports, vmod_get_ne _ _ _ _ hj]
    · have hboot : x.boot = s.boot := hx .boot (by decide)
      have hexp : x.expected i = s.expected i :=
        State.expected_congr (hx .um (by decide)) (by rw [hboot]) (by rw [hboot]) i
      rw [State.missedAtTimeout_ports, vmod_get_self, hexp, State.portUp, State.portUp, hi]

theorem exec_linkTrainTimeout_of_other {s : State} (h : s.boot.stage ≠ .linkTrain) : exec .linkTrainTimeout s = .next s := by
  change execLinkTrainTimeout s = _
  rw [execLinkTrainTimeout, if_pos h]
  rfl

/-! ## READY -/

/-- READY enables a function that exists, while the PCIe link is up (R286, R393). -/
def State.enablePresent (s : State) (f : Fn) : State := if s.fns[f].present && s.pins.pcieUp then s.enableFn f else s

theorem State.enablePresent_same {s : State} {f : Fn} : Same [.fns, .sync] s (s.enablePresent f) :=
  Same.ite State.enableFn_same (Same.refl _ _)

theorem State.enablePresent_fns (s : State) (f : Fn) : (s.enablePresent f).fns =
    vmod s.fns f fun x => { x with enabled := x.enabled || (x.present && s.pins.pcieUp) } := by
  unfold State.enablePresent
  split
  next h =>
    rw [State.enableFn, State.rebindOwner_same .fns (by decide), State.modFn_fns, vmod, vmod, h, Bool.or_true]
  next h =>
    rw [vmod, Bool.eq_false_iff.2 h, Bool.or_false]
    exact (Vector.set_getElem_self ..).symm

/-- READY erases a slot that is INCOMPLETE (R271). -/
def State.eraseIncomplete (s : State) (m : SlotIx) : State := if s.models[m].state = .incomplete then s.eraseSlot m else s

theorem State.eraseIncomplete_same {s : State} {m : SlotIx} : Same [.tiles, .models, .flash] s (s.eraseIncomplete m) :=
  Same.ite State.eraseSlot_same (Same.refl _ _)

/-- A slot without a block left to be erased is EMPTY, any other as it was (R274). -/
theorem State.emptySlot_models (s : State) (m : SlotIx) : ∃ g : Model → Model, (s.emptySlot m).models = vmod s.models m g ∧
    ((g s.models[m]).state = s.models[m].state ∨ (g s.models[m]).state = .empty) := by
  unfold State.emptySlot
  split
  · exact ⟨fun x => { x with state := .empty, degraded := false, image := none, part := 0, quarantine := [], lostUnits := [] },
      rfl, .inr rfl⟩
  · exact ⟨id, (Vector.set_getElem_self ..).symm, .inl rfl⟩

/-- R271, R274: erasing a slot leaves it ERASING or, without a block, EMPTY, and leaves every other slot. -/
theorem State.eraseSlot_models (s : State) (m : SlotIx) : ∃ x : Model, (s.eraseSlot m).models = s.models.set m x ∧
    (x.state = .erasing ∨ x.state = .empty) := by
  unfold State.eraseSlot
  extract_lets seq a b
  have hmodels : (b.forgetModel m).models =
      vmod s.models m fun x => { x with state := .erasing, claim := none, flashKey := none, catalogued := false } := rfl
  obtain ⟨g, hg, hstate⟩ := (b.forgetModel m).emptySlot_models m
  rw [hmodels, vmod_get_self] at hstate
  refine ⟨_, ?_, hstate⟩
  rw [hg, hmodels, vmod, vmod_get_self, vmod, Vector.set_set]

/-- What READY makes of the slot x (R271). -/
def ErasedIfIncomplete (x y : Model) : Prop :=
  (x.state = .incomplete → y.state = .erasing ∨ y.state = .empty) ∧ (x.state ≠ .incomplete → y.state = x.state)

theorem State.eraseIncomplete_models (s : State) (m : SlotIx) : ∃ x : Model, (s.eraseIncomplete m).models = s.models.set m x ∧
    ErasedIfIncomplete s.models[m] x := by
  unfold State.eraseIncomplete
  split
  next h =>
    obtain ⟨x, hx, hstate⟩ := s.eraseSlot_models m
    exact ⟨x, hx, fun _ => hstate, absurd h⟩
  next h => exact ⟨s.models[m], (Vector.set_getElem_self ..).symm, fun e => absurd e h, fun _ => rfl⟩

/-- The functions are enabled first, then the INCOMPLETE slots are erased (R271, R286). -/
def State.enableAll (s : State) : State := (List.finRange 16).foldl State.enablePresent s

def State.eraseAllIncomplete (s : State) : State := (List.finRange 64).foldl State.eraseIncomplete s

theorem State.enableAll_same {s : State} : Same [.fns, .sync] s s.enableAll :=
  Same.foldl (fun _ _ => State.enablePresent_same) (Same.refl _ _)

theorem State.eraseAllIncomplete_same {s : State} : Same [.tiles, .models, .flash] s s.eraseAllIncomplete :=
  Same.foldl (fun _ _ => State.eraseIncomplete_same) (Same.refl _ _)

theorem State.enableAll_fns (s : State) (f : Fn) : s.enableAll.fns[f] =
    { s.fns[f] with enabled := s.fns[f].enabled || (s.fns[f].present && s.pins.pcieUp) } := by
  refine foldl_finRange_get (f := State.enablePresent) (v := State.fns) (P := fun f x => x =
      { s.fns[f] with enabled := s.fns[f].enabled || (s.fns[f].present && s.pins.pcieUp) })
    (fun _ _ => State.enablePresent_same) (fun x i j hj => ?_) (fun x i hx hi => ?_) f
  · rw [State.enablePresent_fns, vmod_get_ne _ _ _ _ hj]
  · have hpins : x.pins = s.pins := hx .pins (by decide)
    rw [State.enablePresent_fns, vmod_get_self, hpins, hi]

theorem State.eraseAllIncomplete_models (s : State) (m : SlotIx) :
    ErasedIfIncomplete s.models[m] s.eraseAllIncomplete.models[m] := by
  refine foldl_finRange_get (f := State.eraseIncomplete) (v := State.models) (P := fun m x => ErasedIfIncomplete s.models[m] x)
    (fun _ _ => State.eraseIncomplete_same) (fun x i j hj => ?_) (fun x i _ hi => ?_) m
  · obtain ⟨y, hy, -⟩ := x.eraseIncomplete_models i
    rw [hy, getElem_set_fin, if_neg hj]
  · obtain ⟨y, hy, hstate⟩ := x.eraseIncomplete_models i
    rw [hy, getElem_set_fin, if_pos rfl, ← hi]
    exact hstate

/-- What READY does besides entering its stage. -/
def State.readied (s : State) : State := s.enableAll.eraseAllIncomplete.rerouteIdle

theorem State.readied_same {s : State} : Same [.tiles, .models, .flash, .slices] s.enableAll s.readied :=
  Same.andThen State.rerouteIdle_same (by decide) (Same.mono State.eraseAllIncomplete_same (by decide))

theorem State.readied_boot (s : State) : s.readied.boot = s.boot :=
  (Same.andThen State.readied_same (by decide) (Same.mono State.enableAll_same (by decide)) :
    Same [.fns, .tiles, .models, .sync, .slices, .flash] s s.readied) .boot (by decide)

theorem State.readied_fns (s : State) (f : Fn) : s.readied.fns[f] =
    { s.fns[f] with enabled := s.fns[f].enabled || (s.fns[f].present && s.pins.pcieUp) } := by
  have hfns : s.readied.fns = s.enableAll.fns := State.readied_same (s := s) .fns (by decide)
  rw [hfns, State.enableAll_fns]

theorem State.readied_models (s : State) (m : SlotIx) :
    ErasedIfIncomplete s.models[m] s.readied.models[m] := by
  have hrouted : s.readied.models = s.enableAll.eraseAllIncomplete.models :=
    State.rerouteIdle_same (s := s.enableAll.eraseAllIncomplete) .models (by decide)
  have henabled : s.enableAll.models = s.models := State.enableAll_same (s := s) .models (by decide)
  have herased := State.eraseAllIncomplete_models s.enableAll m
  rw [← hrouted, henabled] at herased
  exact herased

theorem exec_ready {s : State} (hstage : s.boot.stage = .linkTrain) (htrained : s.boot.trained = true) :
    exec .ready s = done s (s.modBoot fun b => { b with stage := .ready }).readied := by
  change execReady s = _
  rw [execReady, if_pos ⟨hstage, htrained⟩]
  rfl

/-- R271, R286, R393: READY enables the functions that exist and erases the INCOMPLETE slots. -/
theorem exec_ready_enables {s : State} (hstage : s.boot.stage = .linkTrain) (htrained : s.boot.trained = true) :
    ∃ u, exec .ready s = .next u ∧ u.boot = { s.boot with stage := .ready } ∧
      (∀ f : Fn, u.fns[f] = { s.fns[f] with enabled := s.fns[f].enabled || (s.fns[f].present && s.pins.pcieUp) }) ∧
      ∀ m : SlotIx, if s.models[m].state = .incomplete then u.models[m].state = .erasing ∨ u.models[m].state = .empty
        else u.models[m].state = s.models[m].state := by
  rw [exec_ready hstage htrained]
  have hboot := (s.modBoot fun b => { b with stage := .ready }).readied_boot
  have hfns := (s.modBoot fun b => { b with stage := .ready }).readied_fns
  have hmodels := (s.modBoot fun b => { b with stage := .ready }).readied_models
  generalize (s.modBoot fun b => { b with stage := .ready }).readied = u at hboot hfns hmodels ⊢
  refine ⟨_, done_next _ _, hboot, hfns, fun m => ?_⟩
  obtain ⟨herased, hkept⟩ := hmodels m
  split
  next h => exact herased h
  next h => exact hkept h

theorem exec_ready_of_other {s : State} (h : s.boot.stage ≠ .linkTrain) : exec .ready s = .next s := by
  change execReady s = _
  rw [execReady, if_neg fun e => h e.1]
  rfl

/-! ## The stages in their order -/

/-- Settles O22, stage by stage. That AON brings the rails, AON_REFCLK and RESET_N back is log entry 72; scope 5 of the entry a
pseudo-channel's uncorrectable error logs is log entry 66. -/
theorem bringupStages : Obligations.BringupStages := by
  intro s atMost
  refine ⟨fun a b hstage hperst htrip => exec_aon_of_released hstage hperst htrip a b, fun a b h => exec_aon_of_held h a b,
    fun hstage hfailed ch tg => ⟨fun h => exec_dramTrain_ends hstage hfailed ch tg false (.inr h),
      exec_dramTrain_ends hstage hfailed ch tg true (.inl rfl), exec_dramTrain_catalogueLost hstage hfailed ch tg,
      fun pc ok => exec_dramTrain_failed hstage hfailed pc false ch tg ok,
      fun pc ok => ⟨_, exec_dramTrain_failed hstage hfailed pc true ch tg ok, rfl⟩⟩,
    fun hstage r => exec_linkTrain hstage r, exec_linkTrainTimeout_ends, exec_ready_enables,
    fun h => ⟨fun r => exec_linkTrain_of_other h r, exec_linkTrainTimeout_of_other h, exec_ready_of_other h⟩,
    fun h p u ch tg ok => exec_dramTrain_of_other h p u ch tg ok⟩

end Sys2Proof.Machine
end

section
/-!
PROOFS. Writes of the registers of BAR0 (R420, R421), the layer selection of a tile's KV counters (R112, R113), and O17.
-/
namespace Sys2Proof.Machine

/-! ## Fields of a written word (R420, R421) -/

/-- A field of a word, read as a word of its own width. -/
theorem ofNat_fld {n : Nat} (x : BitVec n) (lo w : Nat) : BitVec.ofNat w (fld x lo w) = x.extractLsb' lo w := by
  apply BitVec.eq_of_toNat_eq
  rw [BitVec.toNat_ofNat, BitVec.extractLsb'_toNat, fld, bits, Nat.mod_mod, Nat.shiftRight_eq_div_pow]

theorem toNat_extractLsb'_eq_fld {n : Nat} (x : BitVec n) (lo w : Nat) : (x.extractLsb' lo w).toNat = fld x lo w := by
  rw [BitVec.extractLsb'_toNat, fld, bits, Nat.shiftRight_eq_div_pow]

/-- R420: an RW field that a write covers takes a value in its range and keeps the old one otherwise. -/
theorem ofNat_rwField_of_covers {lo w flo fw : Nat} (h : covers lo w flo fw = true) (v : BitVec 64) (old : BitVec fw)
    (ok : Nat → Bool) : BitVec.ofNat fw (rwField lo w v flo fw old.toNat ok) =
      if ok (fld v flo fw) then v.extractLsb' flo fw else old := by
  rw [rwField, h, Bool.true_and]
  split
  · exact ofNat_fld v flo fw
  · rw [BitVec.ofNat_toNat, BitVec.setWidth_eq]

theorem getLsbD_clrBit_ite (word : BitVec 64) {i : Nat} (hi : i < 64) (b : Bool) (j : Nat) :
    (if b then clrBit word i else word).getLsbD j = (word.getLsbD j && !(decide (j = i) && b)) := by
  cases b
  · simp
  · simp [clrBit_getLsbD word i j hi, Bool.and_comm]

/-- R421: writing 1 to a W1C bit clears it, and nothing else changes. -/
theorem getLsbD_w1c (lo w : Nat) (v : BitVec 64) (j : Nat) : ∀ (ones : List Nat) (word : BitVec 64), (∀ i ∈ ones, i < 64) →
    (w1c word lo w v ones).getLsbD j = (word.getLsbD j && !(decide (j ∈ ones) && (covers lo w j 1 && bit v j)))
  | [], word, _ => by simp [w1c]
  | i :: ones, word, h => by
    obtain ⟨hi, hones⟩ := List.forall_mem_cons.1 h
    have hrest := getLsbD_w1c lo w v j ones (if covers lo w i 1 && bit v i then clrBit word i else word) hones
    rw [getLsbD_clrBit_ite word hi] at hrest
    refine hrest.trans ?_
    by_cases hji : j = i
    · subst hji
      cases covers lo w j 1 && bit v j <;> simp
    · simp [hji]

/-! ## Where a write lands (R419, R420) -/

theorem exec_registerWrite (f : Fn) (off : BitVec 26) (n : Nat) (v : BitVec 64) (s : State) :
    exec (.registerWrite f off n v) s = done s (s.writeReg f off.toNat n v) := rfl

/-- R419: the page of a tile in the PF's BAR0. -/
theorem placeOf_tile (t : TileIx) {o : Nat} (h : o < 0x1000) : placeOf 0 (0x80000 + 0x1000 * t.val + o) = .tile t o := by
  have ht := t.isLt
  have hindex : Fin.ofNat 4 ((0x80000 + 0x1000 * t.val + o - 0x80000) / 0x1000) = t :=
    Fin.ext (by change _ % 4 = _; omega)
  have hoffset : (0x80000 + 0x1000 * t.val + o) % 0x1000 = o := by omega
  rw [placeOf, if_neg (by omega), if_neg (by omega), if_neg (by simp), if_neg (by omega), if_neg (by omega),
    if_pos (by omega), hindex, hoffset]

/-- R419: the package page in the PF's BAR0. -/
theorem placeOf_package {o : Nat} (h : o < 0x10000) : placeOf 0 (0x10000 + o) = .package o := by
  rw [placeOf, if_neg (by omega), if_neg (by omega), if_neg (by simp), if_pos (by omega), Nat.add_sub_cancel_left]

section
variable {s : State} (hready : s.isReady = true)
include hready

/-- R420: a 64-bit write of the package page. -/
theorem State.writeReg_package {o : Nat} (ho : o < 0x10000) (hal : o % 8 = 0) (v : BitVec 64) :
    s.writeReg 0 (0x10000 + o) 8 v = s.writePackage o 0 64 v := by
  have hoff : (0x10000 + o) % 8 = 0 := by omega
  simp [State.writeReg, slotPlace, hoff, placeOf_package ho, State.responds, hready, mayChange]

/-- R420, R421: a 64-bit write of TILE_STICKY. -/
theorem State.writeReg_sticky (t : TileIx) (v : BitVec 64) : s.writeReg 0 (0x80000 + 0x1000 * t.val) 8 v =
    s.modTile t fun x => { x with sticky := w1c x.sticky 0 64 v [1, 2, 3, 4, 5, 6, 7, 8] } := by
  have hoff : (0x80000 + 0x1000 * t.val) % 8 = 0 := by omega
  have hplace : placeOf 0 (0x80000 + 0x1000 * t.val) = .tile t 0 := placeOf_tile t (o := 0) (by omega)
  simp [State.writeReg, slotPlace, hoff, hplace, State.responds, hready, mayChange]

/-- R112, R420: a 32-bit write of TILE_KV_LAYER_SEL. -/
theorem State.writeReg_kvLayerSel (t : TileIx) (v : BitVec 64) :
    s.writeReg 0 (0x80000 + 0x1000 * t.val + 0x68) 4 v = s.selectLayer t 0 32 v := by
  have hal : (0x80000 + 0x1000 * t.val + 0x68) % 4 = 0 := by omega
  have hoff : (0x80000 + 0x1000 * t.val + 0x68) % 8 = 0 := by omega
  have hplace : placeOf 0 (0x80000 + 0x1000 * t.val + 0x68) = .tile t 0x68 := placeOf_tile t (by omega)
  simp [State.writeReg, slotPlace, hal, hoff, hplace, State.responds, hready, mayChange]

/-- R422: a VF's write of the physical function's pages changes nothing. -/
theorem State.writeReg_of_vf {f : Fn} (hf : f ≠ 0) {off : Nat} (hoff : 0x3000 ≤ off) (hal : off % 8 = 0) (v : BitVec 64) :
    s.writeReg f off 8 v = s := by
  have hplace : placeOf f off = .none := by
    rw [placeOf, if_neg (by omega), if_neg (by omega), if_pos hf, if_neg (by omega)]
  simp [State.writeReg, slotPlace, hal, hplace, State.responds, hready, mayChange, hf]

end

/-! ## HANG_LIMIT and CAP (R301, R401, R404) -/

/-- R301: HANG_LIMIT takes 10 to 1,000,000. -/
theorem State.writePackage_hangLimit (s : State) (v : BitVec 64) : s.writePackage 0x400 0 64 v = s.modSync fun x => { x with
    hangLimit := if 10 ≤ fld v 0 20 ∧ fld v 0 20 ≤ 1000000 then v.extractLsb' 0 20 else s.sync.hangLimit } := by
  have hfield := ofNat_rwField_of_covers (lo := 0) (w := 64) (flo := 0) (fw := 20) rfl v s.sync.hangLimit
    fun n => decide (10 ≤ n ∧ n ≤ 1000000)
  simp only [decide_eq_true_eq] at hfield
  exact congrArg (fun l => s.modSync fun x => { x with hangLimit := l }) hfield

/-- R401, R404: CAP takes 600 to the part's largest. -/
theorem State.setCap_eq (s : State) (w : BitVec 12) : s.setCap w.toNat = s.modPower fun x => { x with
    cap := if 600 ≤ w.toNat ∧ w.toNat ≤ s.capMax then w else s.power.cap } := by
  rw [State.setCap]
  split
  · rw [BitVec.ofNat_toNat, BitVec.setWidth_eq]
  · rfl

theorem State.writePackage_cap (s : State) (v : BitVec 64) :
    s.writePackage 0x008 0 64 v = s.setCap (v.extractLsb' 0 12).toNat := by
  rw [toNat_extractLsb'_eq_fld]
  rfl

/-! ## TILE_KV_LAYER_SEL (R112, R113) -/

/-- The selection is the low nine bits of the word written: ALL and LAYER. -/
theorem ofNat_all_layer (w : BitVec 32) :
    BitVec.ofNat 32 (256 * fld (w.setWidth 64) 8 1 + fld (w.setWidth 64) 0 8) = w &&& 0x1FF := by
  have hmask : (w &&& 0x1FF).toNat = w.toNat % 512 :=
    (BitVec.toNat_and w 0x1FF).trans (Nat.and_two_pow_sub_one_eq_mod w.toNat 9)
  have hfields : 256 * fld (w.setWidth 64) 8 1 + fld (w.setWidth 64) 0 8 = w.toNat % 512 := by
    rw [fld, fld, bits, bits, BitVec.toNat_setWidth_of_le (by decide)]
    omega
  rw [hfields, ← hmask, BitVec.ofNat_toNat, BitVec.setWidth_eq]

/-- R112, R113: a 32-bit write of TILE_KV_LAYER_SEL. -/
theorem State.selectLayer_eq (s : State) (t : TileIx) (w : BitVec 32) : s.selectLayer t 0 32 (w.setWidth 64) =
    s.modTile t fun x =>
      ({ x with kvLayerNext := some (w &&& 0x1FF, s.openCohorts) } : Tile).layerBoundary fun _ => true := by
  rw [← ofNat_all_layer w]
  rfl

/-- R113: a selection that waits for a cohort that is open stays until its boundary. -/
theorem Tile.layerBoundary_waits (x : Tile) (v : BitVec 32) {ks : List (SlotIx × CohIx)} (h : ks ≠ []) :
    ({ x with kvLayerNext := some (v, ks) } : Tile).layerBoundary (fun _ => true) = { x with kvLayerNext := some (v, ks) } := by
  have hany : ks.any (fun _ => true) = true := by simpa [List.any_eq_true] using List.exists_mem_of_ne_nil ks h
  simp [Tile.layerBoundary, hany]

/-! ## The registers' writes -/

/-- R401: the management controller's CAP keeps to the part's range. -/
theorem exec_pldmCapSet (s : State) (w : BitVec 12) : exec (.pldmCapSet w) s = .next (s.modPower fun x => { x with
    cap := if 600 ≤ w.toNat ∧ w.toNat ≤ s.capMax then w else s.power.cap }) :=
  congrArg (done s) (s.setCap_eq w)

section
variable {s : State} (hready : s.isReady = true)
include hready

theorem exec_registerWrite_hangLimit (v : BitVec 64) :
    exec (.registerWrite 0 0x10400 8 v) s = .next (s.modSync fun x => { x with
      hangLimit := if 10 ≤ fld v 0 20 ∧ fld v 0 20 ≤ 1000000 then v.extractLsb' 0 20 else s.sync.hangLimit }) :=
  congrArg (done s) ((State.writeReg_package hready (by decide) rfl v).trans (s.writePackage_hangLimit v))

/-- R404: POWER_CTL takes a CAP as the management controller's command does. -/
theorem exec_registerWrite_cap (v : BitVec 64) :
    exec (.registerWrite 0 0x10008 8 v) s = exec (.pldmCapSet (v.extractLsb' 0 12)) s :=
  congrArg (done s) ((State.writeReg_package hready (by decide) rfl v).trans (s.writePackage_cap v))

theorem exec_registerWrite_sticky (t : TileIx) (v : BitVec 64) :
    exec (.registerWrite 0 (BitVec.ofNat 26 (0x80000 + 0x1000 * t.val)) 8 v) s =
      .next (s.modTile t fun y => { y with sticky := w1c s.tiles[t].sticky 0 64 v [1, 2, 3, 4, 5, 6, 7, 8] }) := by
  have ht := t.isLt
  have hoff : (BitVec.ofNat 26 (0x80000 + 0x1000 * t.val)).toNat = 0x80000 + 0x1000 * t.val :=
    Nat.mod_eq_of_lt (by omega)
  rw [exec_registerWrite, hoff, State.writeReg_sticky hready]
  rfl

theorem exec_kvLayerSelect (t : TileIx) (w : BitVec 32) : exec (.kvLayerSelect t w) s = .next (s.modTile t fun x =>
    ({ x with kvLayerNext := some (w &&& 0x1FF, s.openCohorts) } : Tile).layerBoundary fun _ => true) :=
  congrArg (done s) ((State.writeReg_kvLayerSel hready t _).trans (s.selectLayer_eq t w))

/-- R113, log entry 116: with no cohort open the selection takes effect at once, its counters cleared. -/
theorem exec_kvLayerSelect_of_noCohort (h : s.cohorts = []) (t : TileIx) (w : BitVec 32) :
    exec (.kvLayerSelect t w) s = .next (s.modTile t fun x =>
      { x with kvLayerSel := w &&& 0x1FF, kvLayerNext := none, kvErr := 0, kvGroups := 0 }) := by
  rw [exec_kvLayerSelect hready, State.openCohorts, h]
  rfl

/-- R113, log entry 116: it waits for the next boundary of each cohort that is open. -/
theorem exec_kvLayerSelect_of_cohorts (h : s.cohorts ≠ []) (t : TileIx) (w : BitVec 32) :
    exec (.kvLayerSelect t w) s = .next (s.modTile t fun x => { x with kvLayerNext := some (w &&& 0x1FF, s.openCohorts) }) := by
  have hwaits : s.openCohorts ≠ [] := mt List.map_eq_nil_iff.1 h
  rw [exec_kvLayerSelect hready]
  simp only [Tile.layerBoundary_waits _ _ hwaits]

theorem exec_registerWrite_of_vf {f : Fn} (hf : f ≠ 0) {off : BitVec 26} (hoff : 0x3000 ≤ off.toNat) (hal : off.toNat % 8 = 0)
    (v : BitVec 64) : exec (.registerWrite f off 8 v) s = .next s := by
  rw [exec_registerWrite, State.writeReg_of_vf hready hf hoff hal]
  rfl

end

/-- R421: a 64-bit write clears the bits 1 to 8 of TILE_STICKY where it holds 1. -/
theorem getLsbD_w1c_sticky (word v : BitVec 64) (i : Nat) :
    (w1c word 0 64 v [1, 2, 3, 4, 5, 6, 7, 8]).getLsbD i = (word.getLsbD i && !(decide (1 ≤ i ∧ i ≤ 8) && v.getLsbD i)) := by
  have hmem : decide (i ∈ [1, 2, 3, 4, 5, 6, 7, 8]) = decide (1 ≤ i ∧ i ≤ 8) := by
    simp only [List.mem_cons, List.not_mem_nil, or_false, decide_eq_decide]
    omega
  rw [getLsbD_w1c 0 64 v i _ word (by decide), hmem]
  by_cases hi : 1 ≤ i ∧ i ≤ 8
  · have hcovers : covers 0 64 i 1 = true := by
      simp only [covers, Bool.and_eq_true, decide_eq_true_eq]
      omega
    simp [hcovers, bit]
  · simp [hi]

/-- Settles O17, register by register. Which cohorts a layer selection waits for is log entry 116. -/
theorem registerWrites : Obligations.RegisterWrites := by
  intro s t v hready top limit cap
  refine ⟨exec_registerWrite_hangLimit hready v,
    (exec_registerWrite_cap hready v).trans (exec_pldmCapSet s _), exec_pldmCapSet s,
    ⟨_, exec_registerWrite_sticky hready t v, ⟨_, rfl⟩, fun i => ?_⟩,
    fun w => ⟨fun h => exec_kvLayerSelect_of_noCohort hready h t w, fun h => exec_kvLayerSelect_of_cohorts hready h t w⟩,
    fun f hf => exec_registerWrite_of_vf hready hf (by decide) rfl v⟩
  rw [State.modTile_tiles, vmod_get_self]
  exact getLsbD_w1c_sticky _ v i

end Sys2Proof.Machine
end

section
/-!
PROOFS. The stores of the vector engine (R145, R147 to R149): what ST leaves in the memory it writes, form by form, and O8.
-/
namespace Sys2Proof.Machine

/-! ## Byte stores -/

theorem toLE_length (n x : Nat) : (toLE n x).length = n := by
  induction n generalizing x with
  | zero => rfl
  | succ n ih => rw [toLE, List.length_cons, ih]

theorem getBytes_congr {m m' : List Host.Cell} {a n : Nat} (h : ∀ i, i < n → getByte m (a + i) = getByte m' (a + i)) :
    getBytes m a n = getBytes m' a n :=
  List.map_congr_left fun i hi => h i (List.mem_range.1 hi)

theorem getBytes_putBytes_self (m : List Host.Cell) (a : Nat) (b : Bytes) : getBytes (putBytes m a b) a b.length = b := by
  refine List.ext_getElem (by simp [getBytes]) fun i _ hi => ?_
  simp [getBytes, getByte_putBytes, hi]

theorem getByte_putBytes_of_outside {m : List Host.Cell} {a x : Nat} {b : Bytes} (h : x < a ∨ a + b.length ≤ x) :
    getByte (putBytes m a b) x = getByte m x := by
  rw [getByte_putBytes, if_neg (by omega)]

/-! ## The memory that an instruction names by its SPACE (R142) -/

/-- The operand cache or the scratchpad of a tile. -/
def Tile.mem (x : Tile) (cache : Bool) : List Host.Cell := if cache then x.vec.opc else x.scratch

/-- The tile with that memory replaced by g of it. -/
def Tile.modMem (x : Tile) (cache : Bool) (g : List Host.Cell → List Host.Cell) : Tile :=
  if cache then { x with vec := { x.vec with opc := g x.vec.opc } } else { x with scratch := g x.scratch }

theorem Tile.mem_modMem (x : Tile) (c c' : Bool) (g : List Host.Cell → List Host.Cell) :
    (x.modMem c g).mem c' = if c' = c then g (x.mem c) else x.mem c' := by
  cases c <;> cases c' <;> rfl

theorem Tile.modMem_modMem (x : Tile) (c : Bool) (g h : List Host.Cell → List Host.Cell) :
    (x.modMem c g).modMem c h = x.modMem c fun m => h (g m) := by
  cases c <;> rfl

theorem State.vecGet_eq (s : State) (t : TileIx) (c : Bool) (a n : Nat) :
    s.vecGet t c a n = getBytes (s.tiles[t].mem c) a n := by
  cases c <;> rfl

theorem State.vecPut_eq (s : State) (t : TileIx) (c : Bool) (a : Nat) (b : Bytes) :
    s.vecPut t c a b = s.modTile t fun x => x.modMem c fun m => putBytes m a b := by
  cases c <;> rfl

theorem State.modTile_modMem_true (s : State) (t : TileIx) (g : List Host.Cell → List Host.Cell) :
    (s.modTile t fun x => x.modMem true g) = s.modVec t fun v => { v with opc := g v.opc } := rfl

theorem State.modTile_modMem_false (s : State) (t : TileIx) (g : List Host.Cell → List Host.Cell) :
    (s.modTile t fun x => x.modMem false g) = s.modTile t fun x => { x with scratch := g x.scratch } := rfl

theorem State.modTile_modTile (s : State) (t : TileIx) (g h : Tile → Tile) :
    (s.modTile t g).modTile t h = s.modTile t fun x => h (g x) := by
  simp [State.modTile, vmod]

theorem State.modTile_of_fixed {s : State} {t : TileIx} {g : Tile → Tile} (h : g s.tiles[t] = s.tiles[t]) :
    s.modTile t g = s := by
  rw [State.modTile, vmod, h]
  exact congrArg (fun v => { s with tiles := v }) (Vector.set_getElem_self ..)

theorem State.modTile_congr {s : State} {t : TileIx} {g h : Tile → Tile} (e : g s.tiles[t] = h s.tiles[t]) :
    s.modTile t g = s.modTile t h := by
  rw [State.modTile, State.modTile, vmod, vmod, e]

/-! ## The lanes of a store other than PLORYN (R147) -/

/-- One lane of a store, at address a. -/
def State.storeLane (s : State) (t : TileIx) (c : Bool) (form a l : Nat) (x : BitVec 32) : State :=
  if form = 4 then s.storeNibble t c a (l % 2 = 1) x else s.vecPut t c a (storeValue form x)

theorem State.storeLane_eq (s : State) (t : TileIx) (c : Bool) (form a l : Nat) (x : BitVec 32) :
    s.storeLane t c form a l x = s.modTile t fun y => y.modMem c fun m => storeCell form m a l x := by
  unfold State.storeLane storeCell
  split
  · rw [State.storeNibble, State.vecPut_eq, State.vecGet_eq]
    apply State.modTile_congr
    cases c <;> simp [Tile.modMem, Tile.mem]
  · exact s.vecPut_eq ..

/-- The lanes one after another, each at its address. -/
theorem State.foldl_storeLane (t : TileIx) (c : Bool) (form : Nat) (addr : Nat → Nat) (x : Nat → BitVec 32) (ls : List Nat)
    (s : State) : ls.foldl (fun a l => a.storeLane t c form (addr l) l (x l)) s =
      s.modTile t fun y => y.modMem c fun m => ls.foldl (fun m l => storeCell form m (addr l) l (x l)) m := by
  induction ls generalizing s with
  | nil => exact (State.modTile_of_fixed (by cases c <;> rfl)).symm
  | cons l ls ih =>
    rw [List.foldl_cons, ih, State.storeLane_eq, State.modTile_modTile]
    simp only [Tile.modMem_modMem, List.foldl_cons]

/-! ## The blocks of a PLORYN store (R120, R147) -/

/-- The 56 bytes of the block of the lanes from 64k up. -/
def plorynBytes (val : Nat → BitVec 16) (k : Nat) : Bytes :=
  toLE 56 (plorynEncode ((List.range 64).map fun i => val (64 * k + i))).1

theorem plorynBytes_length (val : Nat → BitVec 16) (k : Nat) : (plorynBytes val k).length = 56 := by
  rw [plorynBytes, toLE_length]

/-- Encoding counts the block (R131) and leaves the tile's memories. -/
theorem State.encodeBlock_mem (s : State) (t : TileIx) (xs : List (BitVec 16)) (c : Bool) :
    (s.encodeBlock t xs).2.tiles[t].mem c = s.tiles[t].mem c := by
  unfold State.encodeBlock
  dsimp only
  split
  · rw [State.modTile_tiles, vmod_get_self]
    simp only [Tile.mem]
  · rfl

/-- Writing one block replaces its bytes in the memory it is written to. -/
theorem State.storeBlock_mem (s : State) (t : TileIx) (c c' : Bool) (val : Nat → BitVec 16) (k a : Nat) :
    ((s.encodeBlock t ((List.range 64).map fun i => val (64 * k + i))).2.vecPut t c a
      (plorynBytes val k)).tiles[t].mem c' =
      if c' = c then putBytes (s.tiles[t].mem c) a (plorynBytes val k) else s.tiles[t].mem c' := by
  rw [State.vecPut_eq, State.modTile_tiles, vmod_get_self, Tile.mem_modMem, State.encodeBlock_mem, State.encodeBlock_mem]

theorem State.storeBlocks_succ (s : State) (t : TileIx) (c : Bool) (val : Nat → BitVec 16) (n k a : Nat) :
    s.storeBlocks t c val (n + 1) k a =
      ((s.encodeBlock t ((List.range 64).map fun i => val (64 * k + i))).2.vecPut t c a
        (plorynBytes val k)).storeBlocks t c val n (k + 1) (a + 56) := rfl

theorem State.storeBlocks_otherMem (s : State) (t : TileIx) (c : Bool) (val : Nat → BitVec 16) (n k a : Nat) :
    (s.storeBlocks t c val n k a).tiles[t].mem (!c) = s.tiles[t].mem (!c) := by
  induction n generalizing s k a with
  | zero => rfl
  | succ n ih => rw [State.storeBlocks_succ, ih, State.storeBlock_mem, if_neg (by simp)]

theorem State.storeBlocks_outside (s : State) (t : TileIx) (c : Bool) (val : Nat → BitVec 16) (n k a : Nat) {x : Nat}
    (h : x < a ∨ a + 56 * n ≤ x) :
    getByte ((s.storeBlocks t c val n k a).tiles[t].mem c) x = getByte (s.tiles[t].mem c) x := by
  induction n generalizing s k a with
  | zero => rfl
  | succ n ih =>
    rw [State.storeBlocks_succ, ih _ _ _ (by omega), State.storeBlock_mem, if_pos rfl,
      getByte_putBytes_of_outside (by rw [plorynBytes_length]; omega)]

theorem State.storeBlocks_block (s : State) (t : TileIx) (c : Bool) (val : Nat → BitVec 16) (n k a : Nat) {j : Nat} (hj : j < n) :
    getBytes ((s.storeBlocks t c val n k a).tiles[t].mem c) (a + 56 * j) 56 = plorynBytes val (k + j) := by
  induction n generalizing s k a j with
  | zero => exact absurd hj (Nat.not_lt_zero j)
  | succ n ih =>
    rw [State.storeBlocks_succ]
    cases j with
    | zero =>
      rw [Nat.mul_zero, Nat.add_zero, Nat.add_zero,
        getBytes_congr fun i hi => State.storeBlocks_outside _ t c val n (k + 1) (a + 56) (by omega),
        State.storeBlock_mem, if_pos rfl]
      exact plorynBytes_length val k ▸ getBytes_putBytes_self (s.tiles[t].mem c) a (plorynBytes val k)
    | succ j =>
      rw [show a + 56 * (j + 1) = a + 56 + 56 * j by omega, ih _ _ _ (Nat.lt_of_succ_lt_succ hj),
        show k + 1 + j = k + (j + 1) by omega]

/-! ## Flags, and one instruction counted -/

/-- Flags are raised without regard to the operand cache. -/
theorem Vec.raise_opc (v : Vec) (m : List Host.Cell) (l : List (Nat × BitVec 5)) :
    ({ v with opc := m } : Vec).raise l = { v.raise l with opc := m } := by
  unfold Vec.raise
  dsimp only
  split <;> rfl

theorem Vec.raise_opc_eq (v : Vec) (l : List (Nat × BitVec 5)) : (v.raise l).opc = v.opc := by
  rw [Vec.raise_frame]

theorem State.modVec_modVec (s : State) (t : TileIx) (g h : Vec → Vec) :
    (s.modVec t g).modVec t h = s.modVec t fun v => h (g v) :=
  s.modTile_modTile ..

/-- An instruction that leaves its engine as g of it. -/
theorem vecStep_modVec (s : State) (t : TileIx) (g : Vec → Vec) :
    VecStep s { (s.modVec t g).vecNext t with pending := s.pending } t (g s.tiles[t].vec) := by
  unfold VecStep State.vecNext State.modVec State.modTile vmod
  simp

/-- Raising flags and counting the instruction leave the tile's memories. -/
theorem State.raise_vecNext_mem (s : State) (t : TileIx) (l : List (Nat × BitVec 5)) (c : Bool) :
    ((s.modVec t fun v => v.raise l).vecNext t).tiles[t].mem c = s.tiles[t].mem c := by
  rw [State.vecNext, State.modVec_modVec, State.modVec_tiles, vmod_get_self]
  cases c
  · rfl
  · exact s.tiles[t].vec.raise_opc_eq l

/-! ## ST, case by case -/

/-- FORM, SPACE and shape of a memory instruction (R142). -/
abbrev vfForm (f : VF) : Nat := f.mod.toNat % 8
abbrev vfCache (f : VF) : Bool := f.mod.getLsbD 3
abbrev vfRows (f : VF) : Bool := decide (f.sb = 1)

/-- The lanes that a store writes (R148). -/
abbrev Vec.touched (v : Vec) (f : VF) : List Nat := v.touching f (vfRows f)

/-- The flags that a store to BF16 or PLORYN raises (R53, R147). -/
abbrev Vec.roundFlags (v : Vec) (f : VF) : List (Nat × BitVec 5) := storeFlags ((v.touched f).map fun l => (l, v.lane f.sc l))

/-- The flags of the lanes of an access outside the model's region (R149). -/
abbrev Vec.addrFlags (v : Vec) (f : VF) : List (Nat × BitVec 5) := (v.active f).map fun l => (l, lfAddr)

/-- The engine w with the flags that the rounding of a store of v raises. -/
abbrev Vec.raiseRounded (v : Vec) (f : VF) (w : Vec) : Vec := if vfForm f = 1 then w.raise (v.roundFlags f) else w

theorem Vec.raiseRounded_opc (v : Vec) (f : VF) (w : Vec) (m : List Host.Cell) :
    v.raiseRounded f { w with opc := m } = { v.raiseRounded f w with opc := m } := by
  unfold Vec.raiseRounded
  split
  · exact w.raise_opc m _
  · rfl

/-- The element of each lane of a PLORYN store: +0 in a lane it does not act on (R147). -/
abbrev Vec.plorynLane (v : Vec) (f : VF) (l : Nat) : BitVec 16 :=
  if (v.touched f).contains l then to16 (v.lane f.sc l) else 0

/-- A PLORYN store that touches a lane or, with none selected, encodes its blocks all the same (R145, R147, R148). -/
abbrev Vec.storesBlocks (v : Vec) (f : VF) : Prop :=
  vfForm f = 2 ∧ (v.touched f ≠ [] ∨ v.vl ≠ 0 ∧ v.rowMasked = false)

/-- A store that touches no lane and encodes no block. -/
def Vec.storeIdle (v : Vec) (f : VF) : Bool := (v.touched f).isEmpty && !v.plorynRuns (vfForm f)

theorem Vec.storeIdle_iff {v : Vec} {f : VF} : v.storeIdle f = true ↔ v.touched f = [] ∧ ¬ v.storesBlocks f := by
  have hvl : 0 < v.vl.val ↔ v.vl ≠ 0 := Fin.pos_iff_ne_zero
  simp only [Vec.storeIdle, Vec.plorynRuns, Bool.and_eq_true, List.isEmpty_iff, Bool.not_eq_true', Bool.and_eq_false_imp,
    decide_eq_true_eq, Bool.not_eq_false', hvl]
  refine and_congr_right fun htouch => ?_
  simp [Vec.storesBlocks, htouch]

section
variable (s : State) (t : TileIx) (f : VF)

/-- Where the blocks of a PLORYN store end in the model's region (R147, R149). -/
abbrev State.blocksEnd : Nat := s.vecAddr t f + 56 * cdiv s.tiles[t].vec.vl.val 64

/-- Every lane that a store other than PLORYN writes lies in the model's region (R149). -/
abbrev State.lanesInSpan : Bool :=
  inSpan (s.vecSpan t (vfCache f)).2 (s.vecAddr t f) s.tiles[t].vec.ctx.rowStride (vfForm f) (vfRows f) (s.tiles[t].vec.touched f)

/-- An access outside the model's region: its lanes are flagged and nothing is written (R149). -/
def State.storeOutside : State := (s.modVec t fun v => v.raise (s.tiles[t].vec.addrFlags f)).vecNext t

/-- The lanes of a store other than PLORYN in ascending order, and the flags of their rounding (R147). -/
def State.storeLanes : State :=
  (((s.tiles[t].vec.touched f).foldl (fun a l => a.storeLane t (vfCache f) (vfForm f)
      ((s.vecSpan t (vfCache f)).1 + laneAddr (s.vecAddr t f) s.tiles[t].vec.ctx.rowStride (vfForm f) (vfRows f) l) l
      (s.tiles[t].vec.lane f.sc l)) s).modVec t (s.tiles[t].vec.raiseRounded f)).vecNext t

/-- The blocks of a PLORYN store, and the flags of its lanes' rounding (R147). -/
def State.storePloryn : State :=
  ((s.storeBlocks t (vfCache f) (s.tiles[t].vec.plorynLane f) (cdiv s.tiles[t].vec.vl.val 64) 0
      ((s.vecSpan t (vfCache f)).1 + s.vecAddr t f)).modVec t
    fun v => v.raise (s.tiles[t].vec.roundFlags f)).vecNext t

theorem State.storeOp_eq : s.storeOp t f =
    if s.tiles[t].vec.storeIdle f then s.vecNext t
    else if vfForm f = 2 then
      if s.blocksEnd t f ≤ (s.vecSpan t (vfCache f)).2 then s.storePloryn t f else s.storeOutside t f
    else if s.lanesInSpan t f then s.storeLanes t f else s.storeOutside t f := by
  simp only [State.storeOp, List.foldl_map]
  rfl

/-- A byte store once the lanes of a store other than PLORYN are written (R147, R148). -/
abbrev State.storedCells (m : List Host.Cell) : List Host.Cell :=
  storeCells s.tiles[t].vec f (vfForm f) (vfRows f) (s.vecSpan t (vfCache f)).1 (s.vecAddr t f) m

theorem State.storeLanes_eq : s.storeLanes t f = ((s.modTile t fun x => x.modMem (vfCache f) (s.storedCells t f)).modVec t
    (s.tiles[t].vec.raiseRounded f)).vecNext t := by
  rw [State.storeLanes, State.foldl_storeLane]
  rfl

end

section
variable {s : State} {t : TileIx} {f : VF} (hf : vfOk 0x02 f = true)
include hf

theorem exec_vSt : exec (.vSt t f) s = done s (s.storeOp t f) := by
  change execVSt t f s = _
  rw [execVSt, if_pos hf]
  rfl

theorem exec_vSt_idle (htouch : s.tiles[t].vec.touched f = []) (hblocks : ¬ s.tiles[t].vec.storesBlocks f) :
    VecRun (.vSt t f) s t s.tiles[t].vec := by
  apply vecRun_self
  rw [exec_vSt hf, State.storeOp_eq, if_pos (Vec.storeIdle_iff.2 ⟨htouch, hblocks⟩)]

section
variable (htouch : s.tiles[t].vec.touched f ≠ []) (hform : vfForm f ≠ 2)
include htouch hform

theorem exec_vSt_lanes (hspan : s.lanesInSpan t f = true) : exec (.vSt t f) s = done s (s.storeLanes t f) := by
  rw [exec_vSt hf, State.storeOp_eq, if_neg fun h => htouch (Vec.storeIdle_iff.1 h).1, if_neg hform, if_pos hspan]

theorem exec_vSt_lanes_outside (hspan : s.lanesInSpan t f = false) :
    VecRun (.vSt t f) s t (s.tiles[t].vec.raise (s.tiles[t].vec.addrFlags f)) := by
  refine vecRun_mod _ _ _ (fun v => v.raise (s.tiles[t].vec.addrFlags f)) ?_
  rw [exec_vSt hf, State.storeOp_eq, if_neg fun h => htouch (Vec.storeIdle_iff.1 h).1, if_neg hform,
    if_neg (Bool.eq_false_iff.1 hspan), State.storeOutside]

theorem exec_vSt_cache (hspan : s.lanesInSpan t f = true) (hcache : vfCache f = true) : VecRun (.vSt t f) s t
    { s.tiles[t].vec.raiseRounded f s.tiles[t].vec with opc := s.storedCells t f s.tiles[t].vec.opc } := by
  rw [← Vec.raiseRounded_opc]
  refine vecRun_mod _ _ _ (fun w => s.tiles[t].vec.raiseRounded f { w with opc := s.storedCells t f w.opc }) ?_
  rw [exec_vSt_lanes hf htouch hform hspan, State.storeLanes_eq, hcache, State.modTile_modMem_true, State.modVec_modVec]

theorem exec_vSt_scratch (hspan : s.lanesInSpan t f = true) (hcache : vfCache f = false) :
    ∃ u, exec (.vSt t f) s = .next u ∧ VecStep (s.modTile t fun x => { x with scratch := s.storedCells t f x.scratch }) u t
      (s.tiles[t].vec.raiseRounded f s.tiles[t].vec) := by
  refine ⟨_, (exec_vSt_lanes hf htouch hform hspan).trans (done_next _ _), ?_⟩
  rw [State.storeLanes_eq, hcache, State.modTile_modMem_false]
  have hstep := vecStep_modVec (s.modTile t fun x => { x with scratch := s.storedCells t f x.scratch }) t
    (s.tiles[t].vec.raiseRounded f)
  rw [State.modTile_tiles, vmod_get_self] at hstep
  exact hstep

end

section
variable (hblocks : s.tiles[t].vec.storesBlocks f)
include hblocks

theorem exec_vSt_blocks (hspan : s.blocksEnd t f ≤ (s.vecSpan t (vfCache f)).2) :
    exec (.vSt t f) s = done s (s.storePloryn t f) := by
  rw [exec_vSt hf, State.storeOp_eq, if_neg fun h => (Vec.storeIdle_iff.1 h).2 hblocks, if_pos hblocks.1, if_pos hspan]

theorem exec_vSt_blocks_outside (hspan : (s.vecSpan t (vfCache f)).2 < s.blocksEnd t f) :
    VecRun (.vSt t f) s t (s.tiles[t].vec.raise (s.tiles[t].vec.addrFlags f)) := by
  refine vecRun_mod _ _ _ (fun v => v.raise (s.tiles[t].vec.addrFlags f)) ?_
  rw [exec_vSt hf, State.storeOp_eq, if_neg fun h => (Vec.storeIdle_iff.1 h).2 hblocks, if_pos hblocks.1,
    if_neg (Nat.not_le.2 hspan), State.storeOutside]

end

end

/-- What a PLORYN store leaves in the memories of its tile is what its blocks leave there. -/
theorem State.storePloryn_mem (s : State) (t : TileIx) (f : VF) (c : Bool) : (s.storePloryn t f).tiles[t].mem c =
    (s.storeBlocks t (vfCache f) (s.tiles[t].vec.plorynLane f) (cdiv s.tiles[t].vec.vl.val 64) 0
      ((s.vecSpan t (vfCache f)).1 + s.vecAddr t f)).tiles[t].mem c :=
  State.raise_vecNext_mem ..

theorem State.storePloryn_same (s : State) (t : TileIx) (f : VF) : Same [.tiles] s (s.storePloryn t f) :=
  Same.andThen State.vecNext_same (by decide) (Same.andThen State.modVec_same (by decide) State.storeBlocks_same)

theorem State.vecGet_pending (s : State) (q : List Instr) (t : TileIx) (c : Bool) (a n : Nat) :
    ({ s with pending := q } : State).vecGet t c a n = s.vecGet t c a n := rfl

/-- Settles O8, outcome by outcome of an ST. That the range check of R149 counts only the lanes a store touches is log entries
28 and 94. -/
theorem vecStore : Obligations.VecStore := by
  intro s t f hf v cache form rows at0 span touch raised blocks
  refine ⟨exec_vSt_idle hf, exec_vSt_cache hf, exec_vSt_scratch hf, exec_vSt_lanes_outside hf, exec_vSt_blocks_outside hf,
    fun hblocks hspan => ?_⟩
  have hexec := exec_vSt_blocks hf hblocks hspan
  refine ⟨_, hexec.trans (done_next _ _), Leaves.done (s.storePloryn_same t f) _ (done_next _ _), fun k hk => ?_, fun a => ?_,
    fun a ha => ?_⟩
  · rw [State.vecGet_pending, State.vecGet_eq, State.storePloryn_mem]
    exact (State.storeBlocks_block s t _ _ _ 0 _ hk).trans (by rw [Nat.zero_add]; rfl)
  · rw [State.vecGet_pending, State.vecGet_eq, State.vecGet_eq, State.storePloryn_mem]
    exact congrArg (getBytes · a 1) (State.storeBlocks_otherMem ..)
  · rw [State.vecGet_pending, State.vecGet_eq, State.vecGet_eq, State.storePloryn_mem]
    refine getBytes_congr fun i hi => State.storeBlocks_outside s t _ _ _ 0 _ ?_
    rwa [Nat.lt_one_iff.1 hi]

end Sys2Proof.Machine
end
